-- ==== Sys2Proof/Word.lean ====
section
/-! DEFINITION. The words of the Camius module (spec/00_scope.md, R1): bytes, 64-bit scalars, and
the finite maps in which the state keeps its register files. -/

namespace Sys2Proof

/-- A byte. -/
abbrev Byte := BitVec 8

/-- A 64-bit scalar. -/
abbrev Word := BitVec 64

/-- A vector register: 4,096 bits (R323). -/
abbrev VecBits := BitVec 4096

/-- A mask register: 512 lanes. -/
abbrev MaskBits := BitVec 512

/-- A tile register: 16 KiB. -/
abbrev TileBits := BitVec 131072

/-- A finite map from numbers: the key of a listed pair, every other key at a default. -/
abbrev KV (α : Type) := List (Nat × α)

namespace KV

/-- The value at a key, `d` where the key is not listed. -/
def get {α : Type} (d : α) : KV α → Nat → α
  | [], _ => d
  | (k, v) :: rest, i => if k = i then v else get d rest i

/-- Sets the value at a key, replacing the pair that stands there. -/
def put {α : Type} : KV α → Nat → α → KV α
  | [], i, x => [(i, x)]
  | (k, v) :: rest, i, x =>
    if k = i then (i, x) :: rest
    else if i < k then (i, x) :: (k, v) :: rest
    else (k, v) :: put rest i x

/-- Removes a key. -/
def erase {α : Type} (m : KV α) (i : Nat) : KV α := m.filter (fun p => p.1 ≠ i)

/-- Sets the values at several keys in order. -/
def putAll {α : Type} (m : KV α) : List (Nat × α) → KV α
  | [] => m
  | (i, x) :: rest => putAll (put m i x) rest

end KV

/-- The bytes of a number, little-endian (R1). -/
def leBytes : Nat → Nat → List Byte
  | 0, _ => []
  | n + 1, v => BitVec.ofNat 8 v :: leBytes n (v / 256)

/-- The number that bytes hold, little-endian (R1). -/
def ofLeBytes : List Byte → Nat
  | [] => 0
  | b :: rest => b.toNat + 256 * ofLeBytes rest

/-- Bits `hi` to `lo` of a number. -/
def bitsOf (v hi lo : Nat) : Nat := (v / 2 ^ lo) % 2 ^ (hi + 1 - lo)

/-- One bit of a number. -/
def bitAt (v i : Nat) : Bool := (v / 2 ^ i) % 2 = 1

end Sys2Proof
end

