-- ==== Sys2Proof/Syntax.lean ====
section
/-! DEFINITION. The instructions of the Camius module: one constructor for each row of
spec/opcode_table.json. A row with a word (R222) carries the word's operand fields as raw bits. A row
that is an event of another agent of the module has no word and no operand: what the agent brings (a
packet, a register value, the number of a bank) stands in the state's `input` when the event runs. The
words stand first, the events after them, each in the table's order. -/

namespace Sys2Proof

/-- The instructions: every row of the table of operations and events. -/
inductive Instr where
  /-- R250: sd := sa + sb modulo 2^64. -/
  | add (d : BitVec 6) (a : BitVec 6) (b : BitVec 6)
  /-- R250: sd := sa − sb modulo 2^64. -/
  | sub (d : BitVec 6) (a : BitVec 6) (b : BitVec 6)
  /-- R250: sd := sa & sb. -/
  | and (d : BitVec 6) (a : BitVec 6) (b : BitVec 6)
  /-- R250: sd := sa | sb. -/
  | or (d : BitVec 6) (a : BitVec 6) (b : BitVec 6)
  /-- R250: sd := sa ^ sb. -/
  | xor (d : BitVec 6) (a : BitVec 6) (b : BitVec 6)
  /-- R250: sd := sa & ~sb. -/
  | andn (d : BitVec 6) (a : BitVec 6) (b : BitVec 6)
  /-- R250: sd := sa | ~sb. -/
  | orn (d : BitVec 6) (a : BitVec 6) (b : BitVec 6)
  /-- R250: sd := sa shifted left by sb[5:0]. -/
  | sll (d : BitVec 6) (a : BitVec 6) (b : BitVec 6)
  /-- R250: sd := sa shifted right logically by sb[5:0]. -/
  | srl (d : BitVec 6) (a : BitVec 6) (b : BitVec 6)
  /-- R250: sd := sa shifted right arithmetically by sb[5:0]. -/
  | sra (d : BitVec 6) (a : BitVec 6) (b : BitVec 6)
  /-- R250: sd := sa rotated left by sb[5:0]. -/
  | rol (d : BitVec 6) (a : BitVec 6) (b : BitVec 6)
  /-- R250: sd := sa rotated right by sb[5:0]. -/
  | ror (d : BitVec 6) (a : BitVec 6) (b : BitVec 6)
  /-- R250: sd := low 64 bits of sa × sb. -/
  | mul (d : BitVec 6) (a : BitVec 6) (b : BitVec 6)
  /-- R250: sd := high 64 bits of the signed 128-bit product. -/
  | mulh (d : BitVec 6) (a : BitVec 6) (b : BitVec 6)
  /-- R250: sd := high 64 bits of the unsigned 128-bit product. -/
  | mulhu (d : BitVec 6) (a : BitVec 6) (b : BitVec 6)
  /-- R250: sd := signed quotient truncated toward zero, with defined results for division by zero and overflow. -/
  | div (d : BitVec 6) (a : BitVec 6) (b : BitVec 6)
  /-- R250: sd := unsigned quotient, or all ones for division by zero. -/
  | divu (d : BitVec 6) (a : BitVec 6) (b : BitVec 6)
  /-- R250: sd := signed remainder with the sign of the dividend. -/
  | rem (d : BitVec 6) (a : BitVec 6) (b : BitVec 6)
  /-- R250: sd := unsigned remainder, or sa for division by zero. -/
  | remu (d : BitVec 6) (a : BitVec 6) (b : BitVec 6)
  /-- R250: sd := signed minimum. -/
  | min (d : BitVec 6) (a : BitVec 6) (b : BitVec 6)
  /-- R250: sd := signed maximum. -/
  | max (d : BitVec 6) (a : BitVec 6) (b : BitVec 6)
  /-- R250: sd := unsigned minimum. -/
  | minu (d : BitVec 6) (a : BitVec 6) (b : BitVec 6)
  /-- R250: sd := unsigned maximum. -/
  | maxu (d : BitVec 6) (a : BitVec 6) (b : BitVec 6)
  /-- R250: sd := saturated signed sum. -/
  | adds (d : BitVec 6) (a : BitVec 6) (b : BitVec 6)
  /-- R250: sd := saturated signed difference. -/
  | subs (d : BitVec 6) (a : BitVec 6) (b : BitVec 6)
  /-- R250: sd := number of leading zeros of sa. -/
  | clz (d : BitVec 6) (a : BitVec 6)
  /-- R250: sd := number of trailing zeros of sa. -/
  | ctz (d : BitVec 6) (a : BitVec 6)
  /-- R250: sd := number of ones in sa. -/
  | popc (d : BitVec 6) (a : BitVec 6)
  /-- R250: sd := the bytes of sa in reverse order. -/
  | bswap (d : BitVec 6) (a : BitVec 6)
  /-- R251: sd := sa + the sign-extended immediate. -/
  | addi (d : BitVec 6) (a : BitVec 6) (i : BitVec 12)
  /-- R251: sd := sa & the sign-extended immediate. -/
  | andi (d : BitVec 6) (a : BitVec 6) (i : BitVec 12)
  /-- R251: sd := sa | the zero-extended immediate. -/
  | ori (d : BitVec 6) (a : BitVec 6) (i : BitVec 12)
  /-- R251: sd := sa ^ the zero-extended immediate. -/
  | xori (d : BitVec 6) (a : BitVec 6) (i : BitVec 12)
  /-- R252: Shifts or rotates sa by an immediate count of the chosen kind. -/
  | shi (d : BitVec 6) (a : BitVec 6) (k : BitVec 4) (n : BitVec 6)
  /-- R253: sd := the 16-bit immediate in quarter q, with zeros elsewhere. -/
  | movw (d : BitVec 6) (q : BitVec 2) (i : BitVec 16)
  /-- R253: Writes the 16-bit immediate into quarter q of sd, keeping the other quarters. -/
  | movk (d : BitVec 6) (q : BitVec 2) (i : BitVec 16)
  /-- R256: Compares two scalars and combines the result into a predicate. -/
  | cmp (p : BitVec 4) (a : BitVec 6) (b : BitVec 6) (c : BitVec 4) (m : BitVec 4)
  /-- R257: Compares a scalar with an immediate and writes a predicate. -/
  | cmpi (p : BitVec 4) (a : BitVec 6) (c : BitVec 4) (i : BitVec 10)
  /-- R258: Applies a truth table to two predicates and combines the result into a predicate. -/
  | plog (p : BitVec 4) (a : BitVec 6) (b : BitVec 6) (t : BitVec 4) (c : BitVec 4)
  /-- R259: sd := sa or sb according to a predicate, optionally inverted. -/
  | sel (d : BitVec 6) (a : BitVec 6) (b : BitVec 6) (n : BitVec 1) (k : BitVec 4)
  /-- R261: Path word that branches to a word offset when the predicate, xor neg, is true. -/
  | br (p : BitVec 4) (n : BitVec 1) (o : BitVec 19)
  /-- R262: Conditional branch that also writes the link register s62 when taken. -/
  | jal (p : BitVec 4) (n : BitVec 1) (o : BitVec 19)
  /-- R263: Jumps to sa + immediate and writes the return index to sd. -/
  | jalr (d : BitVec 6) (a : BitVec 6) (i : BitVec 12)
  /-- R264: Pushes sa into cq. -/
  | qmovCq (a : BitVec 6)
  /-- R264: Pops the head of vq into sd. -/
  | qmovVq (d : BitVec 6)
  /-- R264: Pushes sa into xq. -/
  | qmovXq (a : BitVec 6)
  /-- R264: Pushes a descriptor built from sa and sb into mq. -/
  | qmovMq (a : BitVec 6) (b : BitVec 6)
  /-- R271: Reads a job descriptor and requests a shared engine through a route list, writing the busy predicate and job handle. -/
  | engreq (d : BitVec 6) (a : BitVec 6) (b : BitVec 6) (k : BitVec 3)
  /-- R277: Reports whether a job of this task is running. -/
  | engctlQuery (d : BitVec 6) (a : BitVec 6)
  /-- R277: Reports a job and stops it with status ABANDONED. -/
  | engctlAbandon (d : BitVec 6) (a : BitVec 6)
  /-- R277: Removes the task's hold-list entry for a route list, launch or pwr, freeing held places. -/
  | engctlUnhold (b : BitVec 6)
  /-- R278: Rendezvous word that requests a current region of a level at the Bellows. -/
  | pwrAcq (d : BitVec 6) (l : BitVec 3)
  /-- R278: Rendezvous word that releases the current region. -/
  | pwrRel
  /-- R266: sd := the value of flag fk. -/
  | flagRd (d : BitVec 6) (k : BitVec 4)
  /-- R266: Writes sa[19:0] to flag fk after earlier accesses. -/
  | flagWr (a : BitVec 6) (k : BitVec 4)
  /-- R266: Increments flag fk after earlier accesses. -/
  | flagInc (k : BitVec 4)
  /-- R266: Adds sa[19:0] to flag fk after earlier accesses. -/
  | flagAdd (a : BitVec 6) (k : BitVec 4)
  /-- R268: Blocking barrier arrival at a scope and id. -/
  | bar (i : BitVec 4) (s : BitVec 3)
  /-- R268: Split barrier arrival whose completion increments a flag. -/
  | barSplit (d : BitVec 6) (i : BitVec 4) (s : BitVec 3)
  /-- R270: Fence of an ordering and scope. -/
  | fence (s : BitVec 3) (o : BitVec 2)
  /-- R279: Reads a launch record and asks the Chanter to start a group, writing the busy predicate and the identifier or reason. -/
  | launch (d : BitVec 6) (a : BitVec 6) (b : BitVec 6)
  /-- R280: A yield point, where the task stops if its group is pending checkpoint. -/
  | yield
  /-- R221: Waits for earlier vector and matrix words and traps with ARITH if enabled flags are set. -/
  | trapfence
  /-- R280: Traps precisely with TRAP and TVAL := sa + immediate. -/
  | trap (a : BitVec 6) (i : BitVec 12)
  /-- R165: Leaves handler mode and resumes the trapping strand at TPC. -/
  | tret
  /-- R281: Requests the MSI-X message of a vector of the task's interface. -/
  | intr (v : BitVec 6)
  /-- R280: Path word to index words, which ends the task. -/
  | exit
  /-- R287: Reads and/or writes a system register. -/
  | csr (d : BitVec 6) (a : BitVec 6) (i : BitVec 12)
  /-- R283: Reads the task's routing counter. -/
  | cntRd (d : BitVec 6) (a : BitVec 6)
  /-- R283: Reads and clears the task's routing counter. -/
  | cntSnap (d : BitVec 6) (a : BitVec 6)
  /-- R283: Reads a routing counter summed over the group's tasks on the cluster. -/
  | cntRdGrp (d : BitVec 6) (a : BitVec 6)
  /-- R283: Reads and clears a routing counter summed over the group on the cluster. -/
  | cntSnapGrp (d : BitVec 6) (a : BitVec 6)
  /-- R283: Reads an overflow counter of the task's interface at an instance. -/
  | cntOvf (d : BitVec 6) (a : BitVec 6)
  /-- R283: Reads and clears an overflow counter at an instance. -/
  | cntOvfSnap (d : BitVec 6) (a : BitVec 6)
  /-- R285: sd := 64 random bits. -/
  | rand (d : BitVec 6)
  /-- R285: sd := a uniform value below sa. -/
  | randBelow (d : BitVec 6) (a : BitVec 6)
  /-- R286: sd := sb bound to parcel register hk. -/
  | rbind (d : BitVec 6) (k : BitVec 6) (b : BitVec 6)
  /-- R286: sd := sa + sb, keeping sa's binding. -/
  | radd (d : BitVec 6) (a : BitVec 6) (b : BitVec 6)
  /-- R286: sd := the parcel base VA + sa, unbound. -/
  | runbind (d : BitVec 6) (a : BitVec 6)
  /-- R254: sd := sa × sb + sc modulo 2^64. -/
  | madd (d : BitVec 6) (a : BitVec 6) (b : BitVec 6) (c : BitVec 6)
  /-- R255: sd := the bit field of sa at pos and width. -/
  | bitf (d : BitVec 6) (a : BitVec 6) (p : BitVec 6) (w : BitVec 6)
  /-- R136: Header word at which the named strands wait until a flag condition holds. -/
  | hwait (m : BitVec 4) (f : BitVec 4) (c : BitVec 1) (v : BitVec 20)
  /-- R227: Prefix word giving ordering, scope, space, cache and offset mode to the next MEM or XFR word. -/
  | pfx (o : BitVec 3) (s : BitVec 3) (p : BitVec 2) (c : BitVec 3) (f : BitVec 2)
  /-- R300: Sign-extending scalar load. -/
  | ld (t : BitVec 6) (a : BitVec 6) (z : BitVec 2) (i : BitVec 10)
  /-- R300: Zero-extending scalar load. -/
  | ldz (t : BitVec 6) (a : BitVec 6) (z : BitVec 2) (i : BitVec 10)
  /-- R300: Scalar store. -/
  | st (t : BitVec 6) (a : BitVec 6) (z : BitVec 2) (i : BitVec 10)
  /-- R303: Queue load or gather into a load queue. -/
  | ldq (q : BitVec 3) (x : BitVec 1) (z : BitVec 2) (a : BitVec 6) (i : BitVec 12)
  /-- R304: Queue store or scatter from a store queue. -/
  | stq (q : BitVec 3) (x : BitVec 1) (z : BitVec 2) (a : BitVec 6) (i : BitVec 12)
  /-- R306: Atomic read-modify-write returning the old value. -/
  | amo (d : BitVec 6) (a : BitVec 6) (b : BitVec 6) (n : BitVec 4) (z : BitVec 2)
  /-- R307: Compare-and-swap writing a success predicate and the old value. -/
  | cas (d : BitVec 6) (a : BitVec 6) (b : BitVec 6) (k : BitVec 4) (z : BitVec 2)
  /-- R309: Sequentially consistent load on the slot wheel. -/
  | scopLd (d : BitVec 6) (a : BitVec 6) (z : BitVec 2)
  /-- R309: Sequentially consistent store on the slot wheel. -/
  | scopSt (a : BitVec 6) (b : BitVec 6) (z : BitVec 2)
  /-- R309: Sequentially consistent swap, add, and, or or xor on the slot wheel. -/
  | scopRmw (d : BitVec 6) (a : BitVec 6) (b : BitVec 6) (o : BitVec 4) (z : BitVec 2)
  /-- R310: Loads a stored reference and binds it to the base's parcel register. -/
  | ldref (t : BitVec 6) (a : BitVec 6) (i : BitVec 10)
  /-- R310: Stores a reference bound to the same parcel, or null, trapping on escape. -/
  | stref (t : BitVec 6) (a : BitVec 6) (i : BitVec 10)
  /-- R311: Creates an OPEN parcel over PARCEL pages and writes its handle. -/
  | pmake (k : BitVec 6) (a : BitVec 6) (b : BitVec 6) (p : BitVec 4)
  /-- R312: Releases a parcel at domain scope and tries its route list of parcel receive units. -/
  | post (d : BitVec 6) (g : BitVec 3) (k : BitVec 3) (j : BitVec 3) (p : BitVec 4) (f : BitVec 4)
  /-- R313: Claims an ARRIVED parcel by handle or the oldest on the die, as an acquire at domain scope. -/
  | pclaim (k : BitVec 3) (a : BitVec 6) (p : BitVec 4)
  /-- R314: sd := the state code of hk's parcel. -/
  | pctlQuery (d : BitVec 6) (k : BitVec 3)
  /-- R314: Frees an OPEN parcel and clears hk. -/
  | pctlFree (k : BitVec 3)
  /-- R314: hk := sa. -/
  | pctlSet (a : BitVec 6) (k : BitVec 3)
  /-- R314: sd := hk. -/
  | pctlGet (d : BitVec 6) (k : BitVec 3)
  /-- R315: Reads n descriptors from memory and pushes them into mq. -/
  | mpush (a : BitVec 6) (n : BitVec 3)
  /-- R316: Brings the lines of a span into the L2 slice as a hint. -/
  | pfetch (a : BitVec 6) (z : BitVec 2) (i : BitVec 10)
  /-- R317: Drops REMOTE_CACHED lines of a span from the slice. -/
  | cacheDrop (a : BitVec 6) (z : BitVec 2) (i : BitVec 10)
  /-- R317: Makes lines of a span first to be replaced. -/
  | cacheDemote (a : BitVec 6) (z : BitVec 2) (i : BitVec 10)
  /-- R318: sd := the number of ticket entries not FREE. -/
  | tktCnt (d : BitVec 6)
  /-- R318: Stalls until every ticket entry is FREE. -/
  | tktWait
  /-- R318: sd := the status of a ticket entry. -/
  | tktRd (d : BitVec 6) (a : BitVec 6)
  /-- R319: Mints a grant token for a requester module and tenant. -/
  | grantMint (d : BitVec 6) (a : BitVec 6) (b : BitVec 6)
  /-- R319: gk := sa. -/
  | grantSet (a : BitVec 6) (k : BitVec 3)
  /-- R319: sd := gk. -/
  | grantGet (d : BitVec 6) (k : BitVec 3)
  /-- R320: Invalidates a tenant's translations over a range. -/
  | tlbopRng (d : BitVec 6) (a : BitVec 6) (b : BitVec 6)
  /-- R320: Invalidates every translation of a tenant. -/
  | tlbopTen (d : BitVec 6)
  /-- R320: Invalidates every translation of every tenant. -/
  | tlbopAll
  /-- R321: Snapshot-and-clear of one dirty bitmap word. -/
  | dirtySnap (d : BitVec 6) (a : BitVec 6) (b : BitVec 6)
  /-- R321: Reads one dirty bitmap word without clearing. -/
  | dirtyRd (d : BitVec 6) (a : BitVec 6) (b : BitVec 6)
  /-- R330: Lane-wise add, wrapping or saturating. -/
  | vadd (d : BitVec 6) (a : BitVec 6) (b : BitVec 6) (m : BitVec 3) (f : BitVec 3)
  /-- R330: Lane-wise subtract, wrapping or saturating. -/
  | vsub (d : BitVec 6) (a : BitVec 6) (b : BitVec 6) (m : BitVec 3) (f : BitVec 3)
  /-- R330: Lane-wise multiply, low or high half. -/
  | vmul (d : BitVec 6) (a : BitVec 6) (b : BitVec 6) (m : BitVec 3) (f : BitVec 3)
  /-- R331: Lane-wise fused multiply-add with the destination. -/
  | vfma (d : BitVec 6) (a : BitVec 6) (b : BitVec 6) (m : BitVec 3) (f : BitVec 3)
  /-- R330: Lane-wise minimum. -/
  | vmin (d : BitVec 6) (a : BitVec 6) (b : BitVec 6) (m : BitVec 3) (f : BitVec 3)
  /-- R330: Lane-wise maximum. -/
  | vmax (d : BitVec 6) (a : BitVec 6) (b : BitVec 6) (m : BitVec 3) (f : BitVec 3)
  /-- R332: Lane-wise unary operation: neg, abs, not, sqrt, popc or clz. -/
  | vun (d : BitVec 6) (a : BitVec 6) (m : BitVec 3) (f : BitVec 3)
  /-- R333: Lane-wise compare into a mask. -/
  | vcmp (d : BitVec 6) (a : BitVec 6) (b : BitVec 6) (m : BitVec 3) (f : BitVec 3)
  /-- R334: Selects lanes from a or b by a mask. -/
  | vsel (d : BitVec 6) (a : BitVec 6) (b : BitVec 6) (m : BitVec 3)
  /-- R336: Lane-wise bitwise logic. -/
  | vlog (d : BitVec 6) (a : BitVec 6) (b : BitVec 6) (m : BitVec 3) (f : BitVec 3)
  /-- R336: Lane-wise shift or rotate. -/
  | vshf (d : BitVec 6) (a : BitVec 6) (b : BitVec 6) (m : BitVec 3) (f : BitVec 3)
  /-- R337: Converts lanes to a target format under the rounding and overflow modes. -/
  | vcvt (d : BitVec 6) (a : BitVec 6) (t : BitVec 6) (m : BitVec 3) (f : BitVec 3)
  /-- R338: Applies e8m0 block scales to lanes and rounds to the output format. -/
  | vscale (d : BitVec 6) (a : BitVec 6) (b : BitVec 6) (m : BitVec 3) (f : BitVec 3)
  /-- R339: Reduces active lanes in a fixed tree into lane 0. -/
  | vred (d : BitVec 6) (a : BitVec 6) (m : BitVec 3) (f : BitVec 3)
  /-- R339: Inclusive scan of active lanes in lane order. -/
  | vscan (d : BitVec 6) (a : BitVec 6) (m : BitVec 3) (f : BitVec 3)
  /-- R340: Permutes lanes by indices in b. -/
  | vperm (d : BitVec 6) (a : BitVec 6) (b : BitVec 6) (m : BitVec 3) (f : BitVec 3)
  /-- R341: Slides lanes up or down by a count. -/
  | vslide (d : BitVec 6) (a : BitVec 6) (c : BitVec 6) (m : BitVec 3) (f : BitVec 3)
  /-- R340: Broadcasts one lane of a to every active lane. -/
  | vbcast (d : BitVec 6) (a : BitVec 6) (l : BitVec 6) (m : BitVec 3) (h : BitVec 3)
  /-- R343: Copies a register or queue head, whole or by lanes. -/
  | vmov (d : BitVec 6) (a : BitVec 6) (m : BitVec 3)
  /-- R335: Combines two masks with and, or, xor or andn. -/
  | vmskLogic (d : BitVec 6) (a : BitVec 6) (b : BitVec 6) (f : BitVec 2)
  /-- R335: Loads a mask from bits 511:0 of a vector operand. -/
  | vmskLd (d : BitVec 6) (a : BitVec 6)
  /-- R335: Writes a mask into a vector as ui8. -/
  | vmskSt (d : BitVec 6) (a : BitVec 6)
  /-- R335: Writes the number of ones of a mask into lane 0. -/
  | vmskPop (d : BitVec 6) (a : BitVec 6)
  /-- R342: Interleaves or separates lanes of two sources. -/
  | vsh (d : BitVec 6) (a : BitVec 6) (b : BitVec 6) (m : BitVec 3) (f : BitVec 3)
  /-- R343: Copies all bits of a and gives them a format tag. -/
  | vtag (d : BitVec 6) (a : BitVec 6) (t : BitVec 6)
  /-- R344: Reads and converts one accumulator row into a vector. -/
  | vacc (d : BitVec 6) (r : BitVec 6) (k : BitVec 1) (h : BitVec 1) (m : BitVec 3) (f : BitVec 3)
  /-- R346: Adds lane values into the routing counters. -/
  | vhist (a : BitVec 6) (b : BitVec 6) (m : BitVec 3) (f : BitVec 3)
  /-- R347: Correctly rounded reciprocal, reciprocal square root, exp2 or log2 per lane. -/
  | vfn (d : BitVec 6) (a : BitVec 6) (m : BitVec 3) (f : BitVec 3)
  /-- R348: Writes lane indices or active-lane ranks. -/
  | viota (d : BitVec 6) (t : BitVec 6) (m : BitVec 3) (f : BitVec 3)
  /-- R331: Clamps the destination lanes between a and b. -/
  | vclamp (d : BitVec 6) (a : BitVec 6) (b : BitVec 6) (m : BitVec 3)
  /-- R342: Transposes pairs of lane blocks. -/
  | vtrn (d : BitVec 6) (a : BitVec 6) (b : BitVec 6) (m : BitVec 3) (f : BitVec 3)
  /-- R358: One matrix step accumulating exact products into ak. -/
  | mma (k : BitVec 6) (a : BitVec 6) (b : BitVec 6) (u : BitVec 1) (v : BitVec 1) (w : BitVec 1)
  /-- R355: Zeroes every element of an accumulator. -/
  | mzero (k : BitVec 6)
  /-- R355: Zeroes every byte of a tile. -/
  | mzeroT (k : BitVec 6)
  /-- R354: Changes an accumulator's anchor. -/
  | manch (k : BitVec 6) (i : BitVec 10)
  /-- R352: Sets M, N and K. -/
  | mshape (m : BitVec 7) (n : BitVec 7) (k : BitVec 8)
  /-- R353: Sets the formats of scratchpad A and B operands. -/
  | mfmt (a : BitVec 6) (b : BitVec 6)
  /-- R360: Loads tiles from scratchpad, linear or transposed. -/
  | mldt (k : BitVec 6) (t : BitVec 6) (c : BitVec 3) (l : BitVec 2)
  /-- R361: Converts and stores accumulator elements to scratchpad. -/
  | msta (e : BitVec 1) (j : BitVec 4) (t : BitVec 6) (k : BitVec 1) (o : BitVec 1) (r : BitVec 3)
  /-- R363: Writes the residue record, optionally clearing it or injecting a failure. -/
  | mchk (e : BitVec 1) (j : BitVec 4) (i : BitVec 1) (c : BitVec 1)
  /-- R362: Copies one tile to another. -/
  | mmov (d : BitVec 6) (a : BitVec 6)
  /-- R362: Converts a whole accumulator into a tile. -/
  | mmovFmt (d : BitVec 6) (t : BitVec 6) (k : BitVec 1) (o : BitVec 1) (r : BitVec 3)
  /-- R356: Loads a scale array from scratchpad. -/
  | mscl (s : BitVec 1)
  /-- R356: Sets every byte of a scale array to 1.0. -/
  | msclOne (s : BitVec 1)
  /-- R365: Pops xq entries into staging fields. -/
  | xset (d : BitVec 6) (c : BitVec 3)
  /-- R366: Starts a transfer command from the staging fields. -/
  | xgo (e : BitVec 1) (j : BitVec 4) (r : BitVec 2)
  /-- R372: Clears every staging field. -/
  | xclr
  /-- R372: Abandons transfer commands that hold a progress record. -/
  | xclrDrop
  /-- R26: Leaving reset starts the security processor ROM, which verifies the first bank A image and the second stage verifies the remaining images. -/
  | bootStart
  /-- R29: A die's authentication reply arrives; the security processor checks the certificate, signature, position and measurement and returns its own signature. -/
  | dieAuthReply
  /-- R29: The die checks the security processor's signature against its root, and both sides derive the hub-link key by ECDH. -/
  | dieAuthConfirm
  /-- R29: No reply arrives within 100 ms at a step of the exchange, so the exchange fails and the die is fenced. -/
  | dieAuthTimeout
  /-- R26: Step 4 of boot ends for every die; the incarnation is incremented, the capability record and DAUTH registers are written, and the system cores are released. -/
  | trainingComplete
  /-- R59: An SPDM GET_VERSION request in the DOE mailbox is answered with version 1.3. -/
  | getVersion
  /-- R59: An SPDM GET_CAPABILITIES request is answered with the certificate, challenge and signed measurement capabilities. -/
  | getCapabilities
  /-- R59: An SPDM NEGOTIATE_ALGORITHMS request settles ECDSA P-384 and SHA-512, or receives ERROR. -/
  | negotiateAlgorithms
  /-- R59: An SPDM GET_DIGESTS request is answered for certificate slot 0 only. -/
  | getDigests
  /-- R59: An SPDM GET_CERTIFICATE request returns the attestation key chain of slot 0. -/
  | getCertificate
  /-- R59: An SPDM CHALLENGE request is answered with a response signed by the attestation key. -/
  | challenge
  /-- R59: An SPDM GET_MEASUREMENTS request returns the image, capability record and DAUTH blocks with the nonce, signed as the attestation report. -/
  | getMeasurements
  /-- R59: Any other SPDM request is answered with an ERROR response of code UnsupportedRequest. -/
  | unsupportedRequest
  /-- R36: A router beyond the source takes a packet and sends it minimally toward its intermediate or destination, clearing the intermediate on arrival there, or drops it if the port is untrained. -/
  | packetForward
  /-- R41: A data flit arrives; it is accepted only if its tag verifies and its seq is next, its ack and credits are applied, and otherwise it is discarded and answered with a nack. -/
  | dataFlit
  /-- R39: An idle control flit arrives, carrying ack and credits. -/
  | idle
  /-- R41: A nack control flit arrives, and the transmitter resends every buffered flit from the one after ack. -/
  | nack
  /-- R46: A join control flit carrying a module number and incarnation arrives and is reported to the module operating system. -/
  | join
  /-- R44: A retrain control flit arrives and starts a retrain of the link. -/
  | retrain
  /-- R41: 2 µs pass with unacknowledged flits and no progress in ack, so the transmitter resends every buffered flit in order. -/
  | replayTimeout
  /-- R44: Sixteen consecutive discarded flits, or four transmissions of one flit under one phase, start a retrain that reruns the ECDH exchange. -/
  | linkRetrain
  /-- R44: The retrain exchange ends; keys restart at generation 0 and replay resumes, or on failure the port stays untrained. -/
  | retrainExchangeDone
  /-- R43: After 2^32 data flits, after 60 s, or on request, the transmitter moves to the next key generation and the other phase. -/
  | keySwitch
  /-- R49: A READ request packet arrives at ingress and is checked, performed at the window address, ticketed or refused. -/
  | read
  /-- R49: A WRITE request packet arrives and is checked and performed, answered only after it is applied on every die of the owner. -/
  | write
  /-- R194: An AMO request packet arrives and its read-modify-write is performed at the owner. -/
  | amoRequest
  /-- R307: A CAS request packet arrives and its compare-and-swap is performed at the owner. -/
  | casRequest
  /-- R177: A parcel try arrives at a parcel receive unit and is decided with token, prulmax, pool and span checks. -/
  | ptry
  /-- R178: A delivery data packet is written into the reserved span. -/
  | pdata
  /-- R178: The acknowledgement arrives at the sender, which removes its entry and increments the post's flag. -/
  | pdone
  /-- R156: A response arrives at the requester; it returns the slot and delivers data, opens a ticket entry, or ends the request with a retry, grant error or moved status. -/
  | resp
  /-- R157: A replay notice arrives and moves the matching ticket entry to replay, or raises FAILED or PEER_RESET. -/
  | notice
  /-- R47: A request slot is still occupied after FTMO, so its request completes with PEER_RESET and the slot returns. -/
  | requestTimeout
  /-- R154: 1 µs after a retry answer, the request is sent again as a new request. -/
  | retryResend
  /-- R156: Every older remote access to its line completes, so a SHADOW entry is sent and becomes REPLAY. -/
  | shadowRelease
  /-- R45: A write changing PEERINCn completes only after every ticket and slot held against module n has completed with PEER_RESET. -/
  | peerincWrite
  /-- R50: A grant window write applies to requests that reach check 1 after it completes. -/
  | gwinWrite
  /-- R50: The ingress key is replaced at request, invalidating every token minted before it. -/
  | ingressKeyReplace
  /-- R54: A host write to a launch window is taken as a launch record or dropped. -/
  | launchWrite
  /-- R53: A write to CQCTL sets the area's fields, resetting CQTAIL when enable goes from 0 to 1. -/
  | cqctlWrite
  /-- R53: A read of VISTAT returns the dropped and failed counts and clears them. -/
  | vistatRead
  /-- R55: A host read through BAR2 is performed in the tenant's space, or completes with Completer Abort on an unresolvable fault. -/
  | bar2Read
  /-- R55: A host write through BAR2 is performed in the tenant's space, or dropped on an unresolvable fault. -/
  | bar2Write
  /-- R58: A function level reset kills the interface's tasks, releases its reservations and places, and resets CQCTL and CQBASE. -/
  | functionLevelReset
  /-- R52: A CXL port link goes down, so its cxl field reads 0 and later accesses to its window fault. -/
  | cxlLinkDown
  /-- R64: A pre-copy round snapshots and clears the whole range and sends each reported granule. -/
  | precopyRound
  /-- R63: An encrypted granule message arrives at the destination and is written if its tag verifies, or reported for a resend. -/
  | granuleMessage
  /-- R64: A round ends, and the job starts another round or enters STOPPING. -/
  | precopyRoundEnd
  /-- R64: Every group of the interface has ended or stopped, so the job enters FINAL, or FAILED if a group can neither drain nor checkpoint. -/
  | stoppingComplete
  /-- R64: The destination reports restore complete, so the source writes kind 6 entries and frees the tenant. -/
  | restoreCompleteReport
  /-- R64: The destination reports restore failed, so the source restores its stopped groups and raises vector 63. -/
  | restoreFailedReport
  /-- R66: The Chanter decides a launch by the ordered checks, placing and pre-empting on admission or refusing it with a reason. -/
  | launchDecision
  /-- R68: A die's resource reporter sends core state to the Chanter's mirror. -/
  | resourceReport
  /-- R73: A drained victim has not ended when CHCFG.drain has passed, so it is treated as checkpoint if eligible. -/
  | drainTimeout
  /-- R74: A task's watchdog count reaches WDOG, killing the group if pre-emption is pending and otherwise trapping with WATCHDOG. -/
  | watchdogExpiry
  /-- R79: Every save slot of a group is written, so the Chanter locks them in CHLOCK and interrupts the system cores. -/
  | saveComplete
  /-- R75: Once a placed bank is freed, the loader writes the text into its plane, sets the start state and sends the load token. -/
  | textPlaneFill
  /-- R75: A bank holding its load token goes live at the first ac boundary with empty command windows and queues. -/
  | bankLive
  /-- R76: Every engine of a task has reached index words with its commands complete, so the task ends, and the group ends when all its tasks have ended. -/
  | taskEnd
  /-- R77: A bank's scrub completes, and its reporter reports it idle. -/
  | scrubComplete
  /-- R80: A write of go to CHRST starts a restore with the header, layout, sequence, capability and placement checks. -/
  | chrstGo
  /-- R80: Every record has been read into its bank; sections and tags are checked and the banks go live, or the group fails with kind 5. -/
  | restoreReadComplete
  /-- R88: A try at a service instance is decided in a decision cycle by offered places, quotas, protected places and the reserve. -/
  | serviceTry
  /-- R93: In a decision cycle, each free unheld place is held for the oldest holder lacking places, starting its hold window when complete. -/
  | offerStep
  /-- R92: A hold window ends without a try, so the held places are freed and a lapse is counted. -/
  | holdWindowExpiry
  /-- R83: A job is still running when E has passed since admission, so the service ends it and frees its place. -/
  | serviceEExpiry
  /-- R176: The destination has released the span or its incarnation changed, so the sender's entry returns to OPEN with bounces + 1 and the flag rises. -/
  | bounceReopen
  /-- R275: A shared-engine job ends; its writes are performed, then status, counter and flag are written. -/
  | jobComplete
  /-- R96: A quota write is refused whole if the min sum or limits are exceeded, setting ADMCFG.qrej. -/
  | admqWrite
  /-- R97: A read of ADMDAT returns the counter that ADMSEL selects and clears it when snap is set. -/
  | admdatRead
  /-- R103: A write to a ring slot table takes effect at the next frame boundary. -/
  | rslotWrite
  /-- R103: At a frame boundary, pending ring slot table changes take effect together. -/
  | frameBoundary
  /-- R104: A core's needs change, so the slot allocator gives or returns ring positions and fills shortfalls. -/
  | slotAllocatorRequest
  /-- R106: A memory-port table write takes effect from the first round that begins after it. -/
  | mptabWrite
  /-- R19: A quad mode write takes each field separately, keeps refused fields, and completes after in-flight accesses. -/
  | qmodeWrite
  /-- R109: Every 10 µs the cluster controller computes the stall ratio and decides to lower, raise or stay. -/
  | powerSample
  /-- R110: A voltage step settles after 2 µs, and the controller moves on to FUP, or back to STEADY after VDN. -/
  | voltageStepDone
  /-- R108: The loop relocks after at most 200 ns and the cluster clock resumes at the new frequency. -/
  | frequencyStepDone
  /-- R113: The voltage falls more than 50 mV below target, so the clock is stretched, in-flight steps are marked suspect and droops is counted. -/
  | droop
  /-- R113: The 128 stretched ac of a droop end. -/
  | stretchEnd
  /-- R115: A PCLUS write sets fmax, trim and auto, and lowering fmax makes the cluster step down each sample. -/
  | pclusWrite
  /-- R4: A read of PCLUS returns and clears the droops and vrefused counts. -/
  | pclusRead
  /-- R115: A PWRCFG write is refused whole when lo is at least hi. -/
  | pwrcfgWrite
  /-- R117: A write of sync makes the channels load the free bitmap, zeroing granules returned to use. -/
  | refcfgSync
  /-- R117: The channels finish loading the bitmap and sync reads 0. -/
  | bitmapLoaded
  /-- R116: A bank's refresh interval expires and the bank is refreshed, unless its rows are skipped as free. -/
  | refresh
  /-- R116: A bank's temperature crosses a threshold, which changes its interval and above 105 °C halves the port slots and interrupts. -/
  | temperatureEvent
  /-- R121: A vector, matrix or transfer strand at a path word pops its path FIFO and continues at that index. -/
  | pathFollow
  /-- R124: A local fault stays unanswered for FSWITCH ac, so the bank is switched out. -/
  | bankSwitchOut
  /-- R127: A task makes no progress for 256 ac with nothing outstanding, so it traps with QUEUE. -/
  | queueTrap
  /-- R125: A load's data returns and fills its scalar or load-queue entry. -/
  | loadDataArrival
  /-- R136: A waiting strand's header condition holds at the start of an ac, and the strand passes the header. -/
  | headerPass
  /-- R249: All four strands have reached a rendezvous word, so the control strand executes it and every strand passes. -/
  | rendezvous
  /-- R128: A matrix command begins once the earlier command has completed and the range checker releases it. -/
  | matrixCommandBegin
  /-- R358: A matrix command finishes, its residue check is made, and its results and flags are written. -/
  | matrixCommandComplete
  /-- R328: A vector word completes, writing its destination, pushing and raising its flags. -/
  | vectorWordComplete
  /-- R368: A transfer granule is translated and started in index order, within the limit in flight. -/
  | transferGranuleStart
  /-- R149: A transfer granule completes and updates the command's progress. -/
  | transferGranuleComplete
  /-- R143: A MIGRATE TLB entry's access count reaches 2^(mclass+4), adding a migrate-request entry to the collector. -/
  | migrateRequest
  /-- R150: A batch reaches 64 entries or 4 µs, closes, and is sorted and merged into ranges. -/
  | batchClose
  /-- R151: A closed batch is written into a free fault-buffer slot, FCTAIL advances and the system cores are interrupted. -/
  | batchDeliver
  /-- R152: A write to FCHEAD frees slots, so waiting batches are delivered within 1 µs. -/
  | fcheadWrite
  /-- R152: A write to FCBUF sets the buffer, and enabling it lets waiting batches be delivered. -/
  | fcbufWrite
  /-- R153: An FCANS answer of retry resumes every faulter of the range. -/
  | fcansRetry
  /-- R153: An FCANS answer of ACCESS makes the range's faulters trap with ACCESS and sends FAILED notices. -/
  | fcansAccess
  /-- R163: Once the bank's issued commands have completed, TCAUSE, TVAL and TPC are written and the bank enters handler mode or the group is killed. -/
  | handlerEntry
  /-- R190: A write, or a module release once it is ready by vector clock, is applied on another die. -/
  | writeApply
  /-- R196: At its bank's next wheel position, a ready scop is serialised, applied on every die and stamped. -/
  | scopPerform
  /-- R268: Every member has arrived, so the barrier instance completes, releasing blocking members and incrementing split flags. -/
  | barrierComplete
  /-- R281: Once earlier accesses are performed at module scope, the MSI-X message of an intr is sent or merged. -/
  | interruptMessage
  /-- R4: A write to a register with no row of its own sets its fields under its access codes. -/
  | registerWrite
  /-- R223: The owning strand reaches a tag-7 word, an unassigned opcode, or a word whose reserved field, function or register code is not allowed, and traps precisely with ILLEGAL. -/
  | illegalWord
  /-- R31: A fabric port trains with its peer after boot, running the ECDH exchange and starting at key generation 0 on the highest common revision. -/
  | linkTraining
  /-- R64: The module operating system starts a pre-copy job for one tenant; the session key is agreed and the job enters ROUNDS. -/
  | precopyJobStart
  /-- R105: In each port slot a memory port serves the oldest queued access of the tenant named by that slot's table entry, or of any tenant, and new MPTAB entries take effect when a round begins. -/
  | portSlot
deriving DecidableEq, Repr

end Sys2Proof
end

