-- ==== Sys2Proof/Decode.lean ====
section
/-! DEFINITION. The decoder and the encoder of the instruction words, both written from the encodings of
spec/opcode_table.json and chapter 13 (R222-R230). `decodeWord` answers `none` for a word that no row
of the table matches; the strand that owns such a word raises ILLEGAL (R223). A word that matches a row
decodes to that row with its operand fields as raw bits: whether the codes are allowed is checked when
the word issues (R223), by `Instr.legal`. -/

namespace Sys2Proof

/-- The field of `n` bits that starts at bit `lo` of word `w`. -/
def fieldAt (n w lo : Nat) : BitVec n := BitVec.ofNat n (w / 2 ^ lo)

/-- The tag of a word (R222). -/
def tagOf (w : Nat) : Nat := bitsOf w 31 29

/-- The words of tag 0 (CTL), by opcode (R230). -/
def decodeCtl (w : Nat) : Option Instr :=
  match bitsOf w 28 24 with
  | 0 =>
    if bitsOf w 11 0 = 25 then some (.clz (fieldAt 6 w 18) (fieldAt 6 w 12))
    else if bitsOf w 11 0 = 26 then some (.ctz (fieldAt 6 w 18) (fieldAt 6 w 12))
    else if bitsOf w 11 0 = 27 then some (.popc (fieldAt 6 w 18) (fieldAt 6 w 12))
    else if bitsOf w 11 0 = 28 then some (.bswap (fieldAt 6 w 18) (fieldAt 6 w 12))
    else if bitsOf w 5 0 = 0 then some (.add (fieldAt 6 w 18) (fieldAt 6 w 12) (fieldAt 6 w 6))
    else if bitsOf w 5 0 = 1 then some (.sub (fieldAt 6 w 18) (fieldAt 6 w 12) (fieldAt 6 w 6))
    else if bitsOf w 5 0 = 2 then some (.and (fieldAt 6 w 18) (fieldAt 6 w 12) (fieldAt 6 w 6))
    else if bitsOf w 5 0 = 3 then some (.or (fieldAt 6 w 18) (fieldAt 6 w 12) (fieldAt 6 w 6))
    else if bitsOf w 5 0 = 4 then some (.xor (fieldAt 6 w 18) (fieldAt 6 w 12) (fieldAt 6 w 6))
    else if bitsOf w 5 0 = 5 then some (.andn (fieldAt 6 w 18) (fieldAt 6 w 12) (fieldAt 6 w 6))
    else if bitsOf w 5 0 = 6 then some (.orn (fieldAt 6 w 18) (fieldAt 6 w 12) (fieldAt 6 w 6))
    else if bitsOf w 5 0 = 7 then some (.sll (fieldAt 6 w 18) (fieldAt 6 w 12) (fieldAt 6 w 6))
    else if bitsOf w 5 0 = 8 then some (.srl (fieldAt 6 w 18) (fieldAt 6 w 12) (fieldAt 6 w 6))
    else if bitsOf w 5 0 = 9 then some (.sra (fieldAt 6 w 18) (fieldAt 6 w 12) (fieldAt 6 w 6))
    else if bitsOf w 5 0 = 10 then some (.rol (fieldAt 6 w 18) (fieldAt 6 w 12) (fieldAt 6 w 6))
    else if bitsOf w 5 0 = 11 then some (.ror (fieldAt 6 w 18) (fieldAt 6 w 12) (fieldAt 6 w 6))
    else if bitsOf w 5 0 = 12 then some (.mul (fieldAt 6 w 18) (fieldAt 6 w 12) (fieldAt 6 w 6))
    else if bitsOf w 5 0 = 13 then some (.mulh (fieldAt 6 w 18) (fieldAt 6 w 12) (fieldAt 6 w 6))
    else if bitsOf w 5 0 = 14 then some (.mulhu (fieldAt 6 w 18) (fieldAt 6 w 12) (fieldAt 6 w 6))
    else if bitsOf w 5 0 = 15 then some (.div (fieldAt 6 w 18) (fieldAt 6 w 12) (fieldAt 6 w 6))
    else if bitsOf w 5 0 = 16 then some (.divu (fieldAt 6 w 18) (fieldAt 6 w 12) (fieldAt 6 w 6))
    else if bitsOf w 5 0 = 17 then some (.rem (fieldAt 6 w 18) (fieldAt 6 w 12) (fieldAt 6 w 6))
    else if bitsOf w 5 0 = 18 then some (.remu (fieldAt 6 w 18) (fieldAt 6 w 12) (fieldAt 6 w 6))
    else if bitsOf w 5 0 = 19 then some (.min (fieldAt 6 w 18) (fieldAt 6 w 12) (fieldAt 6 w 6))
    else if bitsOf w 5 0 = 20 then some (.max (fieldAt 6 w 18) (fieldAt 6 w 12) (fieldAt 6 w 6))
    else if bitsOf w 5 0 = 21 then some (.minu (fieldAt 6 w 18) (fieldAt 6 w 12) (fieldAt 6 w 6))
    else if bitsOf w 5 0 = 22 then some (.maxu (fieldAt 6 w 18) (fieldAt 6 w 12) (fieldAt 6 w 6))
    else if bitsOf w 5 0 = 23 then some (.adds (fieldAt 6 w 18) (fieldAt 6 w 12) (fieldAt 6 w 6))
    else if bitsOf w 5 0 = 24 then some (.subs (fieldAt 6 w 18) (fieldAt 6 w 12) (fieldAt 6 w 6))
    else none
  | 1 =>
    some (.addi (fieldAt 6 w 18) (fieldAt 6 w 12) (fieldAt 12 w 0))
  | 2 =>
    some (.andi (fieldAt 6 w 18) (fieldAt 6 w 12) (fieldAt 12 w 0))
  | 3 =>
    some (.ori (fieldAt 6 w 18) (fieldAt 6 w 12) (fieldAt 12 w 0))
  | 4 =>
    some (.xori (fieldAt 6 w 18) (fieldAt 6 w 12) (fieldAt 12 w 0))
  | 5 =>
    if bitsOf w 7 6 = 0 then some (.shi (fieldAt 6 w 18) (fieldAt 6 w 12) (fieldAt 4 w 8) (fieldAt 6 w 0))
    else none
  | 6 =>
    some (.movw (fieldAt 6 w 18) (fieldAt 2 w 16) (fieldAt 16 w 0))
  | 7 =>
    some (.movk (fieldAt 6 w 18) (fieldAt 2 w 16) (fieldAt 16 w 0))
  | 8 =>
    some (.cmp (fieldAt 4 w 20) (fieldAt 6 w 14) (fieldAt 6 w 8) (fieldAt 4 w 4) (fieldAt 4 w 0))
  | 9 =>
    some (.cmpi (fieldAt 4 w 20) (fieldAt 6 w 14) (fieldAt 4 w 10) (fieldAt 10 w 0))
  | 10 =>
    some (.plog (fieldAt 4 w 20) (fieldAt 6 w 14) (fieldAt 6 w 8) (fieldAt 4 w 4) (fieldAt 4 w 0))
  | 11 =>
    if bitsOf w 5 5 = 0 then some (.sel (fieldAt 6 w 18) (fieldAt 6 w 12) (fieldAt 6 w 6) (fieldAt 1 w 4) (fieldAt 4 w 0))
    else none
  | 12 =>
    some (.br (fieldAt 4 w 20) (fieldAt 1 w 19) (fieldAt 19 w 0))
  | 13 =>
    some (.jal (fieldAt 4 w 20) (fieldAt 1 w 19) (fieldAt 19 w 0))
  | 14 =>
    some (.jalr (fieldAt 6 w 18) (fieldAt 6 w 12) (fieldAt 12 w 0))
  | 15 =>
    if bitsOf w 11 0 = 0 ∧ bitsOf w 23 18 = 0 then some (.qmovCq (fieldAt 6 w 12))
    else if bitsOf w 17 0 = 1 then some (.qmovVq (fieldAt 6 w 18))
    else if bitsOf w 11 0 = 2 ∧ bitsOf w 23 18 = 0 then some (.qmovXq (fieldAt 6 w 12))
    else if bitsOf w 5 0 = 3 ∧ bitsOf w 23 18 = 0 then some (.qmovMq (fieldAt 6 w 12) (fieldAt 6 w 6))
    else none
  | 16 =>
    if bitsOf w 2 0 = 0 then some (.engreq (fieldAt 6 w 18) (fieldAt 6 w 12) (fieldAt 6 w 6) (fieldAt 3 w 3))
    else none
  | 17 =>
    if bitsOf w 5 0 = 2 ∧ bitsOf w 23 12 = 0 then some (.engctlUnhold (fieldAt 6 w 6))
    else if bitsOf w 11 0 = 0 then some (.engctlQuery (fieldAt 6 w 18) (fieldAt 6 w 12))
    else if bitsOf w 11 0 = 1 then some (.engctlAbandon (fieldAt 6 w 18) (fieldAt 6 w 12))
    else none
  | 18 =>
    if bitsOf w 23 0 = 8 then some (.pwrRel)
    else if bitsOf w 17 3 = 0 then some (.pwrAcq (fieldAt 6 w 18) (fieldAt 3 w 0))
    else none
  | 19 =>
    if bitsOf w 23 4 = 2 then some (.flagInc (fieldAt 4 w 0))
    else if bitsOf w 17 4 = 0 then some (.flagRd (fieldAt 6 w 18) (fieldAt 4 w 0))
    else if bitsOf w 11 4 = 1 ∧ bitsOf w 23 18 = 0 then some (.flagWr (fieldAt 6 w 12) (fieldAt 4 w 0))
    else if bitsOf w 11 4 = 3 ∧ bitsOf w 23 18 = 0 then some (.flagAdd (fieldAt 6 w 12) (fieldAt 4 w 0))
    else none
  | 20 =>
    if bitsOf w 3 3 = 0 ∧ bitsOf w 23 8 = 0 then some (.bar (fieldAt 4 w 4) (fieldAt 3 w 0))
    else if bitsOf w 3 3 = 1 ∧ bitsOf w 17 8 = 0 then some (.barSplit (fieldAt 6 w 18) (fieldAt 4 w 4) (fieldAt 3 w 0))
    else none
  | 21 =>
    if bitsOf w 23 5 = 0 then some (.fence (fieldAt 3 w 2) (fieldAt 2 w 0))
    else none
  | 22 =>
    if bitsOf w 5 0 = 0 then some (.launch (fieldAt 6 w 18) (fieldAt 6 w 12) (fieldAt 6 w 6))
    else none
  | 23 =>
    if bitsOf w 23 0 = 0 then some (.yield)
    else if bitsOf w 23 0 = 262144 then some (.trapfence)
    else if bitsOf w 23 0 = 786432 then some (.tret)
    else if bitsOf w 23 0 = 1310720 then some (.exit)
    else if bitsOf w 23 6 = 16384 then some (.intr (fieldAt 6 w 0))
    else if bitsOf w 23 18 = 2 then some (.trap (fieldAt 6 w 12) (fieldAt 12 w 0))
    else none
  | 24 =>
    some (.csr (fieldAt 6 w 18) (fieldAt 6 w 12) (fieldAt 12 w 0))
  | 25 =>
    if bitsOf w 11 0 = 0 then some (.cntRd (fieldAt 6 w 18) (fieldAt 6 w 12))
    else if bitsOf w 11 0 = 1 then some (.cntSnap (fieldAt 6 w 18) (fieldAt 6 w 12))
    else if bitsOf w 11 0 = 2 then some (.cntRdGrp (fieldAt 6 w 18) (fieldAt 6 w 12))
    else if bitsOf w 11 0 = 3 then some (.cntSnapGrp (fieldAt 6 w 18) (fieldAt 6 w 12))
    else if bitsOf w 11 0 = 4 then some (.cntOvf (fieldAt 6 w 18) (fieldAt 6 w 12))
    else if bitsOf w 11 0 = 5 then some (.cntOvfSnap (fieldAt 6 w 18) (fieldAt 6 w 12))
    else none
  | 26 =>
    if bitsOf w 17 0 = 0 then some (.rand (fieldAt 6 w 18))
    else if bitsOf w 11 0 = 1 then some (.randBelow (fieldAt 6 w 18) (fieldAt 6 w 12))
    else none
  | 27 =>
    if bitsOf w 11 0 = 2 then some (.runbind (fieldAt 6 w 18) (fieldAt 6 w 12))
    else if bitsOf w 5 0 = 0 then some (.rbind (fieldAt 6 w 18) (fieldAt 6 w 12) (fieldAt 6 w 6))
    else if bitsOf w 5 0 = 1 then some (.radd (fieldAt 6 w 18) (fieldAt 6 w 12) (fieldAt 6 w 6))
    else none
  | 28 =>
    some (.madd (fieldAt 6 w 18) (fieldAt 6 w 12) (fieldAt 6 w 6) (fieldAt 6 w 0))
  | 29 =>
    some (.bitf (fieldAt 6 w 18) (fieldAt 6 w 12) (fieldAt 6 w 6) (fieldAt 6 w 0))
  | _ => none

/-- The words of tag 1 (MEM), by opcode (R230). -/
def decodeMem (w : Nat) : Option Instr :=
  match bitsOf w 28 24 with
  | 0 =>
    some (.ld (fieldAt 6 w 18) (fieldAt 6 w 12) (fieldAt 2 w 10) (fieldAt 10 w 0))
  | 1 =>
    some (.ldz (fieldAt 6 w 18) (fieldAt 6 w 12) (fieldAt 2 w 10) (fieldAt 10 w 0))
  | 2 =>
    some (.st (fieldAt 6 w 18) (fieldAt 6 w 12) (fieldAt 2 w 10) (fieldAt 10 w 0))
  | 3 =>
    some (.ldq (fieldAt 3 w 21) (fieldAt 1 w 20) (fieldAt 2 w 18) (fieldAt 6 w 12) (fieldAt 12 w 0))
  | 4 =>
    some (.stq (fieldAt 3 w 21) (fieldAt 1 w 20) (fieldAt 2 w 18) (fieldAt 6 w 12) (fieldAt 12 w 0))
  | 5 =>
    some (.amo (fieldAt 6 w 18) (fieldAt 6 w 12) (fieldAt 6 w 6) (fieldAt 4 w 2) (fieldAt 2 w 0))
  | 6 =>
    some (.cas (fieldAt 6 w 18) (fieldAt 6 w 12) (fieldAt 6 w 6) (fieldAt 4 w 2) (fieldAt 2 w 0))
  | 7 =>
    if bitsOf w 11 2 = 0 then some (.scopLd (fieldAt 6 w 18) (fieldAt 6 w 12) (fieldAt 2 w 0))
    else if bitsOf w 5 2 = 1 ∧ bitsOf w 23 18 = 0 then some (.scopSt (fieldAt 6 w 12) (fieldAt 6 w 6) (fieldAt 2 w 0))
    else some (.scopRmw (fieldAt 6 w 18) (fieldAt 6 w 12) (fieldAt 6 w 6) (fieldAt 4 w 2) (fieldAt 2 w 0))
  | 8 =>
    if bitsOf w 11 10 = 3 then some (.ldref (fieldAt 6 w 18) (fieldAt 6 w 12) (fieldAt 10 w 0))
    else none
  | 9 =>
    if bitsOf w 11 10 = 3 then some (.stref (fieldAt 6 w 18) (fieldAt 6 w 12) (fieldAt 10 w 0))
    else none
  | 10 =>
    if bitsOf w 5 4 = 0 then some (.pmake (fieldAt 6 w 18) (fieldAt 6 w 12) (fieldAt 6 w 6) (fieldAt 4 w 0))
    else none
  | 11 =>
    if bitsOf w 0 0 = 0 then some (.post (fieldAt 6 w 18) (fieldAt 3 w 15) (fieldAt 3 w 12) (fieldAt 3 w 9) (fieldAt 4 w 5) (fieldAt 4 w 1))
    else none
  | 12 =>
    if bitsOf w 11 4 = 0 ∧ bitsOf w 23 21 = 0 then some (.pclaim (fieldAt 3 w 18) (fieldAt 6 w 12) (fieldAt 4 w 0))
    else none
  | 13 =>
    if bitsOf w 5 0 = 1 ∧ bitsOf w 23 9 = 0 then some (.pctlFree (fieldAt 3 w 6))
    else if bitsOf w 5 0 = 0 ∧ bitsOf w 17 9 = 0 then some (.pctlQuery (fieldAt 6 w 18) (fieldAt 3 w 6))
    else if bitsOf w 5 0 = 2 ∧ bitsOf w 11 9 = 0 ∧ bitsOf w 23 18 = 0 then some (.pctlSet (fieldAt 6 w 12) (fieldAt 3 w 6))
    else if bitsOf w 5 0 = 3 ∧ bitsOf w 17 9 = 0 then some (.pctlGet (fieldAt 6 w 18) (fieldAt 3 w 6))
    else none
  | 14 =>
    if bitsOf w 11 3 = 0 ∧ bitsOf w 23 18 = 0 then some (.mpush (fieldAt 6 w 12) (fieldAt 3 w 0))
    else none
  | 15 =>
    if bitsOf w 23 18 = 0 then some (.pfetch (fieldAt 6 w 12) (fieldAt 2 w 10) (fieldAt 10 w 0))
    else none
  | 16 =>
    if bitsOf w 23 18 = 0 then some (.cacheDrop (fieldAt 6 w 12) (fieldAt 2 w 10) (fieldAt 10 w 0))
    else if bitsOf w 23 18 = 1 then some (.cacheDemote (fieldAt 6 w 12) (fieldAt 2 w 10) (fieldAt 10 w 0))
    else none
  | 17 =>
    if bitsOf w 23 0 = 1 then some (.tktWait)
    else if bitsOf w 17 0 = 0 then some (.tktCnt (fieldAt 6 w 18))
    else if bitsOf w 11 0 = 2 then some (.tktRd (fieldAt 6 w 18) (fieldAt 6 w 12))
    else none
  | 18 =>
    if bitsOf w 5 0 = 1 ∧ bitsOf w 11 9 = 0 ∧ bitsOf w 23 18 = 0 then some (.grantSet (fieldAt 6 w 12) (fieldAt 3 w 6))
    else if bitsOf w 5 0 = 2 ∧ bitsOf w 17 9 = 0 then some (.grantGet (fieldAt 6 w 18) (fieldAt 3 w 6))
    else if bitsOf w 5 0 = 0 then some (.grantMint (fieldAt 6 w 18) (fieldAt 6 w 12) (fieldAt 6 w 6))
    else none
  | 19 =>
    if bitsOf w 23 0 = 2 then some (.tlbopAll)
    else if bitsOf w 17 0 = 1 then some (.tlbopTen (fieldAt 6 w 18))
    else if bitsOf w 5 0 = 0 then some (.tlbopRng (fieldAt 6 w 18) (fieldAt 6 w 12) (fieldAt 6 w 6))
    else none
  | 20 =>
    if bitsOf w 5 0 = 0 then some (.dirtySnap (fieldAt 6 w 18) (fieldAt 6 w 12) (fieldAt 6 w 6))
    else if bitsOf w 5 0 = 1 then some (.dirtyRd (fieldAt 6 w 18) (fieldAt 6 w 12) (fieldAt 6 w 6))
    else none
  | _ => none

/-- The words of tag 2 (VEC), by opcode (R230). -/
def decodeVec (w : Nat) : Option Instr :=
  match bitsOf w 28 24 with
  | 0 =>
    some (.vadd (fieldAt 6 w 18) (fieldAt 6 w 12) (fieldAt 6 w 6) (fieldAt 3 w 3) (fieldAt 3 w 0))
  | 1 =>
    some (.vsub (fieldAt 6 w 18) (fieldAt 6 w 12) (fieldAt 6 w 6) (fieldAt 3 w 3) (fieldAt 3 w 0))
  | 2 =>
    some (.vmul (fieldAt 6 w 18) (fieldAt 6 w 12) (fieldAt 6 w 6) (fieldAt 3 w 3) (fieldAt 3 w 0))
  | 3 =>
    some (.vfma (fieldAt 6 w 18) (fieldAt 6 w 12) (fieldAt 6 w 6) (fieldAt 3 w 3) (fieldAt 3 w 0))
  | 4 =>
    some (.vmin (fieldAt 6 w 18) (fieldAt 6 w 12) (fieldAt 6 w 6) (fieldAt 3 w 3) (fieldAt 3 w 0))
  | 5 =>
    some (.vmax (fieldAt 6 w 18) (fieldAt 6 w 12) (fieldAt 6 w 6) (fieldAt 3 w 3) (fieldAt 3 w 0))
  | 6 =>
    if bitsOf w 11 6 = 0 then some (.vun (fieldAt 6 w 18) (fieldAt 6 w 12) (fieldAt 3 w 3) (fieldAt 3 w 0))
    else none
  | 7 =>
    some (.vcmp (fieldAt 6 w 18) (fieldAt 6 w 12) (fieldAt 6 w 6) (fieldAt 3 w 3) (fieldAt 3 w 0))
  | 8 =>
    if bitsOf w 2 0 = 0 then some (.vsel (fieldAt 6 w 18) (fieldAt 6 w 12) (fieldAt 6 w 6) (fieldAt 3 w 3))
    else none
  | 9 =>
    some (.vlog (fieldAt 6 w 18) (fieldAt 6 w 12) (fieldAt 6 w 6) (fieldAt 3 w 3) (fieldAt 3 w 0))
  | 10 =>
    some (.vshf (fieldAt 6 w 18) (fieldAt 6 w 12) (fieldAt 6 w 6) (fieldAt 3 w 3) (fieldAt 3 w 0))
  | 11 =>
    some (.vcvt (fieldAt 6 w 18) (fieldAt 6 w 12) (fieldAt 6 w 6) (fieldAt 3 w 3) (fieldAt 3 w 0))
  | 12 =>
    some (.vscale (fieldAt 6 w 18) (fieldAt 6 w 12) (fieldAt 6 w 6) (fieldAt 3 w 3) (fieldAt 3 w 0))
  | 13 =>
    if bitsOf w 11 6 = 0 then some (.vred (fieldAt 6 w 18) (fieldAt 6 w 12) (fieldAt 3 w 3) (fieldAt 3 w 0))
    else none
  | 14 =>
    if bitsOf w 11 6 = 0 then some (.vscan (fieldAt 6 w 18) (fieldAt 6 w 12) (fieldAt 3 w 3) (fieldAt 3 w 0))
    else none
  | 15 =>
    some (.vperm (fieldAt 6 w 18) (fieldAt 6 w 12) (fieldAt 6 w 6) (fieldAt 3 w 3) (fieldAt 3 w 0))
  | 16 =>
    some (.vslide (fieldAt 6 w 18) (fieldAt 6 w 12) (fieldAt 6 w 6) (fieldAt 3 w 3) (fieldAt 3 w 0))
  | 17 =>
    some (.vbcast (fieldAt 6 w 18) (fieldAt 6 w 12) (fieldAt 6 w 6) (fieldAt 3 w 3) (fieldAt 3 w 0))
  | 18 =>
    if bitsOf w 2 0 = 0 ∧ bitsOf w 11 6 = 0 then some (.vmov (fieldAt 6 w 18) (fieldAt 6 w 12) (fieldAt 3 w 3))
    else none
  | 19 =>
    if bitsOf w 11 0 = 4 then some (.vmskLd (fieldAt 6 w 18) (fieldAt 6 w 12))
    else if bitsOf w 11 0 = 5 then some (.vmskSt (fieldAt 6 w 18) (fieldAt 6 w 12))
    else if bitsOf w 11 0 = 6 then some (.vmskPop (fieldAt 6 w 18) (fieldAt 6 w 12))
    else if bitsOf w 5 2 = 0 then some (.vmskLogic (fieldAt 6 w 18) (fieldAt 6 w 12) (fieldAt 6 w 6) (fieldAt 2 w 0))
    else none
  | 20 =>
    some (.vsh (fieldAt 6 w 18) (fieldAt 6 w 12) (fieldAt 6 w 6) (fieldAt 3 w 3) (fieldAt 3 w 0))
  | 21 =>
    if bitsOf w 5 0 = 0 then some (.vtag (fieldAt 6 w 18) (fieldAt 6 w 12) (fieldAt 6 w 6))
    else none
  | 22 =>
    if bitsOf w 11 8 = 0 then some (.vacc (fieldAt 6 w 18) (fieldAt 6 w 12) (fieldAt 1 w 7) (fieldAt 1 w 6) (fieldAt 3 w 3) (fieldAt 3 w 0))
    else none
  | 23 =>
    if bitsOf w 23 18 = 0 then some (.vhist (fieldAt 6 w 12) (fieldAt 6 w 6) (fieldAt 3 w 3) (fieldAt 3 w 0))
    else none
  | 24 =>
    if bitsOf w 11 6 = 0 then some (.vfn (fieldAt 6 w 18) (fieldAt 6 w 12) (fieldAt 3 w 3) (fieldAt 3 w 0))
    else none
  | 25 =>
    if bitsOf w 17 12 = 0 then some (.viota (fieldAt 6 w 18) (fieldAt 6 w 6) (fieldAt 3 w 3) (fieldAt 3 w 0))
    else none
  | 26 =>
    if bitsOf w 2 0 = 0 then some (.vclamp (fieldAt 6 w 18) (fieldAt 6 w 12) (fieldAt 6 w 6) (fieldAt 3 w 3))
    else none
  | 27 =>
    some (.vtrn (fieldAt 6 w 18) (fieldAt 6 w 12) (fieldAt 6 w 6) (fieldAt 3 w 3) (fieldAt 3 w 0))
  | _ => none

/-- The words of tag 3 (MAT), by opcode (R230). -/
def decodeMat (w : Nat) : Option Instr :=
  match bitsOf w 28 24 with
  | 0 =>
    if bitsOf w 5 3 = 0 then some (.mma (fieldAt 6 w 18) (fieldAt 6 w 12) (fieldAt 6 w 6) (fieldAt 1 w 2) (fieldAt 1 w 1) (fieldAt 1 w 0))
    else none
  | 1 =>
    if bitsOf w 17 0 = 0 then some (.mzero (fieldAt 6 w 18))
    else if bitsOf w 17 0 = 1 then some (.mzeroT (fieldAt 6 w 18))
    else none
  | 2 =>
    if bitsOf w 17 10 = 0 then some (.manch (fieldAt 6 w 18) (fieldAt 10 w 0))
    else none
  | 3 =>
    if bitsOf w 1 0 = 0 then some (.mshape (fieldAt 7 w 17) (fieldAt 7 w 10) (fieldAt 8 w 2))
    else none
  | 4 =>
    if bitsOf w 11 0 = 0 then some (.mfmt (fieldAt 6 w 18) (fieldAt 6 w 12))
    else none
  | 5 =>
    if bitsOf w 5 2 = 0 ∧ bitsOf w 11 9 = 0 then some (.mldt (fieldAt 6 w 18) (fieldAt 6 w 12) (fieldAt 3 w 6) (fieldAt 2 w 0))
    else none
  | 6 =>
    if bitsOf w 5 4 = 0 ∧ bitsOf w 11 7 = 0 ∧ bitsOf w 23 23 = 0 then some (.msta (fieldAt 1 w 22) (fieldAt 4 w 18) (fieldAt 6 w 12) (fieldAt 1 w 6) (fieldAt 1 w 3) (fieldAt 3 w 0))
    else none
  | 7 =>
    if bitsOf w 17 2 = 0 ∧ bitsOf w 23 23 = 0 then some (.mchk (fieldAt 1 w 22) (fieldAt 4 w 18) (fieldAt 1 w 1) (fieldAt 1 w 0))
    else none
  | 8 =>
    if bitsOf w 11 0 = 0 then some (.mmov (fieldAt 6 w 18) (fieldAt 6 w 12))
    else if bitsOf w 5 4 = 1 ∧ bitsOf w 11 7 = 0 then some (.mmovFmt (fieldAt 6 w 18) (fieldAt 6 w 12) (fieldAt 1 w 6) (fieldAt 1 w 3) (fieldAt 3 w 0))
    else none
  | 9 =>
    if bitsOf w 17 0 = 0 ∧ bitsOf w 23 19 = 0 then some (.mscl (fieldAt 1 w 18))
    else if bitsOf w 17 0 = 1 ∧ bitsOf w 23 19 = 0 then some (.msclOne (fieldAt 1 w 18))
    else none
  | _ => none

/-- The words of tag 4 (XFR), by opcode (R230). -/
def decodeXfr (w : Nat) : Option Instr :=
  match bitsOf w 28 24 with
  | 0 =>
    if bitsOf w 17 3 = 0 then some (.xset (fieldAt 6 w 18) (fieldAt 3 w 0))
    else none
  | 1 =>
    if bitsOf w 11 0 = 0 ∧ bitsOf w 17 14 = 0 ∧ bitsOf w 23 23 = 0 then some (.xgo (fieldAt 1 w 22) (fieldAt 4 w 18) (fieldAt 2 w 12))
    else none
  | 2 =>
    if bitsOf w 23 0 = 0 then some (.xclr)
    else if bitsOf w 23 0 = 1 then some (.xclrDrop)
    else none
  | _ => none

/-- A header word (R136): every value is a valid header. -/
def decodeHdr (w : Nat) : Option Instr :=
  some (.hwait (fieldAt 4 w 25) (fieldAt 4 w 21) (fieldAt 1 w 20) (fieldAt 20 w 0))

/-- A prefix word (R227) whose bits [15:0] are zero. -/
def decodePfx (w : Nat) : Option Instr :=
  if bitsOf w 15 0 = 0 then
    some (.pfx (fieldAt 3 w 26) (fieldAt 3 w 23) (fieldAt 2 w 21) (fieldAt 3 w 18) (fieldAt 2 w 16))
  else none

/-- The instruction of a word, by its tag (R222). -/
def decodeNat (w : Nat) : Option Instr :=
  match tagOf w with
  | 0 => decodeCtl w
  | 1 => decodeMem w
  | 2 => decodeVec w
  | 3 => decodeMat w
  | 4 => decodeXfr w
  | 5 => decodeHdr w
  | 6 => decodePfx w
  | _ => none

/-- The instruction of a 32-bit text word. -/
def decodeWord (w : BitVec 32) : Option Instr := decodeNat w.toNat

/-- The text word that four bytes hold, the first at the lowest address (R1). -/
def wordOfBytes (bs : List Byte) : BitVec 32 := BitVec.ofNat 32 (ofLeBytes (bs.take 4))

/-- The decoder on the bytes of a text: the first instruction. -/
def decode (bs : List Byte) : Option Instr :=
  if 4 ≤ bs.length then decodeWord (wordOfBytes bs) else none

/-- The decoder on a word numbered as the opcode table numbers it: its four bytes as the machine stores
them, little-endian (R1). -/
def decodeTableWord (nbits w : Nat) : Option Instr :=
  if 1 ≤ nbits ∧ nbits ≤ 32 then decode (leBytes 4 (w % 2 ^ nbits)) else none

/-- A field's bits in their place in a word. -/
def place (lo : Nat) {n : Nat} (x : BitVec n) : Nat := x.toNat * 2 ^ lo

/-- The word of an instruction as a number, written from the encoding of its row; 0 for an event, which
has no word. -/
def encodeNat : Instr → Nat
  | .add d a b => 0x00000000 + place 18 d + place 12 a + place 6 b
  | .sub d a b => 0x00000001 + place 18 d + place 12 a + place 6 b
  | .and d a b => 0x00000002 + place 18 d + place 12 a + place 6 b
  | .or d a b => 0x00000003 + place 18 d + place 12 a + place 6 b
  | .xor d a b => 0x00000004 + place 18 d + place 12 a + place 6 b
  | .andn d a b => 0x00000005 + place 18 d + place 12 a + place 6 b
  | .orn d a b => 0x00000006 + place 18 d + place 12 a + place 6 b
  | .sll d a b => 0x00000007 + place 18 d + place 12 a + place 6 b
  | .srl d a b => 0x00000008 + place 18 d + place 12 a + place 6 b
  | .sra d a b => 0x00000009 + place 18 d + place 12 a + place 6 b
  | .rol d a b => 0x0000000A + place 18 d + place 12 a + place 6 b
  | .ror d a b => 0x0000000B + place 18 d + place 12 a + place 6 b
  | .mul d a b => 0x0000000C + place 18 d + place 12 a + place 6 b
  | .mulh d a b => 0x0000000D + place 18 d + place 12 a + place 6 b
  | .mulhu d a b => 0x0000000E + place 18 d + place 12 a + place 6 b
  | .div d a b => 0x0000000F + place 18 d + place 12 a + place 6 b
  | .divu d a b => 0x00000010 + place 18 d + place 12 a + place 6 b
  | .rem d a b => 0x00000011 + place 18 d + place 12 a + place 6 b
  | .remu d a b => 0x00000012 + place 18 d + place 12 a + place 6 b
  | .min d a b => 0x00000013 + place 18 d + place 12 a + place 6 b
  | .max d a b => 0x00000014 + place 18 d + place 12 a + place 6 b
  | .minu d a b => 0x00000015 + place 18 d + place 12 a + place 6 b
  | .maxu d a b => 0x00000016 + place 18 d + place 12 a + place 6 b
  | .adds d a b => 0x00000017 + place 18 d + place 12 a + place 6 b
  | .subs d a b => 0x00000018 + place 18 d + place 12 a + place 6 b
  | .clz d a => 0x00000019 + place 18 d + place 12 a
  | .ctz d a => 0x0000001A + place 18 d + place 12 a
  | .popc d a => 0x0000001B + place 18 d + place 12 a
  | .bswap d a => 0x0000001C + place 18 d + place 12 a
  | .addi d a i => 0x01000000 + place 18 d + place 12 a + place 0 i
  | .andi d a i => 0x02000000 + place 18 d + place 12 a + place 0 i
  | .ori d a i => 0x03000000 + place 18 d + place 12 a + place 0 i
  | .xori d a i => 0x04000000 + place 18 d + place 12 a + place 0 i
  | .shi d a k n => 0x05000000 + place 18 d + place 12 a + place 8 k + place 0 n
  | .movw d q i => 0x06000000 + place 18 d + place 16 q + place 0 i
  | .movk d q i => 0x07000000 + place 18 d + place 16 q + place 0 i
  | .cmp p a b c m => 0x08000000 + place 20 p + place 14 a + place 8 b + place 4 c + place 0 m
  | .cmpi p a c i => 0x09000000 + place 20 p + place 14 a + place 10 c + place 0 i
  | .plog p a b t c => 0x0A000000 + place 20 p + place 14 a + place 8 b + place 4 t + place 0 c
  | .sel d a b n k => 0x0B000000 + place 18 d + place 12 a + place 6 b + place 4 n + place 0 k
  | .br p n o => 0x0C000000 + place 20 p + place 19 n + place 0 o
  | .jal p n o => 0x0D000000 + place 20 p + place 19 n + place 0 o
  | .jalr d a i => 0x0E000000 + place 18 d + place 12 a + place 0 i
  | .qmovCq a => 0x0F000000 + place 12 a
  | .qmovVq d => 0x0F000001 + place 18 d
  | .qmovXq a => 0x0F000002 + place 12 a
  | .qmovMq a b => 0x0F000003 + place 12 a + place 6 b
  | .engreq d a b k => 0x10000000 + place 18 d + place 12 a + place 6 b + place 3 k
  | .engctlQuery d a => 0x11000000 + place 18 d + place 12 a
  | .engctlAbandon d a => 0x11000001 + place 18 d + place 12 a
  | .engctlUnhold b => 0x11000002 + place 6 b
  | .pwrAcq d l => 0x12000000 + place 18 d + place 0 l
  | .pwrRel => 0x12000008
  | .flagRd d k => 0x13000000 + place 18 d + place 0 k
  | .flagWr a k => 0x13000010 + place 12 a + place 0 k
  | .flagInc k => 0x13000020 + place 0 k
  | .flagAdd a k => 0x13000030 + place 12 a + place 0 k
  | .bar i s => 0x14000000 + place 4 i + place 0 s
  | .barSplit d i s => 0x14000008 + place 18 d + place 4 i + place 0 s
  | .fence s o => 0x15000000 + place 2 s + place 0 o
  | .launch d a b => 0x16000000 + place 18 d + place 12 a + place 6 b
  | .yield => 0x17000000
  | .trapfence => 0x17040000
  | .trap a i => 0x17080000 + place 12 a + place 0 i
  | .tret => 0x170C0000
  | .intr v => 0x17100000 + place 0 v
  | .exit => 0x17140000
  | .csr d a i => 0x18000000 + place 18 d + place 12 a + place 0 i
  | .cntRd d a => 0x19000000 + place 18 d + place 12 a
  | .cntSnap d a => 0x19000001 + place 18 d + place 12 a
  | .cntRdGrp d a => 0x19000002 + place 18 d + place 12 a
  | .cntSnapGrp d a => 0x19000003 + place 18 d + place 12 a
  | .cntOvf d a => 0x19000004 + place 18 d + place 12 a
  | .cntOvfSnap d a => 0x19000005 + place 18 d + place 12 a
  | .rand d => 0x1A000000 + place 18 d
  | .randBelow d a => 0x1A000001 + place 18 d + place 12 a
  | .rbind d k b => 0x1B000000 + place 18 d + place 12 k + place 6 b
  | .radd d a b => 0x1B000001 + place 18 d + place 12 a + place 6 b
  | .runbind d a => 0x1B000002 + place 18 d + place 12 a
  | .madd d a b c => 0x1C000000 + place 18 d + place 12 a + place 6 b + place 0 c
  | .bitf d a p w => 0x1D000000 + place 18 d + place 12 a + place 6 p + place 0 w
  | .hwait m f c v => 0xA0000000 + place 25 m + place 21 f + place 20 c + place 0 v
  | .pfx o s p c f => 0xC0000000 + place 26 o + place 23 s + place 21 p + place 18 c + place 16 f
  | .ld t a z i => 0x20000000 + place 18 t + place 12 a + place 10 z + place 0 i
  | .ldz t a z i => 0x21000000 + place 18 t + place 12 a + place 10 z + place 0 i
  | .st t a z i => 0x22000000 + place 18 t + place 12 a + place 10 z + place 0 i
  | .ldq q x z a i => 0x23000000 + place 21 q + place 20 x + place 18 z + place 12 a + place 0 i
  | .stq q x z a i => 0x24000000 + place 21 q + place 20 x + place 18 z + place 12 a + place 0 i
  | .amo d a b n z => 0x25000000 + place 18 d + place 12 a + place 6 b + place 2 n + place 0 z
  | .cas d a b k z => 0x26000000 + place 18 d + place 12 a + place 6 b + place 2 k + place 0 z
  | .scopLd d a z => 0x27000000 + place 18 d + place 12 a + place 0 z
  | .scopSt a b z => 0x27000004 + place 12 a + place 6 b + place 0 z
  | .scopRmw d a b o z => 0x27000000 + place 18 d + place 12 a + place 6 b + place 2 o + place 0 z
  | .ldref t a i => 0x28000C00 + place 18 t + place 12 a + place 0 i
  | .stref t a i => 0x29000C00 + place 18 t + place 12 a + place 0 i
  | .pmake k a b p => 0x2A000000 + place 18 k + place 12 a + place 6 b + place 0 p
  | .post d g k j p f => 0x2B000000 + place 18 d + place 15 g + place 12 k + place 9 j + place 5 p + place 1 f
  | .pclaim k a p => 0x2C000000 + place 18 k + place 12 a + place 0 p
  | .pctlQuery d k => 0x2D000000 + place 18 d + place 6 k
  | .pctlFree k => 0x2D000001 + place 6 k
  | .pctlSet a k => 0x2D000002 + place 12 a + place 6 k
  | .pctlGet d k => 0x2D000003 + place 18 d + place 6 k
  | .mpush a n => 0x2E000000 + place 12 a + place 0 n
  | .pfetch a z i => 0x2F000000 + place 12 a + place 10 z + place 0 i
  | .cacheDrop a z i => 0x30000000 + place 12 a + place 10 z + place 0 i
  | .cacheDemote a z i => 0x30040000 + place 12 a + place 10 z + place 0 i
  | .tktCnt d => 0x31000000 + place 18 d
  | .tktWait => 0x31000001
  | .tktRd d a => 0x31000002 + place 18 d + place 12 a
  | .grantMint d a b => 0x32000000 + place 18 d + place 12 a + place 6 b
  | .grantSet a k => 0x32000001 + place 12 a + place 6 k
  | .grantGet d k => 0x32000002 + place 18 d + place 6 k
  | .tlbopRng d a b => 0x33000000 + place 18 d + place 12 a + place 6 b
  | .tlbopTen d => 0x33000001 + place 18 d
  | .tlbopAll => 0x33000002
  | .dirtySnap d a b => 0x34000000 + place 18 d + place 12 a + place 6 b
  | .dirtyRd d a b => 0x34000001 + place 18 d + place 12 a + place 6 b
  | .vadd d a b m f => 0x40000000 + place 18 d + place 12 a + place 6 b + place 3 m + place 0 f
  | .vsub d a b m f => 0x41000000 + place 18 d + place 12 a + place 6 b + place 3 m + place 0 f
  | .vmul d a b m f => 0x42000000 + place 18 d + place 12 a + place 6 b + place 3 m + place 0 f
  | .vfma d a b m f => 0x43000000 + place 18 d + place 12 a + place 6 b + place 3 m + place 0 f
  | .vmin d a b m f => 0x44000000 + place 18 d + place 12 a + place 6 b + place 3 m + place 0 f
  | .vmax d a b m f => 0x45000000 + place 18 d + place 12 a + place 6 b + place 3 m + place 0 f
  | .vun d a m f => 0x46000000 + place 18 d + place 12 a + place 3 m + place 0 f
  | .vcmp d a b m f => 0x47000000 + place 18 d + place 12 a + place 6 b + place 3 m + place 0 f
  | .vsel d a b m => 0x48000000 + place 18 d + place 12 a + place 6 b + place 3 m
  | .vlog d a b m f => 0x49000000 + place 18 d + place 12 a + place 6 b + place 3 m + place 0 f
  | .vshf d a b m f => 0x4A000000 + place 18 d + place 12 a + place 6 b + place 3 m + place 0 f
  | .vcvt d a t m f => 0x4B000000 + place 18 d + place 12 a + place 6 t + place 3 m + place 0 f
  | .vscale d a b m f => 0x4C000000 + place 18 d + place 12 a + place 6 b + place 3 m + place 0 f
  | .vred d a m f => 0x4D000000 + place 18 d + place 12 a + place 3 m + place 0 f
  | .vscan d a m f => 0x4E000000 + place 18 d + place 12 a + place 3 m + place 0 f
  | .vperm d a b m f => 0x4F000000 + place 18 d + place 12 a + place 6 b + place 3 m + place 0 f
  | .vslide d a c m f => 0x50000000 + place 18 d + place 12 a + place 6 c + place 3 m + place 0 f
  | .vbcast d a l m h => 0x51000000 + place 18 d + place 12 a + place 6 l + place 3 m + place 0 h
  | .vmov d a m => 0x52000000 + place 18 d + place 12 a + place 3 m
  | .vmskLogic d a b f => 0x53000000 + place 18 d + place 12 a + place 6 b + place 0 f
  | .vmskLd d a => 0x53000004 + place 18 d + place 12 a
  | .vmskSt d a => 0x53000005 + place 18 d + place 12 a
  | .vmskPop d a => 0x53000006 + place 18 d + place 12 a
  | .vsh d a b m f => 0x54000000 + place 18 d + place 12 a + place 6 b + place 3 m + place 0 f
  | .vtag d a t => 0x55000000 + place 18 d + place 12 a + place 6 t
  | .vacc d r k h m f => 0x56000000 + place 18 d + place 12 r + place 7 k + place 6 h + place 3 m + place 0 f
  | .vhist a b m f => 0x57000000 + place 12 a + place 6 b + place 3 m + place 0 f
  | .vfn d a m f => 0x58000000 + place 18 d + place 12 a + place 3 m + place 0 f
  | .viota d t m f => 0x59000000 + place 18 d + place 6 t + place 3 m + place 0 f
  | .vclamp d a b m => 0x5A000000 + place 18 d + place 12 a + place 6 b + place 3 m
  | .vtrn d a b m f => 0x5B000000 + place 18 d + place 12 a + place 6 b + place 3 m + place 0 f
  | .mma k a b u v w => 0x60000000 + place 18 k + place 12 a + place 6 b + place 2 u + place 1 v + place 0 w
  | .mzero k => 0x61000000 + place 18 k
  | .mzeroT k => 0x61000001 + place 18 k
  | .manch k i => 0x62000000 + place 18 k + place 0 i
  | .mshape m n k => 0x63000000 + place 17 m + place 10 n + place 2 k
  | .mfmt a b => 0x64000000 + place 18 a + place 12 b
  | .mldt k t c l => 0x65000000 + place 18 k + place 12 t + place 6 c + place 0 l
  | .msta e j t k o r => 0x66000000 + place 22 e + place 18 j + place 12 t + place 6 k + place 3 o + place 0 r
  | .mchk e j i c => 0x67000000 + place 22 e + place 18 j + place 1 i + place 0 c
  | .mmov d a => 0x68000000 + place 18 d + place 12 a
  | .mmovFmt d t k o r => 0x68000010 + place 18 d + place 12 t + place 6 k + place 3 o + place 0 r
  | .mscl s => 0x69000000 + place 18 s
  | .msclOne s => 0x69000001 + place 18 s
  | .xset d c => 0x80000000 + place 18 d + place 0 c
  | .xgo e j r => 0x81000000 + place 22 e + place 18 j + place 12 r
  | .xclr => 0x82000000
  | .xclrDrop => 0x82000001
  | .bootStart => 0
  | .dieAuthReply => 0
  | .dieAuthConfirm => 0
  | .dieAuthTimeout => 0
  | .trainingComplete => 0
  | .getVersion => 0
  | .getCapabilities => 0
  | .negotiateAlgorithms => 0
  | .getDigests => 0
  | .getCertificate => 0
  | .challenge => 0
  | .getMeasurements => 0
  | .unsupportedRequest => 0
  | .packetForward => 0
  | .dataFlit => 0
  | .idle => 0
  | .nack => 0
  | .join => 0
  | .retrain => 0
  | .replayTimeout => 0
  | .linkRetrain => 0
  | .retrainExchangeDone => 0
  | .keySwitch => 0
  | .read => 0
  | .write => 0
  | .amoRequest => 0
  | .casRequest => 0
  | .ptry => 0
  | .pdata => 0
  | .pdone => 0
  | .resp => 0
  | .notice => 0
  | .requestTimeout => 0
  | .retryResend => 0
  | .shadowRelease => 0
  | .peerincWrite => 0
  | .gwinWrite => 0
  | .ingressKeyReplace => 0
  | .launchWrite => 0
  | .cqctlWrite => 0
  | .vistatRead => 0
  | .bar2Read => 0
  | .bar2Write => 0
  | .functionLevelReset => 0
  | .cxlLinkDown => 0
  | .precopyRound => 0
  | .granuleMessage => 0
  | .precopyRoundEnd => 0
  | .stoppingComplete => 0
  | .restoreCompleteReport => 0
  | .restoreFailedReport => 0
  | .launchDecision => 0
  | .resourceReport => 0
  | .drainTimeout => 0
  | .watchdogExpiry => 0
  | .saveComplete => 0
  | .textPlaneFill => 0
  | .bankLive => 0
  | .taskEnd => 0
  | .scrubComplete => 0
  | .chrstGo => 0
  | .restoreReadComplete => 0
  | .serviceTry => 0
  | .offerStep => 0
  | .holdWindowExpiry => 0
  | .serviceEExpiry => 0
  | .bounceReopen => 0
  | .jobComplete => 0
  | .admqWrite => 0
  | .admdatRead => 0
  | .rslotWrite => 0
  | .frameBoundary => 0
  | .slotAllocatorRequest => 0
  | .mptabWrite => 0
  | .qmodeWrite => 0
  | .powerSample => 0
  | .voltageStepDone => 0
  | .frequencyStepDone => 0
  | .droop => 0
  | .stretchEnd => 0
  | .pclusWrite => 0
  | .pclusRead => 0
  | .pwrcfgWrite => 0
  | .refcfgSync => 0
  | .bitmapLoaded => 0
  | .refresh => 0
  | .temperatureEvent => 0
  | .pathFollow => 0
  | .bankSwitchOut => 0
  | .queueTrap => 0
  | .loadDataArrival => 0
  | .headerPass => 0
  | .rendezvous => 0
  | .matrixCommandBegin => 0
  | .matrixCommandComplete => 0
  | .vectorWordComplete => 0
  | .transferGranuleStart => 0
  | .transferGranuleComplete => 0
  | .migrateRequest => 0
  | .batchClose => 0
  | .batchDeliver => 0
  | .fcheadWrite => 0
  | .fcbufWrite => 0
  | .fcansRetry => 0
  | .fcansAccess => 0
  | .handlerEntry => 0
  | .writeApply => 0
  | .scopPerform => 0
  | .barrierComplete => 0
  | .interruptMessage => 0
  | .registerWrite => 0
  | .illegalWord => 0
  | .linkTraining => 0
  | .precopyJobStart => 0
  | .portSlot => 0

/-- The word of an instruction. -/
def encode (i : Instr) : BitVec 32 := BitVec.ofNat 32 (encodeNat i)

/-- Whether an instruction is a text word. -/
def Instr.isWord : Instr → Bool
  | .add _ _ _ => true
  | .sub _ _ _ => true
  | .and _ _ _ => true
  | .or _ _ _ => true
  | .xor _ _ _ => true
  | .andn _ _ _ => true
  | .orn _ _ _ => true
  | .sll _ _ _ => true
  | .srl _ _ _ => true
  | .sra _ _ _ => true
  | .rol _ _ _ => true
  | .ror _ _ _ => true
  | .mul _ _ _ => true
  | .mulh _ _ _ => true
  | .mulhu _ _ _ => true
  | .div _ _ _ => true
  | .divu _ _ _ => true
  | .rem _ _ _ => true
  | .remu _ _ _ => true
  | .min _ _ _ => true
  | .max _ _ _ => true
  | .minu _ _ _ => true
  | .maxu _ _ _ => true
  | .adds _ _ _ => true
  | .subs _ _ _ => true
  | .clz _ _ => true
  | .ctz _ _ => true
  | .popc _ _ => true
  | .bswap _ _ => true
  | .addi _ _ _ => true
  | .andi _ _ _ => true
  | .ori _ _ _ => true
  | .xori _ _ _ => true
  | .shi _ _ _ _ => true
  | .movw _ _ _ => true
  | .movk _ _ _ => true
  | .cmp _ _ _ _ _ => true
  | .cmpi _ _ _ _ => true
  | .plog _ _ _ _ _ => true
  | .sel _ _ _ _ _ => true
  | .br _ _ _ => true
  | .jal _ _ _ => true
  | .jalr _ _ _ => true
  | .qmovCq _ => true
  | .qmovVq _ => true
  | .qmovXq _ => true
  | .qmovMq _ _ => true
  | .engreq _ _ _ _ => true
  | .engctlQuery _ _ => true
  | .engctlAbandon _ _ => true
  | .engctlUnhold _ => true
  | .pwrAcq _ _ => true
  | .pwrRel => true
  | .flagRd _ _ => true
  | .flagWr _ _ => true
  | .flagInc _ => true
  | .flagAdd _ _ => true
  | .bar _ _ => true
  | .barSplit _ _ _ => true
  | .fence _ _ => true
  | .launch _ _ _ => true
  | .yield => true
  | .trapfence => true
  | .trap _ _ => true
  | .tret => true
  | .intr _ => true
  | .exit => true
  | .csr _ _ _ => true
  | .cntRd _ _ => true
  | .cntSnap _ _ => true
  | .cntRdGrp _ _ => true
  | .cntSnapGrp _ _ => true
  | .cntOvf _ _ => true
  | .cntOvfSnap _ _ => true
  | .rand _ => true
  | .randBelow _ _ => true
  | .rbind _ _ _ => true
  | .radd _ _ _ => true
  | .runbind _ _ => true
  | .madd _ _ _ _ => true
  | .bitf _ _ _ _ => true
  | .hwait _ _ _ _ => true
  | .pfx _ _ _ _ _ => true
  | .ld _ _ _ _ => true
  | .ldz _ _ _ _ => true
  | .st _ _ _ _ => true
  | .ldq _ _ _ _ _ => true
  | .stq _ _ _ _ _ => true
  | .amo _ _ _ _ _ => true
  | .cas _ _ _ _ _ => true
  | .scopLd _ _ _ => true
  | .scopSt _ _ _ => true
  | .scopRmw _ _ _ _ _ => true
  | .ldref _ _ _ => true
  | .stref _ _ _ => true
  | .pmake _ _ _ _ => true
  | .post _ _ _ _ _ _ => true
  | .pclaim _ _ _ => true
  | .pctlQuery _ _ => true
  | .pctlFree _ => true
  | .pctlSet _ _ => true
  | .pctlGet _ _ => true
  | .mpush _ _ => true
  | .pfetch _ _ _ => true
  | .cacheDrop _ _ _ => true
  | .cacheDemote _ _ _ => true
  | .tktCnt _ => true
  | .tktWait => true
  | .tktRd _ _ => true
  | .grantMint _ _ _ => true
  | .grantSet _ _ => true
  | .grantGet _ _ => true
  | .tlbopRng _ _ _ => true
  | .tlbopTen _ => true
  | .tlbopAll => true
  | .dirtySnap _ _ _ => true
  | .dirtyRd _ _ _ => true
  | .vadd _ _ _ _ _ => true
  | .vsub _ _ _ _ _ => true
  | .vmul _ _ _ _ _ => true
  | .vfma _ _ _ _ _ => true
  | .vmin _ _ _ _ _ => true
  | .vmax _ _ _ _ _ => true
  | .vun _ _ _ _ => true
  | .vcmp _ _ _ _ _ => true
  | .vsel _ _ _ _ => true
  | .vlog _ _ _ _ _ => true
  | .vshf _ _ _ _ _ => true
  | .vcvt _ _ _ _ _ => true
  | .vscale _ _ _ _ _ => true
  | .vred _ _ _ _ => true
  | .vscan _ _ _ _ => true
  | .vperm _ _ _ _ _ => true
  | .vslide _ _ _ _ _ => true
  | .vbcast _ _ _ _ _ => true
  | .vmov _ _ _ => true
  | .vmskLogic _ _ _ _ => true
  | .vmskLd _ _ => true
  | .vmskSt _ _ => true
  | .vmskPop _ _ => true
  | .vsh _ _ _ _ _ => true
  | .vtag _ _ _ => true
  | .vacc _ _ _ _ _ _ => true
  | .vhist _ _ _ _ => true
  | .vfn _ _ _ _ => true
  | .viota _ _ _ _ => true
  | .vclamp _ _ _ _ => true
  | .vtrn _ _ _ _ _ => true
  | .mma _ _ _ _ _ _ => true
  | .mzero _ => true
  | .mzeroT _ => true
  | .manch _ _ => true
  | .mshape _ _ _ => true
  | .mfmt _ _ => true
  | .mldt _ _ _ _ => true
  | .msta _ _ _ _ _ _ => true
  | .mchk _ _ _ _ => true
  | .mmov _ _ => true
  | .mmovFmt _ _ _ _ _ => true
  | .mscl _ => true
  | .msclOne _ => true
  | .xset _ _ => true
  | .xgo _ _ _ => true
  | .xclr => true
  | .xclrDrop => true
  | .bootStart => false
  | .dieAuthReply => false
  | .dieAuthConfirm => false
  | .dieAuthTimeout => false
  | .trainingComplete => false
  | .getVersion => false
  | .getCapabilities => false
  | .negotiateAlgorithms => false
  | .getDigests => false
  | .getCertificate => false
  | .challenge => false
  | .getMeasurements => false
  | .unsupportedRequest => false
  | .packetForward => false
  | .dataFlit => false
  | .idle => false
  | .nack => false
  | .join => false
  | .retrain => false
  | .replayTimeout => false
  | .linkRetrain => false
  | .retrainExchangeDone => false
  | .keySwitch => false
  | .read => false
  | .write => false
  | .amoRequest => false
  | .casRequest => false
  | .ptry => false
  | .pdata => false
  | .pdone => false
  | .resp => false
  | .notice => false
  | .requestTimeout => false
  | .retryResend => false
  | .shadowRelease => false
  | .peerincWrite => false
  | .gwinWrite => false
  | .ingressKeyReplace => false
  | .launchWrite => false
  | .cqctlWrite => false
  | .vistatRead => false
  | .bar2Read => false
  | .bar2Write => false
  | .functionLevelReset => false
  | .cxlLinkDown => false
  | .precopyRound => false
  | .granuleMessage => false
  | .precopyRoundEnd => false
  | .stoppingComplete => false
  | .restoreCompleteReport => false
  | .restoreFailedReport => false
  | .launchDecision => false
  | .resourceReport => false
  | .drainTimeout => false
  | .watchdogExpiry => false
  | .saveComplete => false
  | .textPlaneFill => false
  | .bankLive => false
  | .taskEnd => false
  | .scrubComplete => false
  | .chrstGo => false
  | .restoreReadComplete => false
  | .serviceTry => false
  | .offerStep => false
  | .holdWindowExpiry => false
  | .serviceEExpiry => false
  | .bounceReopen => false
  | .jobComplete => false
  | .admqWrite => false
  | .admdatRead => false
  | .rslotWrite => false
  | .frameBoundary => false
  | .slotAllocatorRequest => false
  | .mptabWrite => false
  | .qmodeWrite => false
  | .powerSample => false
  | .voltageStepDone => false
  | .frequencyStepDone => false
  | .droop => false
  | .stretchEnd => false
  | .pclusWrite => false
  | .pclusRead => false
  | .pwrcfgWrite => false
  | .refcfgSync => false
  | .bitmapLoaded => false
  | .refresh => false
  | .temperatureEvent => false
  | .pathFollow => false
  | .bankSwitchOut => false
  | .queueTrap => false
  | .loadDataArrival => false
  | .headerPass => false
  | .rendezvous => false
  | .matrixCommandBegin => false
  | .matrixCommandComplete => false
  | .vectorWordComplete => false
  | .transferGranuleStart => false
  | .transferGranuleComplete => false
  | .migrateRequest => false
  | .batchClose => false
  | .batchDeliver => false
  | .fcheadWrite => false
  | .fcbufWrite => false
  | .fcansRetry => false
  | .fcansAccess => false
  | .handlerEntry => false
  | .writeApply => false
  | .scopPerform => false
  | .barrierComplete => false
  | .interruptMessage => false
  | .registerWrite => false
  | .illegalWord => false
  | .linkTraining => false
  | .precopyJobStart => false
  | .portSlot => false

end Sys2Proof
end

