-- ==== Sys2Proof/Machine/Types.lean ====
section
/-! DEFINITION. The parts of the state that belong to a bank of a core, to the memory model, to
translation and to faults (chapters 08, 09, 10, 11, 15, 16, 17). Plain data throughout. -/

namespace Sys2Proof.Machine

open Sys2Proof

/-- The four strands of a task (R118). -/
inductive Strand where
  /-- the control strand C -/
  | c
  /-- the vector strand V -/
  | v
  /-- the matrix strand M -/
  | m
  /-- the transfer strand X -/
  | x
deriving DecidableEq, Repr

/-- The outcome of the residue check of a step and of its one re-execution (R114). -/
inductive Residue where
  /-- the step passes its check -/
  | pass
  /-- the first execution fails and the re-execution passes -/
  | passOnRetry
  /-- both executions fail -/
  | fail
deriving DecidableEq, Repr

/-- Why a strand stands at its word (R125, R127, R163 and the entries of the words). -/
inductive Stall where
  /-- it does not stand -/
  | none
  /-- a queue is full, or the head it needs is not there (R125) -/
  | queue
  /-- a path FIFO is full or empty (R121) -/
  | path
  /-- the slip window (R122) -/
  | slip
  /-- a header word's condition does not hold (R136) -/
  | header
  /-- a descriptor or record that has not been read (R271, R279) -/
  | memory
  /-- pending registers among those that the word names, a predicate as 64 and its number (R247, R295) -/
  | pending (rs : List Nat)
  /-- the data of an access that has not arrived at the head of a load queue (R125) -/
  | arrival (access : Nat)
  /-- a request slot or a ticket entry (R47, R155) -/
  | slot
  /-- a command window is full (R128) -/
  | window
  /-- a service, the Chanter or a barrier (R247) -/
  | decision
  /-- a rendezvous word (R249) -/
  | rendezvous
  /-- an ordering that the word's entry waits for -/
  | order
  /-- an unanswered local fault (R148) -/
  | fault
deriving DecidableEq, Repr

/-- One strand's walk of the text (R118-R121). -/
structure Walker where
  /-- program counter: an index into the text plane -/
  pc : Nat
  /-- walk index (R119) -/
  walk : Nat
  /-- path FIFO of V, M and X (R121); never used by C -/
  path : List Nat
  /-- MODEL'S OWN: how many entries it has popped; of C, how many path words it has passed -/
  pops : Nat
  /-- the prefix word that the strand has passed and that its next word takes (R118, R227) -/
  pfx : Option (BitVec 32)
  /-- MODEL'S OWN: why the strand's last word stalled -/
  stall : Stall
deriving DecidableEq, Repr

/-- A vector register and its format tag (R200). -/
structure VecReg where
  bits : VecBits
  tag : BitVec 6
deriving DecidableEq, Repr

/-- A tile register and its format tag. -/
structure TileReg where
  bits : TileBits
  tag : BitVec 6
deriving DecidableEq, Repr

/-- One accumulator element (R211): a 128-bit value and its special state (0 normal, 1 plus infinity, 2 minus
infinity, 3 NaN). -/
structure AccElem where
  v : BitVec 128
  st : BitVec 2
deriving DecidableEq, Repr

/-- An accumulator (R211, R212): elements keyed by 128 row + column, every other one zero and normal; and its format tag
(R200), which no word writes or checks and which is 0x00 throughout (R344; log entry 119). -/
structure Acc where
  elems : KV AccElem
  anchor : Int
  tag : BitVec 6
deriving DecidableEq, Repr

/-- An accumulator at task start. -/
def Acc.zero : Acc := { elems := [], anchor := 0, tag := 0 }

/-- The registers of a bank (R225, R75). -/
structure Regs where
  /-- s0-s63; s0 reads zero whatever stands here (R247) -/
  s : KV Word
  /-- the 4-bit bindings of the scalars (R171) -/
  bind : KV Nat
  /-- the pending scalars (R156, R295) -/
  pend : List Nat
  /-- p0-p15 as bits; p0 reads true -/
  p : BitVec 16
  /-- m0-m7; m0 reads all lanes -/
  m : KV MaskBits
  v : KV VecReg
  t : KV TileReg
  a : KV Acc
  /-- f0-f15 (R135) -/
  f : KV (BitVec 20)
  g : KV Word
  h : KV Word
deriving DecidableEq, Repr

/-- An entry of a load queue (R125): the access that fills it and its data, once all of it has arrived. -/
structure LqEntry where
  access : Nat
  data : Option VecBits
deriving DecidableEq, Repr

/-- A descriptor of mq (R265). -/
structure MqDesc where
  base : Nat
  rho : Nat
  rowPitch : Nat
  tilePitch : Nat
deriving DecidableEq, Repr

/-- The queues of a bank (R125), heads first. -/
structure Queues where
  /-- lq0-lq3, keyed 0-3 -/
  lq : KV (List LqEntry)
  /-- sq0-sq1, keyed 0-1 -/
  sq : KV (List VecBits)
  cq : List Word
  vq : List Word
  oq : List VecBits
  mq : List MqDesc
  xq : List Word
deriving DecidableEq, Repr

/-- A range of scratchpad window bytes of a footprint (R133). -/
structure Range where
  lo : Nat
  hi : Nat
  wr : Bool
deriving DecidableEq, Repr

/-- MODEL'S OWN: what an `ldref` needs to trap at its word once it has read a malformed one (R173): the text index and
prefix there, the path words that C had passed, the base scalar with its binding, and its value before and after the
word. -/
structure RefMark where
  pc : Nat
  pfx : Option (BitVec 32)
  pushes : Nat
  base : Nat
  bind : Nat
  old : Word
  new : Word
deriving DecidableEq, Repr

/-- What a control-strand access does when it is performed. -/
inductive AccOp where
  /-- `ld` -/
  | ld
  /-- `ldz` -/
  | ldz
  /-- `ldref` in a parcel of a length (R173) -/
  | ldref (len : Nat) (m : RefMark)
  /-- `ldq` into load queue `q` (R303) -/
  | ldq (q : Nat)
  /-- `mpush` of `n` descriptors (R315) -/
  | mpush (n : Nat)
  /-- `amo` with function `fn` (R306) -/
  | amo (fn : Nat)
  /-- `cas` with predicate `k` (R307) -/
  | cas (k : Nat)
  /-- a store to a remote page, which waits for its answer (R297) -/
  | st
  /-- the read of a 64-byte line into L2 for its own sake (R299) -/
  | fill
  /-- the read of a job descriptor or launch record (R271, R279) -/
  | desc
deriving DecidableEq, Repr

/-- A remote request of an access (R297, R299): the peer, the packet offset, the token and the size of
one request, and whether it fills a REMOTE_CACHED line. -/
structure RemReq where
  /-- the virtual address of its first byte -/
  va : Nat
  peer : Nat
  off : Nat
  token : Nat
  size : Nat
  /-- the request's `fill` byte (R298): the line is kept -/
  fill : Bool
  /-- a 64-byte line of a REMOTE_CACHED page, served from L2 where it is present (R299) -/
  cached : Bool
  /-- cache policy (R228) -/
  policy : Nat
deriving DecidableEq, Repr

/-- A control-strand access that is not performed yet. -/
structure Access where
  /-- MODEL'S OWN: its name, in order of issue -/
  id : Nat
  walk : Nat
  op : AccOp
  /-- bytes of one lane -/
  size : Nat
  /-- the lanes' addresses: physical, or core scratchpad bytes where `scr` is set -/
  lanes : List Nat
  scr : Bool
  /-- registered with the range checker (R133) -/
  own : Bool
  /-- the virtual address (or window address) that TVAL would hold -/
  va : Nat
  /-- destination scalar -/
  dst : Nat
  x : Word
  y : Word
  /-- store data of a remote store -/
  data : List Byte
  /-- ordering code and scope (R186) -/
  ord : Nat
  scope : Nat
  /-- the requests not yet answered; empty for a local access -/
  reqs : List RemReq
  /-- the requests not yet sent -/
  unsent : List RemReq
  /-- the bytes that have arrived from the peer, by packet offset -/
  got : List (Nat × List Byte)
  remote : Bool
  /-- cache policy (R228) -/
  policy : Nat
  /-- handles of the OPEN parcels whose state it has passed a check of (R182) -/
  touch : List Nat
deriving DecidableEq, Repr

/-- A fence in force (R192). -/
structure FenceRec where
  id : Nat
  walk : Nat
  ord : Nat
  scope : Nat
  /-- an acquire fence at domain scope that has not yet dropped the REMOTE_CACHED lines (R198) -/
  drop : Bool
  /-- it holds for the transfer strand alone (R269) -/
  xonly : Bool
  /-- the name of the stamped write that stands for it, where it is a module release (R190) -/
  mark : Option Nat
deriving DecidableEq, Repr

/-- Who made a write. -/
inductive Writer where
  /-- the control strand of a bank -/
  | ctl (bank : Nat)
  /-- a transfer command of a bank, by its walk index -/
  | granule (bank : Nat) (walk : Nat)
  /-- a hub agent, a service job or a peer's request -/
  | other
deriving DecidableEq, Repr

/-- What the maker of a write says of it. -/
structure WriteTag where
  writer : Writer
  /-- the die of the writing observer (R183) -/
  die : Nat
  walk : Nat
  /-- a write to a core's scratchpad, not to memory -/
  scr : Bool
  /-- registered with the range checker (R133) -/
  own : Bool
  rel : Option Nat
  acq : Option Nat
  mark : Option (Nat × Nat)
  /-- lowest and highest byte of the footprint of the whole word, where it has one of its own (R133, R305) -/
  foot : Option (Nat × Nat)
  /-- the access that it is the write of, whose name it bears -/
  name : Option Nat
  /-- it stands for a fence, which waits for earlier commands too (R192) -/
  fence : Bool
deriving DecidableEq, Repr

/-- A write that is not applied everywhere yet (R188-R190). -/
structure Write where
  /-- MODEL'S OWN: its name, in order of issue -/
  id : Nat
  writer : Writer
  /-- the die of the writing observer (R183) -/
  die : Nat
  walk : Nat
  /-- a write to a core's scratchpad, not to memory -/
  scr : Bool
  /-- registered with the range checker (R133) -/
  own : Bool
  addr : Nat
  bytes : List Byte
  /-- release scope, if the write is a release (R186) -/
  rel : Option Nat
  /-- acquire scope, if later accesses of its task wait for it (R186) -/
  acq : Option Nat
  /-- the tenant and virtual address whose dirty bits it has set (R61) -/
  mark : Option (Nat × Nat)
  /-- lowest and highest byte of the footprint of the whole word, where it has one of its own (R133, R305) -/
  foot : Option (Nat × Nat)
  /-- it stands for a fence, which waits for earlier commands too (R192) -/
  fence : Bool
  /-- the die where a read-modify-write is serialised and applied first (R194) -/
  home : Option Nat
  /-- dies on which it is applied -/
  dies : List Nat
  /-- its place in coherence order, once serialised (R188) -/
  ord : Option Nat
  /-- the stamp of a module release (R190) -/
  stamp : Option (List Nat)
  covered : List Nat
deriving DecidableEq, Repr

/-- A scop waiting for its wheel position (R196). -/
structure ScopRec where
  id : Nat
  walk : Nat
  op : Nat
  size : Nat
  pa : Nat
  va : Nat
  dst : Nat
  x : Word
  /-- the tick of the 600 MHz wheel in which it became ready, once it has (R195, R196) -/
  ready : Option Nat
deriving DecidableEq, Repr

/-- What a read-modify-write of a bank has read at the home die of its bytes and what its own die may not have
applied yet (R188, R191): the access's name, the bytes, the names of the writes, and whether it was an acquire. -/
structure SeenRec where
  id : Nat
  addr : Nat
  size : Nat
  ids : List Nat
  acq : Bool
deriving DecidableEq, Repr

/-- The state of a ticket-table entry (R156). -/
inductive TktState where
  /-- in use and waiting for its notice -/
  | wait
  /-- its request is sent again -/
  | replay
  /-- held behind an older access to its line -/
  | shadow
deriving DecidableEq, Repr

/-- An open entry of a ticket table (R155): the access it belongs to and the whole request. -/
structure Ticket where
  state : TktState
  access : Nat
  req : RemReq
  owner : Nat
  ownerInc : Nat
  number : Nat
  tkind : Nat
deriving DecidableEq, Repr

/-- A trap that has been raised and not been taken (R163, R166). -/
structure PendTrap where
  strand : Strand
  code : Nat
  tval : Word
  walk : Nat
  pc : Nat
  deferred : Bool
  /-- it has been raised in handler mode (R163) -/
  arose : Bool
deriving DecidableEq, Repr

/-- The kind of a translation fault (R151, bits of `kinds`). -/
inductive FaultKind where
  | readMiss
  | writeMiss
  | atomicMiss
  | rights
  | form
  | frozen
deriving DecidableEq, Repr

/-- A local fault of a bank that is not answered yet (R147, R148). -/
structure LocalFault where
  /-- the transfer command's walk index, or none for the control strand -/
  xfer : Option Nat
  va : Nat
  kind : FaultKind
  /-- ac since it was raised (R148) -/
  age : Nat
  /-- it was raised in handler mode -/
  handler : Bool
deriving DecidableEq, Repr

/-- How far the control strand's request to a service, the Chanter or a barrier has come. -/
inductive Decision where
  /-- nothing asked -/
  | none
  /-- the word's access `id` has issued, and some request of it still lacks a slot (R47) -/
  | issuing (id : Nat)
  /-- the word's descriptor or launch record is being read -/
  | reading
  /-- it has been read: its 64 bytes -/
  | read (bytes : List Byte)
  /-- the word is a release, and the write `id` that stands for it is being applied (R190) -/
  | marking (id : Nat)
  /-- a `pclaim` by scalar `a` has reached the parcel table, in an ac of its cluster and at a time (ps), and is decided
  with the others of that ac (R181) -/
  | claiming (ac at_ a : Nat)
  /-- asked at entry position `pos` of the choices -/
  | asked (pos : Nat)
  /-- refused at entry position `pos`; the next one is to be tried -/
  | declined (pos : Nat)
  /-- admitted; `result` is what the result scalar takes -/
  | admitted (result : Word)
  /-- refused; `reason` is what the result scalar takes; `hold` where the first choice was tried -/
  | refused (reason : Word)
deriving DecidableEq, Repr

/-- MODEL'S OWN: where a strand stood when it issued a word, so that a trap which the word raises when it
completes finds the strand there (R114): text index, path FIFO and entries popped from it. -/
structure Mark where
  pc : Nat
  path : List Nat
  pops : Nat
deriving DecidableEq, Repr

/-- An entry of the matrix command window (R128): the word with what it took at issue. -/
structure MatWin where
  id : Nat
  walk : Nat
  mark : Mark
  instr : Instr
  /-- the descriptors it popped from mq, in operand order -/
  descs : List MqDesc
  /-- MSHAPE as every earlier command leaves it (R349), and the formats of the two operands of an `mma` -/
  m : Nat
  n : Nat
  k : Nat
  fa : BitVec 6
  fb : BitVec 6
  ranges : List Range
  begun : Bool
deriving DecidableEq, Repr

/-- The matrix state of a bank (R349): MSHAPE, MFMT, the two scale vectors (keyed 8 row + byte), the residue
record (R363) and the command window. -/
structure MatState where
  m : Nat
  n : Nat
  k : Nat
  fa : BitVec 6
  fb : BitVec 6
  sa : KV Byte
  sb : KV Byte
  steps : BitVec 64
  rfail : BitVec 32
  suspect : BitVec 32
  inject : Bool
  last : BitVec 64
  window : List MatWin
deriving DecidableEq, Repr

/-- The staging fields of transfer commands (R364). -/
structure Staging where
  src : Word
  dst : Word
  shape : Word
  pitch : Word
  layout : Word
  ctr : Word
deriving DecidableEq, Repr

/-- A transfer granule in flight (R368): its index, MODEL'S OWN name at a memory port, the physical addresses of
its global sides once they are translated, whether they are and its bytes have moved, and the writes it has made. -/
structure Flight where
  g : Nat
  id : Nat
  src : Option Nat
  dst : Option Nat
  ready : Bool
  moved : Bool
  ids : List Nat
deriving DecidableEq, Repr

/-- An entry of the transfer command window (R128, R149, R366). -/
structure XferWin where
  id : Nat
  walk : Nat
  st : Staging
  /-- flag to increment, if any -/
  flag : Option Nat
  /-- direction: 0 global to scratchpad, 1 back, 2 global to global, 3 scratchpad to scratchpad -/
  dir : Nat
  /-- ordering and scope that the command took (R185) -/
  ord : Nat
  scope : Nat
  /-- cache policy of the global sides (R228, R369) -/
  policy : Nat
  ranges : List Range
  flight : List Flight
  /-- progress (R149), and whether the command keeps a progress record -/
  gidx : Nat
  mask : BitVec 32
  record : Bool
  /-- a granule that trapped holds the command back (R166) -/
  held : Bool
  /-- it has been abandoned (R372): its granules in flight complete, and then it leaves -/
  dropped : Bool
  /-- the increment of its counter that stands at a memory port (R105), by name and physical address -/
  count : Option (Nat × Nat)
deriving DecidableEq, Repr

/-- The transfer state of a bank. -/
structure XferState where
  staging : Staging
  window : List XferWin
deriving DecidableEq, Repr

/-- A vector word in flight (R328): what it took at issue and what it writes when it completes. -/
structure VecJob where
  id : Nat
  walk : Nat
  mark : Mark
  instr : Instr
  /-- the entries it popped from load queues, and from cq -/
  lq : List (Nat × LqEntry)
  cq : Option Word
  /-- destination vector register and its new content; destination mask -/
  dstV : Option (Nat × VecReg)
  dstM : Option (Nat × MaskBits)
  /-- destination queue code 37-40 and the entry pushed -/
  push : Option (Nat × VecBits)
  /-- what it adds to the routing counters (R346) -/
  hist : List (Nat × Nat)
  /-- FSTAT bits that it raises (R220) -/
  flags : BitVec 7
  /-- its lanes are checked by residues (R113) -/
  checked : Bool
deriving DecidableEq, Repr

/-- The life of a bank (R75-R80). -/
inductive BankStatus where
  /-- idle and scrubbed -/
  | idle
  /-- placed by the Chanter, its text plane not yet filled -/
  | placed
  /-- filled and holding its load token -/
  | filled
  /-- live -/
  | live
  /-- stopped at a yield point for a checkpoint (R73) -/
  | stopped
  /-- its task has ended (R76) -/
  | ended
  /-- freed and being scrubbed (R77) -/
  | scrubbing
  /-- a system core -/
  | system
deriving DecidableEq, Repr

/-- What the placement gives a bank (R69, R70). -/
structure Placement where
  group : Nat
  vi : Nat
  rank : Nat
  tasks : Nat
  shape : Nat
  args : Word
  wheel : Nat
  /-- scratchpad units of its window -/
  split : Nat
deriving DecidableEq, Repr

/-- Trap state of a bank (R163-R165). -/
structure TrapState where
  pending : List PendTrap
  handler : Bool
  /-- the trap in hand: strand, walk index and program counter of the trapping word -/
  taken : PendTrap
  /-- the control strand's word at which the trap was taken: the prefix that applies to it (R185), and how far
  its request had come -/
  pfx : Option (BitVec 32)
  dec : Decision
  desc : List Byte
  /-- walk indices of words that the control strand has passed by a return elsewhere (R165) -/
  skips : List Nat
deriving DecidableEq, Repr

/-- Counts that run with the ac of the cluster. -/
structure AcCounts where
  /-- R74 -/
  watchdog : Nat
  /-- ac for which no strand has passed a word and nothing has been outstanding (R127) -/
  idle : Nat
  /-- nothing was outstanding as the present ac began -/
  still : Bool
deriving DecidableEq, Repr

/-- No ac has passed. -/
def AcCounts.zero : AcCounts := { watchdog := 0, idle := 0, still := false }

/-- What has happened in a bank in the present ac, so that what falls in one ac is resolved as R385 lays down. -/
structure AcNow where
  /-- the strands that have issued a word or passed a header or path word (R379, R123) -/
  issued : List Strand
  /-- a strand has passed a word (R127) -/
  passed : Bool
  /-- M where a matrix command has begun, X where a granule has started (R123) -/
  begun : List Strand
  /-- the flags that have changed, as they stood at the start of the ac, and how often each has been incremented (R135) -/
  flagOld : KV (BitVec 20)
  flagInc : KV (BitVec 20)
  /-- FSTAT bits that have been raised (R220), and those of them that were 0 at the start of the ac -/
  raised : BitVec 7
  freshBits : BitVec 7
  /-- walk indices of the `trapfence` words that C has decided (R221) -/
  decided : List Nat
  /-- the routing counters that have changed, as they stood at the start of the ac or after their clear, and what has
  been added to each (R283) -/
  cntOld : KV (BitVec 32)
  cntInc : KV Nat
  /-- entries pushed and popped, by queue code (R125): 32-35 lq, 36 cq, 37-38 sq, 39 vq, 40 oq, 41 mq, 42 xq,
  43-45 the path FIFOs of V, M and X (R121) -/
  pushed : KV Nat
  popped : KV Nat
  /-- the accesses whose data has filled a load-queue entry (R125) -/
  filled : List Nat
  /-- the watchdog has raised its trap (R74) -/
  barked : Bool
  /-- a matrix command has completed (R379) -/
  ran : Bool
  /-- the bits of system registers that the hardware has updated, by register: which, and to what (R287, R385) -/
  hard : KV (Word × Word)
  /-- SLIP as it stood at the start of the ac, where it has been written (R122) -/
  slipOld : Option Word
deriving DecidableEq, Repr

/-- An ac in which nothing has happened yet. -/
def AcNow.none : AcNow :=
  { issued := [], passed := false, begun := [], flagOld := [], flagInc := [], raised := 0, freshBits := 0, decided := [],
    cntOld := [], cntInc := [], pushed := [], popped := [], filled := [], barked := false, ran := false, hard := [],
    slipOld := .none }

/-- What a bank has outstanding. -/
structure Outstanding where
  /-- control-strand accesses not yet performed, oldest first -/
  acc : List Access
  fences : List FenceRec
  scop : Option ScopRec
  /-- open ticket-table entries, keyed 0-15 (R155) -/
  tkt : KV Ticket
  faults : List LocalFault
  /-- an answer of ACCESS to the control strand's fault (R148): the address, and whether the faulting word is one of
  the trap handler -/
  denied : Option (Nat × Bool)
  /-- switched out (R124) -/
  out : Bool
  /-- walk indices of ordering words that X has passed -/
  xwait : List Nat
  /-- each `xgo` with an acquire half that C has passed: its walk index, and the name from which C's accesses
  are later (R371) -/
  xacq : List (Nat × Nat)
  /-- one more than the walk index of the last VEC word, MAT word and `vhist` that C has passed, and the
  walk indices of the `trapfence` words that V or M has passed before C (R221, R269, R284) -/
  lastVec : Nat
  lastMat : Nat
  lastHist : Nat
  tfences : List Nat
  /-- the walk index of a `trapfence` that has been decided and has trapped (R221) -/
  tdone : Option Nat
  /-- walk index and accumulator of each `vacc` that M has passed, and of each MAT word writing an accumulator
  that V has passed (R345) -/
  vaccs : List (Nat × Nat)
  maccs : List (Nat × Nat)
  /-- FSTAT bits that wait for a `trapfence`: walk index of the word and its bits (R221) -/
  late : List (Nat × BitVec 7)
  /-- interrupts that wait for their ordering: vector, and name and walk of the word (R281) -/
  intrs : List (Nat × Nat × Nat)
  /-- barrier arrivals, keyed 8 id + scope (R268): the count, and name and walk of the last one -/
  arrive : KV Nat
  arriveAt : KV (Nat × Nat)
  /-- barriers that the task has arrived at and that have not completed: key, and the flag of the split
  form or 16 for the blocking one -/
  splits : List (Nat × Nat)
  /-- flags that a completed barrier of the split form has raised, with its scope, until a header wait passes
  on them (R269) -/
  departs : List (Nat × Nat)
  /-- what read-modify-writes have read at other dies (R188, R191) -/
  seen : List SeenRec
  /-- the decision in hand (R271, R278, R279, R312, R268) -/
  dec : Decision
  /-- the descriptor or record of the word whose decision is in hand -/
  desc : List Byte
deriving DecidableEq, Repr

/-- A context bank of a core, or a system core. -/
structure Bank where
  status : BankStatus
  place : Placement
  /-- text plane (R120) and its word count -/
  text : KV (BitVec 32)
  words : Nat
  wc : Walker
  wv : Walker
  wm : Walker
  wx : Walker
  /-- MODEL'S OWN: path words that C walks again, whose outcomes stand in the path FIFOs already -/
  again : Nat
  r : Regs
  q : Queues
  /-- system registers by number (R288); an unlisted one is at its reset value -/
  csr : KV Word
  mat : MatState
  xfer : XferState
  vec : List VecJob
  out : Outstanding
  trap : TrapState
  n : AcCounts
  /-- MODEL'S OWN: the present ac -/
  now : AcNow
  /-- routing counters (R282) -/
  cnt : KV (BitVec 32)
deriving DecidableEq, Repr

/-- A fresh walker at word 0. -/
def Walker.zero : Walker := { pc := 0, walk := 0, path := [], pops := 0, pfx := none, stall := .none }

/-- Registers as a scrub leaves them (R77). -/
def Regs.zero : Regs :=
  { s := [], bind := [], pend := [], p := 0, m := [], v := [], t := [], a := [], f := [], g := [],
    h := [] }

/-- Empty queues. -/
def Queues.empty : Queues := { lq := [], sq := [], cq := [], vq := [], oq := [], mq := [], xq := [] }

/-- The matrix state at task start (R349). -/
def MatState.start : MatState :=
  { m := 128, n := 128, k := 128, fa := 0, fb := 0, sa := [], sb := [], steps := 0,
    rfail := 0, suspect := 0, inject := false, last := BitVec.allOnes 64, window := [] }

/-- The transfer state at task start (R364). -/
def XferState.start : XferState :=
  { staging := { src := 0, dst := 0, shape := 0, pitch := 0, layout := 0, ctr := 0 }, window := [] }

/-- Nothing outstanding. -/
def Outstanding.none : Outstanding :=
  { acc := [], fences := [], scop := .none, tkt := [], faults := [], denied := .none, out := false,
    xwait := [], xacq := [], lastVec := 0, lastMat := 0, lastHist := 0, tfences := [], tdone := .none,
    vaccs := [], maccs := [], late := [], intrs := [],
    arrive := [], arriveAt := [], splits := [], departs := [], seen := [], dec := .none, desc := [] }

/-- A trap record that stands for no trap. -/
def PendTrap.zero : PendTrap :=
  { strand := .c, code := 0, tval := 0, walk := 0, pc := 0, deferred := false, arose := false }

/-- No trap. -/
def TrapState.none : TrapState :=
  { pending := [], handler := false, taken := PendTrap.zero, pfx := .none, dec := .none, desc := [], skips := [] }

/-- No placement. -/
def Placement.none : Placement :=
  { group := 0, vi := 0, rank := 0, tasks := 0, shape := 0, args := 0, wheel := 0, split := 0 }

/-- An idle, scrubbed bank (R77). -/
def Bank.idle : Bank :=
  { status := .idle, place := .none, text := [], words := 0, wc := .zero, wv := .zero, wm := .zero,
    wx := .zero, again := 0, r := .zero, q := .empty, csr := [], mat := .start, xfer := .start, vec := [],
    out := .none, trap := .none, n := .zero, now := .none, cnt := [] }

end Sys2Proof.Machine
end

