-- ==== Sys2Proof/Machine/Units.lean ====
section
/-! DEFINITION. The parts of the state outside the cores: fabric and links (03), boot (02), host
interface (04), Chanter (05), services and rings (06), power (07), fault collectors (09), parcels (10);
and the model's own record of whose turn it is. Plain data throughout. -/

namespace Sys2Proof.Machine

open Sys2Proof

/-- A packet: the header of R40 and the payload from byte 32 onward. -/
structure Packet where
  dest : Nat
  source : Nat
  inter : Nat
  op : Nat
  tenant : Nat
  sinc : Nat
  tinc : Nat
  core : Nat
  slot : Nat
  /-- reserved byte of the header (R40) -/
  rsv : Nat
  addr : Nat
  token : Nat
  body : List Byte
deriving DecidableEq, Repr

/-- A flit on the wire (R39): the header's fields, the payload (ciphertext) and the tag. -/
structure Flit where
  seq : Nat
  ack : Nat
  phase : Nat
  txc : Nat
  vc : Nat
  kind : Nat
  cvc : Nat
  ccnt : Nat
  pos : Nat
  rsv : Nat
  payload : List Byte
  tag : BitVec 128
deriving DecidableEq, Repr

/-- What a die sends in the authentication of R29. -/
structure DieReply where
  certificate : List Byte
  nonce : BitVec 256
  ephemeral : BitVec 768
  position : Nat
  measurement : BitVec 512
  signature : BitVec 768
deriving DecidableEq, Repr

/-- An encrypted granule message of a migration session (R63): the nonce's job number and message count,
the additional data (tenant, VA, round), the ciphertext and the tag. -/
structure GranuleMsg where
  job : Nat
  count : Nat
  vi : Nat
  va : Nat
  round : Nat
  cipher : List Byte
  tag : BitVec 128
deriving DecidableEq, Repr

/-- A packet that says nothing. -/
def Packet.zero : Packet :=
  { dest := 0, source := 0, inter := 0x3FF, op := 0, tenant := 0, sinc := 0, tinc := 0, core := 0,
    slot := 0, rsv := 0, addr := 0, token := 0, body := [] }

/-- A flit that says nothing. -/
def Flit.zero : Flit :=
  { seq := 0, ack := 0, phase := 0, txc := 0, vc := 0, kind := 0, cvc := 0, ccnt := 0, pos := 0,
    rsv := 0, payload := [], tag := 0 }

/-- MODEL'S OWN: what the agent of an event brings. Each event reads the fields its entry names. -/
structure Input where
  /-- the bank, port, die, cluster, interface, core or instance that the event is about -/
  who : Nat
  /-- a second number: an entry, an access, a command, a job, a slot -/
  sub : Nat
  /-- a third number -/
  third : Nat
  size : Nat
  value : BitVec 128
  data : List Byte
  strand : Strand
  check : Residue
  ok : Bool
  packet : Packet
  flit : Flit
  reply : DieReply
  granule : GranuleMsg
  celsius : Int
  list : List Nat
  ports : List Nat
deriving DecidableEq, Repr

/-- An input that says nothing. -/
def Input.none : Input :=
  { who := 0, sub := 0, third := 0, size := 0, value := 0, data := [], strand := .c, check := .pass,
    ok := false, packet := Packet.zero, flit := Flit.zero,
    reply := { certificate := [], nonce := 0, ephemeral := 0, position := 0, measurement := 0,
               signature := 0 },
    granule := { job := 0, count := 0, vi := 0, va := 0, round := 0, cipher := [], tag := 0 }, celsius := 25, list := [],
    ports := [] }

/-- MODEL'S OWN: the strand that executes a word. -/
structure Actor where
  bank : Nat
  strand : Strand
deriving DecidableEq, Repr

/-- MODEL'S OWN: who moves in a turn. -/
inductive Act where
  /-- a strand executes the word it stands at -/
  | strand (bank : Nat) (e : Strand)
  /-- another agent's event, with what it brings -/
  | event (i : Instr) (inp : Input)
deriving DecidableEq, Repr

/-- MODEL'S OWN: a turn, and the picoseconds that pass before it. -/
structure Turn where
  ps : Nat
  act : Act
deriving DecidableEq, Repr

/-- The phase of the module (R26, R27). -/
inductive Phase where
  /-- held in reset -/
  | inReset
  /-- past step 3 of boot: images verified, dies being authenticated (R29) -/
  | dies
  /-- the system cores run -/
  | running
  /-- boot failed; reported on the management port (R26) -/
  | bootFail
  /-- every compute die is fenced (R27) -/
  | noDie
deriving DecidableEq, Repr

/-- Memory: address and byte pairs in one canonical form (addresses strictly rising, no entry equal to
what an unlisted address reads as). -/
abbrev Memory := List Host.Cell

/-- An entry of a TLB (R145), with the leaf it was made from. -/
structure TlbEntry where
  /-- where it is held: 0-511 a core's control TLB, 512-1023 a core's transfer TLB, 1024-1087 a
  cluster's, 1088-1092 a die's last level -/
  place : Nat
  tenant : Nat
  /-- first address of the page and its size -/
  va : Nat
  size : Nat
  leaf : Nat
  /-- accesses counted through a MIGRATE entry of a last level (R143), and whether it has reported -/
  count : Nat
  reported : Bool
deriving DecidableEq, Repr

/-- An entry of a die's walk cache (R145): for a tenant, the table at a level that covers the addresses from `va`, as
reached from the root that PTROOT held (R140). -/
structure WalkEntry where
  die : Nat
  tenant : Nat
  root : Nat
  level : Nat
  va : Nat
  table : Nat
deriving DecidableEq, Repr

/-- How a line stands in its set (R228, R317). -/
inductive LineClass where
  | normal
  | stream
  | keep
deriving DecidableEq, Repr

/-- Which line it is: a local one by its physical address, or a REMOTE_CACHED one of a tenant by peer, token and
offset in the peer's window (R143, R144). -/
structure LineKey where
  /-- tenant, peer and token, or none for a local line -/
  home : Option (Nat × Nat × Nat)
  /-- address or offset, in lines of 64 bytes -/
  line : Nat
deriving DecidableEq, Repr

/-- A line in an L2 slice; a REMOTE_CACHED one with its bytes, and the virtual addresses under which it has been
read (R146). -/
structure L2Line where
  cluster : Nat
  key : LineKey
  vas : List Nat
  cls : LineClass
  data : List Byte
deriving DecidableEq, Repr

/-- A request slot in use (R47): the request, its bank and access, and when it was taken. -/
structure Slot where
  bank : Nat
  access : Nat
  /-- the ticket entry that is being replayed, if any -/
  ticket : Option Nat
  req : RemReq
  op : Nat
  sent : Nat
  /-- a `post` try: the route position -/
  pos : Nat
  /-- it has been taken at issue and its request is not sent yet -/
  held : Bool
deriving DecidableEq, Repr

/-- A core: request slots and their generations, and the choice among its banks (R47, R376, R123). -/
structure Core where
  slots : KV Slot
  gens : KV Nat
  /-- the bank, 0 or 1, that takes the next contested shared slot (R376) -/
  next : Nat
  /-- the bank, 0 or 1, that each engine serves when both are ready, by the engine's strand code (R123) -/
  turn : KV Nat
deriving DecidableEq, Repr

/-- A core after reset. -/
def Core.reset : Core := { slots := [], gens := [], next := 0, turn := [] }

/-- A loaded image (R26, R32). -/
structure Image where
  target : Nat
  bank : Nat
  version : Nat
  digest : BitVec 512
deriving DecidableEq, Repr

/-- A die's authentication (R29): 0 not begun, 1 challenge sent, 2 replied to, 3 authenticated,
4 fenced; when the present step began (ps); the result that DAUTH shows, the digest of the image sent to it, and
the ranges of die-link and fabric revisions that it offers (R30, R31). -/
structure DieAuth where
  stage : Nat
  since : Nat
  result : Nat
  nonceS : BitVec 256
  nonceD : BitVec 256
  /-- MODEL'S OWN: which free value the security processor's key pair is -/
  keyNo : Nat
  ephS : BitVec 768
  ephD : BitVec 768
  key : BitVec 256
  measurement : BitVec 512
  linkLo : Nat
  linkHi : Nat
  fabLo : Nat
  fabHi : Nat
deriving DecidableEq, Repr

/-- A die before its authentication. -/
def DieAuth.reset : DieAuth :=
  { stage := 0, since := 0, result := 0, nonceS := 0, nonceD := 0, keyNo := 0, ephS := 0, ephD := 0, key := 0,
    measurement := 0, linkLo := 0, linkHi := 0, fabLo := 0, fabHi := 0 }

/-- Boot and trust (02), and what the module is fitted with (01). -/
structure Boot where
  flash : Memory
  /-- fuses: key hashes, revoked bits, minimum rollback levels (R25) -/
  keyHash : KV (BitVec 512)
  revoked : KV Bool
  rollback : KV Nat
  /-- incarnation in the monotonic store (R28); 0 before the first boot -/
  incarnation : Nat
  moduleNo : Nat
  images : List Image
  dies : KV DieAuth
  fenced : List Nat
  /-- the disabled physical cluster of each die (R12) -/
  disabled : KV Nat
  /-- CXL: populated bytes of each port, and whether its link is up -/
  cxlSize : KV Nat
  cxlUp : KV Bool
  revision : Nat
  fabricRev : Nat
  ingressKey : BitVec 256
  /-- the 128-byte capability record (R22) -/
  capability : List Byte
  /-- what the management port reports (R26, R27) -/
  i3c : List Nat
deriving DecidableEq, Repr

/-- Boot state at reset. -/
def Boot.reset : Boot :=
  { flash := [], keyHash := [], revoked := [], rollback := [], incarnation := 0, moduleNo := 0,
    images := [], dies := [], fenced := [], disabled := [], cxlSize := [], cxlUp := [], revision := 0,
    fabricRev := 0, ingressKey := 0, capability := [], i3c := [] }

/-- A flit in a replay buffer or waiting to be sent (plaintext inside the link's secure boundary). -/
structure BufFlit where
  seq : Nat
  vc : Nat
  pos : Nat
  payload : List Byte
  /-- how often it has been sent under the present phase: the txc of its next transmission (R39, R41) -/
  txc : Nat
  /-- port and channel whose receive buffer the flit still fills, for a flit that this module forwards (R38) -/
  from_ : Option (Nat × Nat)
deriving DecidableEq, Repr

/-- One fabric port (R38-R44). -/
structure Link where
  trained : Bool
  /-- a retrain is under way -/
  training : Bool
  revision : Nat
  secret : BitVec 384
  /-- transmitter: next data seq, its epoch, last ack, next control seq and its epoch -/
  txSeq : Nat
  txEpoch : Nat
  acked : Nat
  ctlSeq : Nat
  ctlEpoch : Nat
  txGen : Nat
  txPhase : Nat
  /-- a switch under way: the first seq sent under the new key, once one has been -/
  switching : Bool
  firstNew : Option Nat
  sentUnderKey : Nat
  buf : List BufFlit
  /-- flits waiting for a credit or for room, per channel -/
  queue : List BufFlit
  credits : KV Nat
  /-- receiver: next expected data seq and epoch, last control seq accepted and its epoch, generation and phase -/
  rxSeq : Nat
  rxEpoch : Nat
  rxCtl : Option Nat
  rxCtlEpoch : Nat
  rxGen : Nat
  rxPhase : Nat
  /-- flits that the receiver has discarded in a row (R41) -/
  discards : Nat
  /-- a retrain is due, whatever comes before its event (R41) -/
  due : Bool
  /-- credits to return, per channel -/
  owed : KV Nat
  /-- packets partly received, per channel -/
  part : KV (List Byte)
  /-- when ack last made progress, and when the present key came into use (ps) -/
  ackAt : Nat
  keyAt : Nat
  /-- what has been put on the wire, newest last -/
  wire : List Flit
deriving DecidableEq, Repr

/-- A port before training. -/
def Link.reset : Link :=
  { trained := false, training := false, revision := 0, secret := 0, txSeq := 0, txEpoch := 0,
    acked := 0, ctlSeq := 0, ctlEpoch := 0, txGen := 0, txPhase := 0, switching := false,
    firstNew := none, sentUnderKey := 0, buf := [], queue := [], credits := [], rxSeq := 0,
    rxEpoch := 0, rxCtl := none, rxCtlEpoch := 0, rxGen := 0, rxPhase := 0, discards := 0, due := false, owed := [], part := [],
    ackAt := 0, keyAt := 0, wire := [] }

/-- An owner-side ticket record (R154). -/
structure OwnerTicket where
  number : Nat
  die : Nat
  /-- who asked: module, incarnation, core and tenant -/
  source : Nat
  sinc : Nat
  core : Nat
  tenant : Nat
  window : Nat
  /-- the owning tenant and the virtual address -/
  owner : Nat
  va : Nat
  size : Nat
  tkind : Nat
deriving DecidableEq, Repr

/-- A request that an owner answered with retry and that waits 1 us (R154). -/
structure Retry where
  id : Nat
  bank : Nat
  access : Nat
  req : RemReq
  ticket : Option Nat
  at_ : Nat
deriving DecidableEq, Repr

/-- The answer to a peer's write or read-modify-write, which waits until its writes are applied on every die
(R198): their names, the request and the data. -/
structure Answer where
  ids : List Nat
  /-- the die on which they are waited for, or none for every die -/
  die : Option Nat
  packet : Packet
  data : List Byte
deriving DecidableEq, Repr

/-- A peer's request that has passed its checks and its translation, and waits to be performed: its name at a memory
port (R105), and where its bytes are (R50). -/
structure OwnerReq where
  id : Nat
  packet : Packet
  pa : Nat
  die : Nat
  tenant : Nat
  va : Nat
deriving DecidableEq, Repr

/-- The fabric as a module sees it (03). -/
structure Fabric where
  links : KV Link
  /-- requests of peers under way -/
  inbox : List OwnerReq
  owner : List OwnerTicket
  nextTicket : Nat
  answers : List Answer
  retries : List Retry
  /-- joins reported to the module operating system (R46) -/
  joins : List (Nat × Nat)
deriving DecidableEq, Repr

/-- The fabric at reset. -/
def Fabric.reset : Fabric :=
  { links := [], inbox := [], owner := [], nextTicket := 0, answers := [], retries := [], joins := [] }

/-- A faulter (R150): what waits on a granule. -/
inductive Faulter where
  /-- the control strand of a bank -/
  | ctl (bank : Nat)
  /-- a granule of a bank's transfer command at a walk index -/
  | granule (bank walk : Nat)
  /-- an owner-side ticket -/
  | ticket (number : Nat)
  /-- the loader, for a group -/
  | loader (group : Nat)
  /-- a service job -/
  | job (inst number : Nat)
  /-- a parcel delivery -/
  | delivery (handle : Nat)
  /-- the header of a parcel that hardware writes -/
  | header (id : Nat)
  /-- a host access of an interface -/
  | host (vi : Nat)
deriving DecidableEq, Repr

/-- An entry of a batch (R150): tenant, granule number, kinds and faulters. -/
structure FaultEntry where
  tenant : Nat
  granule : Nat
  kinds : Nat
  faulters : List Faulter
deriving DecidableEq, Repr

/-- A range of a batch (R150, R151). -/
structure FaultRange where
  tenant : Nat
  va : Nat
  count : Nat
  kinds : Nat
  faulters : List Faulter
  answered : Bool
deriving DecidableEq, Repr

/-- A closed or delivered batch (R151). -/
structure Batch where
  die : Nat
  serial : Nat
  time : Nat
  ranges : List FaultRange
deriving DecidableEq, Repr

/-- The open batch of a die and when its first entry came. -/
structure OpenBatch where
  entries : List FaultEntry
  since : Nat
  /-- faults that wait for room (R152) -/
  waiting : List FaultEntry
deriving DecidableEq, Repr

/-- The fault collectors (R150-R153). -/
structure Collectors where
  dies : KV OpenBatch
  closed : List Batch
  delivered : List Batch
  nextSerial : Nat
  /-- interrupts raised to the system cores, by name of their source -/
  irqs : List Nat
deriving DecidableEq, Repr

/-- The collectors at reset: the first batch has serial 1 (R151). -/
def Collectors.reset : Collectors :=
  { dies := [], closed := [], delivered := [], nextSerial := 1, irqs := [] }

/-- The state of a parcel (R175). -/
inductive ParcelState where
  | opened
  | inTransit
  | pending
  | arrived
  | bounced
deriving DecidableEq, Repr

/-- An entry of the parcel table (R168). -/
structure Parcel where
  /-- MODEL'S OWN: its name, since a module may hold two entries of a handle that it posts to itself -/
  id : Nat
  handle : Nat
  tenant : Nat
  base : Nat
  length : Nat
  state : ParcelState
  /-- receiving die and order of arrival (R181) -/
  die : Nat
  order : Nat
  /-- one more than the module time at which it became ARRIVED here, 0 where it has not (R377) -/
  since : Nat
  /-- the module that its last delivery goes or went to; this module's own number before any (R176) -/
  peer : Nat
  /-- span of a pool parcel: the pool's PRPOOL value and its first granule; none for a `pmake` -/
  span : Option (Nat × Nat)
deriving DecidableEq, Repr

/-- A delivery under way (R177-R179). -/
structure Delivery where
  /-- the entry's name in the parcel table -/
  entry : Nat
  handle : Nat
  /-- sending bank and the flag that rises, at the sender; none at the receiver -/
  sender : Option (Nat × Nat)
  /-- the other module, its incarnation when the delivery was admitted, and the token -/
  peer : Nat
  inc : Nat
  token : Nat
  /-- the receiving die, and the span's first byte in the window -/
  die : Nat
  off : Nat
  /-- bytes, and bytes sent or written -/
  length : Nat
  done : Nat
  /-- the interface and the global core of the task that posted it (R40) -/
  vi : Nat
  core : Nat
  /-- at the sender: the read of its next granule that stands at the memory ports (R105), by name and physical address -/
  read : Option (Nat × Nat)
  /-- at the receiver: the packets whose writes stand at the memory ports, by name and physical address -/
  queue : List (Nat × Nat × Packet)
  /-- when the last of its packets was sent (ps) -/
  at_ : Nat
  /-- job number at the receiving unit -/
  job : Nat
  /-- writes of a sender wait for the change to IN_TRANSIT (R182); at the receiver, a write waits for the
  answer to a fault, with the packets that have come since -/
  waiting : Bool
  held : List Packet
deriving DecidableEq, Repr

/-- Bytes of a parcel's header that hardware has to write on a page that does not take them now (R162, R169). -/
structure HeldHeader where
  id : Nat
  tenant : Nat
  va : Nat
  bytes : List Byte
  /-- it is the count of bounces, one more than the header then holds (R176), in place of the bytes -/
  bump : Bool
deriving DecidableEq, Repr

/-- The hub's parcel table (R168). -/
structure Parcels where
  table : List Parcel
  nextSerial : Nat
  nextOrder : Nat
  deliveries : List Delivery
  headers : List HeldHeader
deriving DecidableEq, Repr

/-- The parcel table at reset: serials start at 1 (R167). -/
def Parcels.reset : Parcels :=
  { table := [], nextSerial := 1, nextOrder := 0, deliveries := [], headers := [] }

end Sys2Proof.Machine
end

