-- ==== Sys2Proof/Machine/Agents.lean ====
section
/-! DEFINITION. The parts of the state of the module's other agents: the Chanter (05), the service
instances and rings (06), the power controllers (07) and the host interface (04). -/

namespace Sys2Proof.Machine

open Sys2Proof

/-- Who asks a service: a bank's control strand, a host launch window, or a peer's request. -/
inductive Asker where
  /-- a bank, for the choice position `pos` of its list -/
  | bank (b : Nat)
  /-- a host launch window of an interface -/
  | window (vi w : Nat)
  /-- a peer's PTRY (R177): module, requester number within it (2 core; the bank for this module's own)
  and slot byte -/
  | peer (module n slot : Nat)
deriving DecidableEq, Repr

/-- A launch before the Chanter (R66): who launches and the record. -/
structure Launch where
  asker : Asker
  vi : Nat
  window : Nat
  seq : Nat
  record : List Byte
  /-- the job that stands for its place (R386) -/
  job : Nat
  /-- the ac, of 600 MHz, in which it reached the Chanter (R67) -/
  ac : Nat
deriving DecidableEq, Repr

/-- How a victim leaves its banks (R71, R73). -/
inductive Leave where
  | stay
  | drain
  | checkpoint
  | kill
deriving DecidableEq, Repr

/-- A group (R66, R73, R76). -/
structure Group where
  id : Nat
  vi : Nat
  /-- launching window and its sequence number, for the completion entries of a host launch -/
  window : Nat
  seq : Nat
  record : List Byte
  /-- banks in rank order -/
  members : List Nat
  leave : Leave
  /-- when it was marked (ps), for R73; whether CHCFG.drain has passed since, and it could not be checkpointed -/
  since : Nat
  late : Bool
  /-- the interface that paid for it and what it paid -/
  payer : Nat
  paid : Nat
  /-- tasks that ended normally -/
  ended : Nat
  /-- reason of the first kill -/
  killed : Option Nat
  /-- checkpoints taken (R78) -/
  sequence : Nat
  /-- text words, read once (R75) -/
  text : List (BitVec 32)
  loaded : Bool
  /-- the read of more of them that stands at the memory ports (R105), by name and physical address -/
  reading : Option (Nat × Nat)
  /-- name of the launching word's release (R279) -/
  release : Option Nat
  closed : Bool
  /-- names of the writes that its end waits for (R57), and whether the completion line has been dealt with -/
  marks : List (Nat × Nat)
  lineDone : Bool
  /-- banks kept for it that it has not received yet (R72) -/
  kept : List Nat
  /-- an entry is owed for its end: not after a function level reset (R58) -/
  owed : Bool
deriving DecidableEq, Repr

/-- MODEL'S OWN: a context record that this module has written (R78), with what its bytes stand for: the
bank as it stood, the group's launch record and the scratchpad window. The spec gives the headers of a record
and of its sections, and not the encoding within them. -/
structure Saved where
  bytes : List Byte
  bank : Bank
  record : List Byte
  window : List Byte
deriving DecidableEq, Repr

/-- The Chanter (05). -/
structure Chanter where
  groups : KV Group
  serial : Nat
  pointer : Nat
  /-- CHTOK registers that the system cores have written, by interface: the service-clock cycle of the write, and the
  balance that it wrote over (R81) -/
  written : KV (Nat × Nat)
  /-- mirror (R68): banks reported idle, and scratchpad units that a bank's window takes -/
  idle : KV Bool
  units : KV Nat
  queue : List Launch
  saved : List Saved
  /-- last sequence restored for a group (R80), and the launch window of a group that was saved (R56) -/
  restored : KV Nat
  windows : KV Nat
  /-- the groups that a pre-emption has saved, as they were (R64, R73) -/
  parked : KV Group
  /-- checkpointed groups that have not ended, each with its interface and whether a restore of it has failed
  (RESTORE_FAILED, R80); one whose restore has not failed keeps its reservation (R54) -/
  away : KV (Nat × Bool)
  /-- a restore under way: its group, and the records by rank -/
  restore : Option (Nat × List (List Byte))
deriving DecidableEq, Repr

/-- The Chanter at reset. -/
def Chanter.reset : Chanter :=
  { groups := [], serial := 0, pointer := 0, written := [], idle := [], units := [], queue := [], saved := [],
    restored := [], windows := [], parked := [], away := [], restore := none }

/-- How far the request of a fabric copy has come (R154, R274). -/
inductive CopyState where
  | sent
  /-- the owner has answered with a ticket, and its notice has not come -/
  | ticket
  /-- it is sent again at a time -/
  | again
deriving DecidableEq, Repr

/-- The request of a fabric copy (R298): where its bytes lie, the peer's incarnation, when it was sent or is to be
sent again (ps), and the bytes of a write. -/
structure CopyReq where
  peer : Nat
  off : Nat
  token : Nat
  size : Nat
  inc : Nat
  state : CopyState
  at_ : Nat
  data : List Byte
  /-- the number of the owner's ticket -/
  number : Nat
deriving DecidableEq, Repr

/-- What a shared-engine job has in hand: the read that it has asked a memory port for (R105), a gather's index, the
bytes of its contribution to a collective or of a copy's answer, the ring cycle in which the whole contribution arrived
(R100), and a copy's request. -/
structure JobWork where
  read : Option Nat
  /-- the physical lines of that read -/
  lines : List Nat
  idx : Option Nat
  got : List Byte
  arrived : Option Nat
  copy : Option CopyReq
deriving DecidableEq, Repr

/-- A job with nothing in hand. -/
def JobWork.none : JobWork := { read := .none, lines := [], idx := .none, got := [], arrived := .none, copy := .none }

/-- A job that a service instance has admitted (R83): a shared-engine job, a delivery that a parcel
receive unit receives, a current region, or the decision of a launch. -/
structure Job where
  number : Nat
  asker : Asker
  tenant : Nat
  k : Nat
  /-- it occupies its places (not once it has been ended at E, nor where it shares another's place) -/
  occupies : Bool
  /-- the job whose place a collective member shares (R271 step 4) -/
  share : Option Nat
  /-- when it was admitted: module time in ps, and ac of the instance's cluster -/
  since : Nat
  sinceAc : Nat
  /-- name and walk index of the word that asked, for R276 -/
  id : Nat
  walk : Nat
  /-- engreq: the 64-byte descriptor and its VA -/
  desc : List Byte
  va : Nat
  /-- elements, rows or bytes completed -/
  done : Nat
  /-- why it is ending (R275): 0 while it runs, else its status code, 1 once its work is done -/
  ending : Nat
  /-- completion steps taken (R275): 0 none, 1 status written or skipped, 2 counter too -/
  stage : Nat
  /-- names of the writes it has made -/
  ids : List Nat
  /-- FSTAT bits raised -/
  flags : Nat
  /-- a fault that is not answered, and an answer of ACCESS -/
  fault : Option Nat
  denied : Bool
  work : JobWork
  /-- fmax recorded by a current region (R111), and its level -/
  fmax : Nat
  level : Nat
deriving DecidableEq, Repr

/-- An entry of a hold list (R92). -/
structure Holder where
  asker : Asker
  tenant : Nat
  k : Nat
  held : Nat
  offered : Bool
  /-- the count that its request keeps: 0-7 a route list, 8 `launch`, 9 `pwr.acq` -/
  list : Nat
  /-- when the hold window started: module time in ps, and ac of the requester's cluster -/
  since : Nat
  sinceAc : Nat
deriving DecidableEq, Repr

/-- A try waiting for its decision cycle (R88, R89). -/
structure Try where
  asker : Asker
  tenant : Nat
  k : Nat
  pos : Nat
  /-- the request's first choice, and the count that it keeps -/
  first : Nat
  list : Nat
  desc : List Byte
  va : Nat
  id : Nat
  walk : Nat
  /-- the instance's decision cycle in which it arrived; it is decided in a later one (R84, R89) -/
  cycle : Nat
  /-- a peer's: its PTRY, and the grant window as its checks found it (R50) -/
  ptry : Packet
  gwin : Nat
deriving DecidableEq, Repr

/-- A service instance (R82). -/
structure Inst where
  jobs : List Job
  holds : List Holder
  tries : List Try
  /-- rotating pointer over requester numbers (R89) -/
  pointer : Nat
  /-- counters of R97: key 8 vi + number -/
  count : KV Nat
  next : Nat
  /-- first-choice tries of other modules' requesters that have been refused here, the last of each (R91) -/
  declined : List Try
  /-- MODEL'S OWN: the decision cycle that the four fields below belong to -/
  cycle : Nat
  /-- it has begun: free places have gone to holders (R89) -/
  begun : Bool
  /-- places freed in it, which count as free from the next (R84) -/
  freed : Nat
  /-- events decided in it, by counter, and the counters as it found them (R97) -/
  recent : KV Nat
  before : KV Nat
  /-- ADMQ values that have been written over in it and are in force until the next, by tenant (R90) -/
  quotas : KV Nat
deriving DecidableEq, Repr

/-- An instance with nothing in it. -/
def Inst.empty : Inst :=
  { jobs := [], holds := [], tries := [], pointer := 0, count := [], next := 0, declined := [], cycle := 0, begun := false,
    freed := 0, recent := [], before := [], quotas := [] }

/-- An access queued at a memory port (R105): who made it, its name, and the channel of its die that it goes to. -/
structure PortReq where
  tenant : Nat
  id : Nat
  channel : Nat
deriving DecidableEq, Repr

/-- Services, rings and memory ports (06). Instances are keyed by route-list entry (R85), the module
field of kind 5 left out. -/
structure Services where
  inst : KV Inst
  /-- ring positions: key 65536 d + 256 r + position, the owning station (R101) -/
  ring : KV Nat
  /-- changes that wait for the frame boundary (R103) -/
  ringNext : List (Nat × Nat)
  /-- cores that hold a shortfall, in the order they arose (R104) -/
  shortfalls : List Nat
  /-- memory-port queues by 16 die + port, oldest first -/
  ports : KV (List PortReq)
  /-- port slot index within the round, by 16 die + port -/
  slot : KV Nat
  /-- the memory-port table in force for the round, by 64 (16 die + port) + entry -/
  table : KV Nat
  /-- writes of QMODE that wait for accesses in flight, oldest first: register and value (R19) -/
  modes : List (Nat × Nat)
deriving DecidableEq, Repr

/-- Services at reset. -/
def Services.reset : Services :=
  { inst := [], ring := [], ringNext := [], shortfalls := [], ports := [], slot := [],
    table := [], modes := [] }

/-- The states of a cluster controller (R110). -/
inductive CtlState where
  | steady
  | vup
  | fup
  | fdn
  | vdn
deriving DecidableEq, Repr

/-- A cluster's clock and controller (R107-R113). -/
structure Cluster where
  ctl : CtlState
  /-- ac counted since reset, and the fraction of an ac that has passed, in micro-ac -/
  ac : Nat
  frac : Nat
  /-- the clock stands for a frequency step, or does so once the ac in progress has ended (R108) -/
  stopped : Bool
  stopping : Bool
  /-- when the step in progress began (ps), and the voltage asked for in mV -/
  stepAt : Nat
  target : Nat
  /-- a stretch is in force (R113), the stretched ac left, and ac until a new one may start -/
  stretched : Bool
  stretch : Nat
  quiet : Nat
  /-- the sample's counts: stalled ac and live ac (R109), and when it began -/
  stalled : Nat
  live : Nat
  since : Nat
  /-- matrix steps and vector operations marked suspect by a droop: bank and name (R113) -/
  suspect : List (Nat × Nat)
deriving DecidableEq, Repr

/-- A cluster after reset. -/
def Cluster.reset : Cluster :=
  { ctl := .steady, ac := 0, frac := 0, stopped := false, stopping := false, stepAt := 0, target := 750, stretched := false,
    stretch := 0, quiet := 0, stalled := 0, live := 0, since := 0, suspect := [] }

/-- Power, refresh and the slot wheel (07, 11 R195). -/
structure Power where
  clusters : KV Cluster
  /-- temperature of a channel's bank by 4096 die + 64 channel + bank -/
  temps : KV Int
  /-- when a bank was last refreshed (ps) -/
  refreshed : KV Nat
  /-- free granules of each die as the channels hold them, by 2^18 die + granule -/
  free : KV Bool
  /-- the bitmap is being loaded, by die -/
  loading : KV Bool
deriving DecidableEq, Repr

/-- Power at reset. -/
def Power.reset : Power :=
  { clusters := [], temps := [], refreshed := [], free := [], loading := [] }

/-- The states of a pre-copy job (R64). -/
inductive MigPhase where
  | rounds
  | stopping
  | final
  | done
  | failed
deriving DecidableEq, Repr

/-- A pre-copy job at its source (R63, R64). -/
structure Precopy where
  job : Nat
  phase : MigPhase
  /-- the job's threshold and round limit -/
  threshold : Nat
  limit : Nat
  round : Nat
  /-- the round's snapshot has been made; how many granules it reported, and those not sent yet, by index in
  the range -/
  begun : Bool
  reported : Nat
  todo : List Nat
  key : BitVec 256
  /-- messages sent under the key -/
  count : Nat
  /-- groups that have stopped for it, as they were, with their records; the context records have been sent -/
  stopped : List (Group × List Saved)
  /-- groups of the interface that a pre-emption had stopped before, with their records (R64) -/
  parked : List (Group × List Saved)
  sent : Bool
  /-- the tenant's entries of the parcel table that have moved with its last round (R181) -/
  parcels : List Parcel
deriving DecidableEq, Repr

/-- A migration session at its destination (R63). -/
structure Session where
  job : Nat
  key : BitVec 256
  /-- VAs reported because their message's tag did not verify -/
  resend : List Nat
deriving DecidableEq, Repr

/-- A host access that waits at the hub (R55). -/
inductive HostOp where
  /-- a launch record: window, sequence number and record -/
  | launch (w seq : Nat) (record : List Byte)
  /-- a read of the memory window that stands at the memory ports under a name, and its physical spans (R105) -/
  | reading (id : Nat) (spans : List (Nat × Nat))
  /-- a read through BAR2: offset and bytes -/
  | read (off n : Nat)
  /-- a write through BAR2 -/
  | write (off : Nat) (data : List Byte)
deriving DecidableEq, Repr

/-- What a virtual interface shows its host (R51-R59). -/
structure Vi where
  cqBase : Nat
  cqCtl : Nat
  cqHead : Nat
  cqTail : Nat
  /-- passes through the area, which give the phase (R57), and entries written and not yet consumed -/
  pass : Nat
  unread : Nat
  /-- launch write count (R56), and entries owed: launches being decided and admitted groups (R54) -/
  launches : Nat
  reserved : Nat
  /-- VISTAT: launch writes dropped, window accesses failed -/
  dropped : Nat
  failed : Nat
  /-- MSI-X: the address and data of each vector's message, masked vectors, pending bits, messages sent (oldest
  first) -/
  msix : KV (Nat × Nat)
  masked : List Nat
  pending : List Nat
  sent : List Nat
  /-- refusals in a row of each launch window (R86) -/
  refusals : KV Nat
  precopy : Option Precopy
  /-- the session at the destination of a migration (R63) -/
  session : Option Session
  /-- the tenant's context key that has come within a session; none where it is this module's own (R78) -/
  contextKey : Option (BitVec 256)
  /-- the DOE mailbox (R59): the last response, and the messages that the next signature covers: those
  that settled version, capabilities and algorithms, and those that came since about certificates -/
  doe : List Byte
  vca : List Byte
  mid : List Byte
  /-- host accesses in order of arrival, whether the first waits on a fault, and the names of writes made
  through BAR2 (R55) -/
  waits : List HostOp
  stuck : Bool
  posted : List Nat
  /-- what the last host read returned, none for Completer Abort (R55) -/
  answer : Option (List Byte)
deriving DecidableEq, Repr

/-- An interface at reset; every MSI-X vector is masked, as PCI Express resets it (PRESUMED, log entry 54). -/
def Vi.reset : Vi :=
  { cqBase := 0, cqCtl := 0, cqHead := 0, cqTail := 0, pass := 1, unread := 0, launches := 0,
    reserved := 0, dropped := 0, failed := 0, msix := [], masked := List.range 64, pending := [], sent := [], refusals := [],
    precopy := none, session := none, contextKey := none, doe := [], vca := [], mid := [], waits := [], stuck := false,
    posted := [], answer := some [] }

/-- The host interface (04). -/
structure HostIf where
  vis : KV Vi
  /-- host memory, where the completion areas lie -/
  mem : Memory
  /-- what is on the way to other halls, newest last: granule messages (R63), context records by job (R64), entries of
  the parcel table by job (R181) -/
  outbox : List GranuleMsg
  records : List (Nat × List Byte)
  entries : List (Nat × Parcel)
  /-- the next pre-copy job number -/
  nextJob : Nat
deriving DecidableEq, Repr

/-- The host interface at reset. -/
def HostIf.reset : HostIf := { vis := [], mem := [], outbox := [], records := [], entries := [], nextJob := 0 }

end Sys2Proof.Machine
end

