-- ==== Sys2Proof/Machine/State.lean ====
section
/-! DEFINITION. The state of a whole Camius module, its reasons to stop, and the state after reset. -/

namespace Sys2Proof.Machine

open Sys2Proof

/-- Why the machine stops with a fault: for no reason, so that nothing raises one. Whatever a word or an event meets,
the spec gives the module a next state. -/
inductive Fault where
deriving DecidableEq, Repr

/-- Why the machine has no meaning for an instruction. -/
inductive Refusal where
  /-- Raised by an arm of `exec` whose instruction has no meaning yet. Safe. -/
  | notModelled (mnemonic : String)
deriving DecidableEq, Repr

/-- The whole module. -/
structure State where
  /-- MODEL'S OWN: who moves next, and how much time passes before each turn -/
  agenda : List Turn
  /-- MODEL'S OWN: the strand that executes a word -/
  cur : Actor
  /-- MODEL'S OWN: what the agent of an event brings -/
  input : Input
  /-- MODEL'S OWN: the counter that names free values -/
  freeCtr : Nat
  /-- MODEL'S OWN: the counter that names accesses, commands and writes in order of issue -/
  nextId : Nat
  /-- MODEL'S OWN: the next place in coherence order (R188) -/
  nextOrd : Nat
  /-- the module's phase (R26, R27) -/
  phase : Phase
  /-- module time in picoseconds (R56, R289) -/
  time : Nat
  /-- hub registers by offset in hub register space (R15); an unlisted one is at its reset value -/
  hub : KV Nat
  banks : KV Bank
  cores : KV Core
  /-- memory by physical address -/
  mem : Memory
  /-- scratchpads: byte 2^20 core + core byte (R129) -/
  scr : Memory
  writes : List Write
  /-- vector clocks: entry 5 e + k is die e's entry for die k (R190) -/
  vc : KV Nat
  tlb : List TlbEntry
  /-- the walk caches of the dies (R145) -/
  walks : List WalkEntry
  /-- lines held in the L2 slices (R143, R228) -/
  l2 : List L2Line
  boot : Boot
  fab : Fabric
  faults : Collectors
  parcels : Parcels
  host : HostIf
  chanter : Chanter
  svc : Services
  power : Power
deriving DecidableEq, Repr

/-- The state right after reset: the module is held in reset until BOOT_START (R26). -/
def State.reset : State :=
  { agenda := [], cur := { bank := 0, strand := .c }, input := Input.none, freeCtr := 0, nextId := 0,
    nextOrd := 0, phase := .inReset, time := 0, hub := [], banks := [], cores := [], mem := [],
    scr := [], writes := [], vc := [], tlb := [], walks := [], l2 := [], boot := Boot.reset, fab := Fabric.reset,
    faults := Collectors.reset, parcels := Parcels.reset, host := HostIf.reset,
    chanter := Chanter.reset, svc := Services.reset, power := Power.reset }

end Sys2Proof.Machine
end

