-- ==== Sys2Proof/Machine/Ops.lean ====
section
/-! DEFINITION. The named operations over registers, walks, queues and traps (chapters 08, 09, 14). -/

namespace Sys2Proof.Machine

open Sys2Proof

/-! ### Where a bank stands -/

/-- Banks 0-1023 are the context banks, bank `2 c + b` being bank `b` of global core `c` (R13); from 1024
on stand the system cores (R290). -/
def isSys (b : Nat) : Bool := 1024 ≤ b

/-- The global core of a bank. -/
def coreOf (b : Nat) : Nat := b / 2

/-- The cluster of a bank: 16 logical clusters a die, 8 cores each; the hub counts as cluster 64. -/
def clusterOf (b : Nat) : Nat := if isSys b then 64 else b / 16

/-- The die of a bank (R183); a system core stands on the hub, die 4. -/
def dieOf (b : Nat) : Nat := if isSys b then 4 else b / 256

/-- The bank that is not listed: idle, or a system core. -/
def Bank.unlisted (b : Nat) : Bank :=
  if isSys b then { Bank.idle with status := .system } else Bank.idle

/-- A bank of the state. -/
def State.bank (s : State) (b : Nat) : Bank := KV.get (Bank.unlisted b) s.banks b

/-- Replaces a bank. -/
def State.setBank (s : State) (b : Nat) (B : Bank) : State := { s with banks := KV.put s.banks b B }

/-- Changes a bank. -/
def State.updBank (s : State) (b : Nat) (f : Bank → Bank) : State := s.setBank b (f (s.bank b))

/-- A core of the state. -/
def State.core (s : State) (c : Nat) : Core := KV.get Core.reset s.cores c

/-- Changes a core. -/
def State.updCore (s : State) (c : Nat) (f : Core → Core) : State :=
  { s with cores := KV.put s.cores c (f (s.core c)) }

/-! ### Scalars and predicates (R247, R171) -/

/-- Reads a scalar; s0 reads zero. -/
def Regs.readS (r : Regs) (n : Nat) : Word := if n = 0 then 0 else KV.get 0 r.s n

/-- A scalar's binding; s0 is unbound. -/
def Regs.binding (r : Regs) (n : Nat) : Nat := if n = 0 then 0 else KV.get 0 r.bind n

/-- Writes a scalar with a binding; a write to s0 is discarded. -/
def Regs.writeBound (r : Regs) (n : Nat) (x : Word) (k : Nat) : Regs :=
  if n = 0 then r else { r with s := KV.put r.s n x, bind := KV.put r.bind n k }

/-- Writes a scalar with binding 0. -/
def Regs.writeS (r : Regs) (n : Nat) (x : Word) : Regs := r.writeBound n x 0

/-- Reads a predicate; p0 reads true. -/
def Regs.readP (r : Regs) (k : Nat) : Bool := if k = 0 then true else r.p.getLsbD k

/-- Writes a predicate; a write to p0 is discarded. -/
def Regs.writeP (r : Regs) (k : Nat) (x : Bool) : Regs :=
  if k = 0 then r
  else { r with p := if x then r.p ||| BitVec.ofNat 16 (2 ^ k)
                     else r.p &&& ~~~ BitVec.ofNat 16 (2 ^ k) }

/-- Reads a mask; m0 reads all lanes. -/
def Regs.readM (r : Regs) (k : Nat) : MaskBits := if k = 0 then BitVec.allOnes 512 else KV.get 0 r.m k

/-- Reads a vector register. -/
def Regs.readV (r : Regs) (n : Nat) : VecReg := KV.get { bits := 0, tag := 0 } r.v n

/-- Reads a tile register. -/
def Regs.readT (r : Regs) (n : Nat) : TileReg := KV.get { bits := 0, tag := 0 } r.t n

/-- Reads an accumulator. -/
def Regs.readA (r : Regs) (n : Nat) : Acc := KV.get Acc.zero r.a n

/-- A flag as it stands after every change so far (R135). -/
def Regs.readF (r : Regs) (k : Nat) : BitVec 20 := KV.get 0 r.f k

/-- Writes a flag. -/
def Regs.writeF (r : Regs) (k : Nat) (x : BitVec 20) : Regs := { r with f := KV.put r.f k x }

/-- Changes the registers of a bank. -/
def Bank.onRegs (B : Bank) (f : Regs → Regs) : Bank := { B with r := f B.r }

/-- Changes the registers of a bank of the state. -/
def State.onRegs (s : State) (b : Nat) (f : Regs → Regs) : State := s.updBank b (·.onRegs f)

/-- The other bank of a core. -/
def mate (b : Nat) : Nat := if b % 2 = 0 then b + 1 else b - 1

/-- A scalar of a bank. -/
def State.sreg (s : State) (b n : Nat) : Word := (s.bank b).r.readS n

/-! ### Walks (R118-R122) -/

/-- The walker of a strand. -/
def Bank.walker (B : Bank) : Strand → Walker
  | .c => B.wc
  | .v => B.wv
  | .m => B.wm
  | .x => B.wx

/-- Replaces the walker of a strand. -/
def Bank.setWalker (B : Bank) (e : Strand) (w : Walker) : Bank :=
  match e with
  | .c => { B with wc := w }
  | .v => { B with wv := w }
  | .m => { B with wm := w }
  | .x => { B with wx := w }

/-- A strand has stopped at index words (R120). -/
def Bank.stoppedAtEnd (B : Bank) (e : Strand) : Bool := B.words ≤ (B.walker e).pc

/-- A stall that a change of the bank's state may end: a header wait ends only when its word is passed (R136), and a wait
for a request slot with the strand's next try, before which a contest is decided (R376). -/
def Stall.settled (k : Stall) : Stall := if k = .header ∨ k = .slot then k else .none

/-- Clears what the walkers hold about their stalls: something of the bank has moved. -/
def Bank.moved (B : Bank) : Bank :=
  { B with wc := { B.wc with stall := B.wc.stall.settled }, wv := { B.wv with stall := B.wv.stall.settled },
           wm := { B.wm with stall := B.wm.stall.settled }, wx := { B.wx with stall := B.wx.stall.settled } }

/-- A strand has passed a word in the present ac (R127). -/
def AcNow.pass (n : AcNow) : AcNow := { n with passed := true }

/-- A strand goes on at `target`, which costs it no ac (R378). Words passed in handler mode are not counted
(R164); a prefix in force is used up. -/
def Bank.glideTo (B : Bank) (e : Strand) (target : Nat) : Bank :=
  let w := B.walker e
  let B := B.moved
  { B.setWalker e { w with pc := target, walk := if B.trap.handler then w.walk else w.walk + 1,
                           pfx := none, stall := .none } with
    n := { B.n with idle := 0 }
    now := B.now.pass }

/-- A strand passes a word that costs it no ac: one that it skips. -/
def Bank.glide (B : Bank) (e : Strand) : Bank := B.glideTo e ((B.walker e).pc + 1)

/-- Records what happens in the present ac. -/
def Bank.onNow (B : Bank) (f : AcNow → AcNow) : Bank := { B with now := f B.now }

/-- A strand has issued a word in the present ac. -/
def AcNow.issue (n : AcNow) (e : Strand) : AcNow :=
  if n.issued.contains e then n else { n with issued := e :: n.issued }

/-- An engine has begun a command or started a granule of the bank in the present ac (R123). -/
def Bank.beginNow (B : Bank) (e : Strand) : Bank :=
  B.onNow (fun a => { a with begun := if a.begun.contains e then a.begun else e :: a.begun })

/-- A strand passes its word and continues at `target`. -/
def Bank.passTo (B : Bank) (e : Strand) (target : Nat) : Bank := (B.glideTo e target).onNow (·.issue e)

/-- A strand passes its word. -/
def Bank.pass (B : Bank) (e : Strand) : Bank := B.passTo e ((B.walker e).pc + 1)

/-- A strand stands at its word for a reason. -/
def Bank.stand (B : Bank) (e : Strand) (k : Stall) : Bank :=
  B.setWalker e { B.walker e with stall := k }

/-- The word at an index of the text plane. -/
def Bank.wordAt (B : Bank) (i : Nat) : BitVec 32 := KV.get 0 B.text i

/-! ### System registers -/

/-- Numbers of the map of R288. -/
def csrSLIP := 0x000
def csrESC := 0x001
def csrHOLD := 0x002
def csrWDOG := 0x003
def csrFSWITCH := 0x004
def csrETA := 0x005
def csrMDEF := 0x008
def csrVMODE := 0x009
def csrVSH := 0x00A
def csrFSTAT := 0x010
def csrFENA := 0x011
def csrTVEC := 0x018
def csrTCAUSE := 0x019
def csrTVAL := 0x01A
def csrTPC := 0x01B
def csrSPBASE := 0x020
def csrSPLIM := 0x021
def csrRL0 := 0x028
def csrADMST := 0x030
def csrPWRST := 0x031
def csrGID := 0x038
def csrGSHAPE := 0x039
def csrWHEEL := 0x03A
def csrCYCLE := 0x040
def csrMTIME := 0x041
def csrMODID := 0x042
def csrCORE := 0x043

/-- The reset values of the map of R288. -/
def csrReset (n : Nat) : Word :=
  if n = csrSLIP then 0x400
  else if n = csrESC then 4
  else if n = csrHOLD then 0x1000
  else if n = csrWDOG then 0x4000000
  else if n = csrFSWITCH then 0x800
  else if n = csrVSH then 7
  else 0

/-- A system register as the bank holds it. -/
def Bank.csrGet (B : Bank) (n : Nat) : Word := KV.get (csrReset n) B.csr n

/-- Sets a system register as the bank holds it. -/
def Bank.csrPut (B : Bank) (n : Nat) (x : Word) : Bank := { B with csr := KV.put B.csr n x }

/-- The slip window in words; a write of SLIP in the present ac applies from the next (R122). -/
def Bank.slip (B : Bank) : Nat :=
  let v := bitsOf (B.now.slipOld.getD (B.csrGet csrSLIP)).toNat 15 0
  if v < 16 then 16 else if 32768 < v then 32768 else v

/-- The walk indices of the strands that have not stopped at index words. -/
def Bank.liveWalks (B : Bank) : List Nat :=
  ([Strand.c, .v, .m, .x].filter (fun e => ! B.stoppedAtEnd e)).map (fun e => (B.walker e).walk)

/-- The slip window lets a strand pass its next word (R122). -/
def Bank.slipOk (B : Bank) (e : Strand) : Bool :=
  let w := (B.walker e).walk
  let least := B.liveWalks.foldl Nat.min w
  w - least < B.slip

/-! ### Traps (R163-R166) -/

/-- Cause codes of R166. -/
def cIllegal := 0x01
def cPriv := 0x02
def cFormatTag := 0x03
def cQueue := 0x04
def cPrefix := 0x05
def cAlign := 0x06
def cAccess := 0x07
def cScratchBounds := 0x08
def cRefEscape := 0x09
def cRefForm := 0x0A
def cParcelGone := 0x0B
def cGrant := 0x0C
def cPeerReset := 0x0D
def cArith := 0x0E
def cPowerOver := 0x0F
def cWatchdog := 0x10
def cTrap := 0x11
def cEngine := 0x12
def cMachine := 0x13

/-- The code of a strand in TCAUSE. -/
def Strand.code : Strand → Nat
  | .c => 0
  | .v => 1
  | .m => 2
  | .x => 3

/-- The strand of a code. -/
def Strand.ofCode (n : Nat) : Strand :=
  match n % 4 with
  | 0 => .c
  | 1 => .v
  | 2 => .m
  | _ => .x

/-- Raises a precise trap in a strand at its present word: the strand stops there and the word has no
effect (R163 step 1). -/
def Bank.raisePrecise (B : Bank) (e : Strand) (code : Nat) (tval : Word) : Bank :=
  let w := B.walker e
  { B with trap := { B.trap with
      pending := B.trap.pending ++
        [{ strand := e, code := code, tval := tval, walk := w.walk, pc := w.pc, deferred := false,
           arose := B.trap.handler }] } }

/-- Raises a deferred trap, taken at the control strand's present word (R163). -/
def Bank.raiseDeferred (B : Bank) (code : Nat) (tval : Word) : Bank :=
  { B with trap := { B.trap with
      pending := B.trap.pending ++
        [{ strand := .c, code := code, tval := tval, walk := B.wc.walk, pc := B.wc.pc,
           deferred := true, arose := B.trap.handler }] } }

/-- Where a pending trap is taken: a deferred one at the control strand's present word. -/
def Bank.trapWalk (B : Bank) (t : PendTrap) : Nat := if t.deferred then B.wc.walk else t.walk

/-- The pending traps that may be taken now: in handler mode a deferred one waits for the return (R164), and so
does one that was pending when the handler was entered (R165). -/
def Bank.activeTraps (B : Bank) : List PendTrap :=
  if B.trap.handler then B.trap.pending.filter (fun t => ! t.deferred && t.arose) else B.trap.pending

/-- Whether `t` is taken before `u`: lowest walk index first, among deferred traps lowest code (R165). -/
def Bank.trapBefore (B : Bank) (t u : PendTrap) : Bool :=
  if B.trapWalk t ≠ B.trapWalk u then B.trapWalk t < B.trapWalk u
  else if t.deferred && u.deferred then t.code < u.code
  else ! t.deferred && u.deferred

/-- The trap that is taken next (R165). -/
def Bank.nextTrap (B : Bank) : Option PendTrap :=
  match B.activeTraps with
  | [] => none
  | t :: rest => some (rest.foldl (fun best u => if B.trapBefore u best then u else best) t)

/-- The strand may go on although traps are pending: it has raised none and stands below the walk index
of the trap (R163 step 2). -/
def Bank.trapLets (B : Bank) (e : Strand) : Bool :=
  match B.nextTrap with
  | none => true
  | some t =>
    (B.walker e).walk < B.trapWalk t && B.activeTraps.all (fun u => u.strand ≠ e) &&
      ! (t.deferred && e = .c)

/-- TCAUSE of a trap. -/
def PendTrap.cause (t : PendTrap) : Word :=
  BitVec.ofNat 64 (t.code + 256 * t.strand.code + (if t.deferred then 1024 else 0))

/-- Changes how a barrier's completion reaches a bank: 16 to the control strand that waits at `bar`, 17 where a trap
holds that word, 18 to nobody, since a return has skipped it; less to a flag. -/
def reflag (p q : Nat) (x : Nat × Nat) : Nat × Nat := if x.2 = p then (x.1, q) else x

/-- TAKING AN EXCEPTION (R163 step 4): TCAUSE, TVAL and TPC are written and the bank enters handler mode
at TVEC.index. Only the control strand walks there (R164). TPC holds the text index of the word at which
the trap is taken; the prefix and the request of the control strand's own word are kept for the return. -/
def Bank.enterHandler (B : Bank) (t : PendTrap) : Bank :=
  let walk := B.trapWalk t
  let pc := if t.deferred then B.wc.pc else t.pc
  let B := ((B.csrPut csrTCAUSE t.cause).csrPut csrTVAL t.tval).csrPut csrTPC (BitVec.ofNat 64 pc)
  { B with
    trap := { pending := B.trap.pending.erase t, handler := true,
              taken := { t with walk := walk, pc := B.wc.pc },
              pfx := B.wc.pfx, dec := B.out.dec, desc := B.out.desc, skips := B.trap.skips },
    out := { B.out with dec := .none, desc := [], splits := B.out.splits.map (reflag 16 17) },
    wc := { B.wc with pc := bitsOf (B.csrGet csrTVEC).toNat 14 0, pfx := none, stall := .none } }

/-- Sets a strand's place. -/
def Walker.at_ (w : Walker) (pc walk : Nat) : Walker :=
  { w with pc := pc, walk := walk, pfx := none, stall := .none }

/-- Transfer commands that a trap held back resume from their progress records once no deferred trap waits (R165,
R166). -/
def Bank.freeCommands (B : Bank) : Bank :=
  if B.trap.pending.any (·.deferred) then B
  else
    let free := fun (c : XferWin) => { c with held := false }
    { B with xfer := { B.xfer with window := B.xfer.window.map free } }

/-- RETURNING FROM AN EXCEPTION (R165): the strand that TCAUSE.strand names resumes at TPC.pc with walk
index i where that is the trapping word, else i + 1; every other strand resumes where it stopped. The
control strand, where another strand trapped, goes back to where it stood. A strand that goes on at the word it
stood at finds its prefix (R185), and the control strand its request, as they were. Transfer commands resume. -/
def Bank.leaveHandler (B : Bank) : Bank :=
  let e := Strand.ofCode (bitsOf (B.csrGet csrTCAUSE).toNat 9 8)
  let pc := bitsOf (B.csrGet csrTPC).toNat 14 0
  let t := B.trap.taken
  let trapPc := (B.walker t.strand).pc
  let orig := if t.strand = .c then t.pc else trapPc
  let walk := if pc = orig then t.walk else t.walk + 1
  let B := if e = .c ∧ pc ≠ orig ∧ pc ≠ orig + 1 then { B with again := 0 } else B
  let keeps := decide (e ≠ .c ∨ pc = t.pc)
  let T := B.trap
  let skips := if keeps then T.skips else B.wc.walk :: T.skips
  let B := { B with wc := { B.wc.at_ t.pc B.wc.walk with pfx := T.pfx },
                    trap := { TrapState.none with pending := T.pending, skips := skips },
                    out := if keeps then
                        { B.out with
                          dec := T.dec, desc := T.desc, splits := B.out.splits.map (reflag 17 16) }
                      else { B.out with splits := B.out.splits.map (reflag 17 18), denied := none } }
  let w := B.walker e
  (B.setWalker e { w.at_ pc walk with pfx := if pc = w.pc then w.pfx else none }).freeCommands.moved

/-- The control strand has passed a strand's word by a return elsewhere (R165): the others pass it too. -/
def Bank.skipped (B : Bank) (e : Strand) : Bool := B.trap.skips.contains (B.walker e).walk

/-! ### What may issue -/

/-- A strand of a bank may take a turn: the bank is live and not switched out (R124), the strand has not
stopped at index words (R120), it is the control strand or the bank is not in handler mode (R164), no
pending trap stops it (R163), the slip window lets it pass (R122), and the control strand meets no
unanswered local fault (R148). A system core has its control strand alone (R290). -/
def mayIssue (s : State) (b : Nat) (e : Strand) : Bool :=
  let B := s.bank b
  if isSys b then decide (e = .c) && B.trapLets e && ! B.stoppedAtEnd e && s.phase = .running
  else
    decide (B.status = .live) && ! B.out.out && ! B.stoppedAtEnd e &&
      (decide (e = .c) || ! B.trap.handler) && B.trapLets e &&
      (B.trap.handler || B.slipOk e) && (decide (e ≠ .c) || B.out.faults.isEmpty)

/-! ### The outcome of a word -/

/-- What a word of a strand comes to. -/
inductive Res where
  /-- the strand passes the word -/
  | done (s : State)
  /-- the strand continues at an index (path words) -/
  | goto (s : State) (target : Nat)
  /-- the strand stands at the word and nothing changes -/
  | stall (k : Stall)
  /-- the strand stands at the word, having changed the state -/
  | wait (s : State) (k : Stall)
  /-- the word traps precisely and has no effect -/
  | trap (code : Nat) (tval : Word)
  /-- the word traps precisely after the state changed (a denied fault is used up) -/
  | trapWith (s : State) (code : Nat) (tval : Word)
  /-- the strand has issued the word and stands at it, having changed the state -/
  | ask (s : State) (k : Stall)
deriving DecidableEq, Repr

/-- Carries out what a word of strand `e` of bank `b` comes to. -/
def finish (b : Nat) (e : Strand) (s : State) : Res → State
  | .done t => t.updBank b (·.pass e)
  | .goto t target => t.updBank b (·.passTo e target)
  | .stall k => s.updBank b (·.stand e k)
  | .wait t k => t.updBank b (·.stand e k)
  | .trap code tval => s.updBank b (·.raisePrecise e code tval)
  | .trapWith t code tval => t.updBank b (·.raisePrecise e code tval)
  | .ask t k => t.updBank b (fun B => (B.stand e k).onNow (·.issue e))

/-- The word as TVAL holds it. -/
def wordVal (i : Instr) : Word := (encode i).setWidth 64

/-- Changes what a bank has outstanding. -/
def Bank.onOut (B : Bank) (f : Outstanding → Outstanding) : Bank := { B with out := f B.out }

/-- Changes a bank's trap state. -/
def Bank.onTrap (B : Bank) (f : TrapState → TrapState) : Bank := { B with trap := f B.trap }

/-- A word that a strand skips. -/
def skip (b : Nat) (e : Strand) (s : State) : State := s.updBank b (·.glide e)

/-! ### The present ac (R125, R135, R220, R385) -/

/-- Codes of the queues, in the record of an ac. -/
def qcCq : Nat := 36
def qcVq : Nat := 39
def qcOq : Nat := 40
def qcMq : Nat := 41
def qcXq : Nat := 42
def qcPath : Strand → Nat
  | .m => 44
  | .x => 45
  | _ => 43

/-- Records `n` entries pushed into a queue. -/
def Bank.notePush (B : Bank) (k n : Nat) : Bank :=
  B.onNow (fun a => { a with pushed := KV.put a.pushed k (KV.get 0 a.pushed k + n) })

/-- Records `n` entries popped from a queue. -/
def Bank.notePop (B : Bank) (k n : Nat) : Bank :=
  B.onNow (fun a => { a with popped := KV.put a.popped k (KV.get 0 a.popped k + n) })

/-- Entries of a queue of `len` that a pop of this ac may take: those pushed in an earlier ac (R125). -/
def Bank.poppable (B : Bank) (k len : Nat) : Nat := len - KV.get 0 B.now.pushed k

/-- Entries that count against a queue's depth: a place freed in this ac takes a push only from the next (R125). -/
def Bank.filledOf (B : Bank) (k len : Nat) : Nat := len + KV.get 0 B.now.popped k

/-- A flag as it stands at the start of the present ac: what a strand reads (R135). -/
def Bank.flagAt (B : Bank) (k : Nat) : BitVec 20 := KV.get (B.r.readF k) B.now.flagOld k

/-- Keeps a flag's value at the start of the ac. -/
def Bank.keepFlag (B : Bank) (k : Nat) : Bank :=
  let x := B.flagAt k
  B.onNow (fun a => { a with flagOld := KV.put a.flagOld k x })

/-- A write of a flag: it applies before every increment of its ac (R135). -/
def Bank.setFlag (B : Bank) (k : Nat) (x : BitVec 20) : Bank :=
  let B := B.keepFlag k
  (B.onRegs (·.writeF k (x + KV.get 0 B.now.flagInc k))).moved

/-- An increment of a flag (R135). -/
def Bank.incFlag (B : Bank) (k : Nat) : Bank :=
  let B := (B.keepFlag k).onNow (fun a => { a with flagInc := KV.put a.flagInc k (KV.get 0 a.flagInc k + 1) })
  (B.onRegs (fun r => r.writeF k (r.readF k + 1))).moved

/-- An engine may serve a bank: it has not served the other bank of the core in the present ac (R123). -/
def State.engineFree (s : State) (b : Nat) (e : Strand) : Bool :=
  let now := (s.bank (mate b)).now
  isSys b || (! now.issued.contains e && ! now.begun.contains e)

/-! ### Header words (R136) -/

/-- The condition of a header word: modular at-least, or equal. -/
def headerHolds (f : BitVec 20) (c : BitVec 1) (v : BitVec 20) : Bool :=
  if c = 1 then decide (f = v) else decide ((f - v).toNat < 2 ^ 19)

/-- The bit of a strand in a header's mask: bit 28 C, 27 V, 26 M, 25 X. -/
def maskNames (m : BitVec 4) : Strand → Bool
  | .c => m.getLsbD 3
  | .v => m.getLsbD 2
  | .m => m.getLsbD 1
  | .x => m.getLsbD 0

/-- A strand waits at a header word, whether or not it has had a turn there. -/
def Bank.waitsHeader (B : Bank) (e : Strand) : Bool :=
  decide ((B.walker e).stall = .header) ||
    (! B.trap.handler && ! B.stoppedAtEnd e && B.slipOk e && B.trapLets e &&
      (match decodeWord (B.wordAt (B.walker e).pc) with
       | some (.hwait m f c v) => maskNames m e && ! headerHolds (B.flagAt f.toNat) c v
       | _ => false))

/-- A task is at a yield point while a strand of it waits at a header word. -/
def Bank.atHeader (B : Bank) : Bool := [Strand.c, .v, .m, .x].any B.waitsHeader

/-- A hardware update of the bits `mask` of a system register; it applies after a write of the same ac (R287, R385). -/
def Bank.csrUpdate (B : Bank) (n : Nat) (mask x : Word) : Bank :=
  let (m, v) := KV.get (0, 0) B.now.hard n
  (B.csrPut n ((B.csrGet n &&& ~~~ mask) ||| (x &&& mask))).onNow (fun a =>
    { a with hard := KV.put a.hard n (m ||| mask, (v &&& ~~~ mask) ||| (x &&& mask)) })

/-- FSTAT as it stands at the start of the present ac. -/
def Bank.fstatAt (B : Bank) : Word := B.csrGet csrFSTAT &&& ~~~ (B.now.freshBits.setWidth 64)

/-- Raises FSTAT bits (R220). -/
def Bank.raiseNow (B : Bank) (bits : BitVec 7) : Bank :=
  let old := B.csrGet csrFSTAT
  (B.csrPut csrFSTAT (old ||| bits.setWidth 64)).onNow (fun a => { a with
    raised := a.raised ||| bits
    freshBits := a.freshBits ||| (bits &&& ~~~ (old.setWidth 7)) })

end Sys2Proof.Machine
end

