-- ==== Sys2Proof/Machine/Granules.lean ====
section
/-! DEFINITION. Transfer commands as they are cut into granules (R364, R367, R368), the storage of rotated
scratchpad operands (R131), and the progress of a command (R149). -/

namespace Sys2Proof.Machine

open Sys2Proof

/-! ### Scratchpad addresses (R131) -/

/-- Where the byte at a linear window address is stored under a rotation code. -/
def rot (a rho : Nat) : Nat := a ^^^ ((((a >>> 11) * rho) % 16) <<< 7)

/-- A footprint from `lo` to `hi`, widened to whole 2 KiB blocks under a rotation (R133). -/
def footprint (rho lo hi : Nat) (wr : Bool) : Range :=
  if rho = 0 then { lo := lo, hi := hi, wr := wr }
  else { lo := lo / 2048 * 2048, hi := hi / 2048 * 2048 + 2047, wr := wr }

/-- The first invalid window address of a footprint (R129). -/
def Bank.firstInvalid (B : Bank) (rs : List Range) : Option Nat :=
  let size := (B.csrGet csrSPLIM).toNat - (B.csrGet csrSPBASE).toNat
  rs.findSome? (fun r => if r.hi < size then none else some (max r.lo size))

/-! ### Staging fields (R364) -/

def Staging.rows (t : Staging) : Nat := bitsOf t.shape.toNat 63 32
def Staging.len (t : Staging) : Nat := bitsOf t.shape.toNat 31 0
/-- Row pitches of source and destination; ignored with one row. -/
def Staging.sp (t : Staging) : Nat := if t.rows = 1 then 0 else bitsOf t.pitch.toNat 31 0
def Staging.dp (t : Staging) : Nat := if t.rows = 1 then 0 else bitsOf t.pitch.toNat 63 32
def Staging.rho (t : Staging) : Nat := bitsOf t.layout.toNat 5 2
def Staging.kind (t : Staging) : Nat := bitsOf t.layout.toNat 1 0

/-- The source and the destination of a direction are global. -/
def globalSrc (dir : Nat) : Bool := decide (dir = 0 ∨ dir = 2)
def globalDst (dir : Nat) : Bool := decide (dir = 1 ∨ dir = 2)

/-- Rows of a square of a transposed kind. -/
def squareRows (kind : Nat) : Nat := if kind = 0 then 1 else 128 / kind

/-- The staging fields keep the limits of R364 and R366 for a direction. -/
def Staging.ok (t : Staging) (dir : Nat) : Bool :=
  decide (1 ≤ t.rows ∧ 1 ≤ t.len ∧ t.rows * t.len ≤ 2 ^ 40) &&
  decide (t.layout.toNat < 64 ∧ t.kind ≠ 3) &&
  decide (t.ctr.toNat % 8 = 0 ∧ t.ctr.toNat < 2 ^ 57) &&
  (globalSrc dir || decide (t.src.toNat < 2 ^ 20)) && (globalDst dir || decide (t.dst.toNat < 2 ^ 20)) &&
  (decide (t.kind = 0) || decide (dir = 0 ∧ t.len = 128 ∧ t.rows % squareRows t.kind = 0))

/-- The footprint of a command (R367): one range per scratchpad side. -/
def Staging.ranges (t : Staging) (dir : Nat) : List Range :=
  let s := t.src.toNat
  let d := t.dst.toNat
  let hi := if t.kind = 0 then d + (t.rows - 1) * t.dp + t.len - 1
    else d + (squareRows t.kind - 1) * t.dp + t.rows / squareRows t.kind * 128 - 1
  (if globalSrc dir then []
   else [footprint (if dir = 1 then t.rho else 0) s (s + (t.rows - 1) * t.sp + t.len - 1) false]) ++
  (if globalDst dir then [] else [footprint t.rho d hi true])

/-! ### Granules (R368) -/

/-- The address of byte `c` of row `r` of the source and of the destination; addresses are 64 bits wide. -/
def XferWin.srcAt (x : XferWin) (r c : Nat) : Nat := (x.st.src.toNat + r * x.st.sp + c) % 2 ^ 64
def XferWin.dstAt (x : XferWin) (r c : Nat) : Nat := (x.st.dst.toNat + r * x.st.dp + c) % 2 ^ 64

/-- Bytes from byte `c` of row `r` up to the next cut. -/
def XferWin.cut (x : XferWin) (r c : Nat) : Nat :=
  let n := x.st.len - c
  let n := if globalSrc x.dir then Nat.min n (4096 - x.srcAt r c % 4096) else n
  let n := if globalDst x.dir then Nat.min n (4096 - x.dstAt r c % 4096) else n
  if x.dir = 3 then Nat.min n (4096 - c % 4096) else n

/-- The granule that comes `g` granules after the one at byte `c` of row `r`: its row, first byte and length. -/
def XferWin.granuleFrom (x : XferWin) : Nat → Nat → Nat → Option (Nat × Nat × Nat)
  | 0, r, c => if r < x.st.rows then some (r, c, x.cut r c) else none
  | g + 1, r, c =>
    if r < x.st.rows then
      let n := x.cut r c
      if c + n < x.st.len then x.granuleFrom g r (c + n) else x.granuleFrom g (r + 1) 0
    else none

/-- Granule `g` of a command. -/
def XferWin.granule (x : XferWin) (g : Nat) : Option (Nat × Nat × Nat) := x.granuleFrom g 0 0

/-! ### Progress (R149) -/

/-- A granule is complete. -/
def XferWin.complete (x : XferWin) (g : Nat) : Bool :=
  decide (g < x.gidx) || (decide (x.gidx < g ∧ g - x.gidx ≤ 32) && x.mask.getLsbD (g - x.gidx - 1))

/-- Every granule is complete. -/
def XferWin.finished (x : XferWin) : Bool := (x.granule x.gidx).isNone

/-- The granules that may start: not complete, not in flight, and at most 32 past the lowest that is not complete. -/
def XferWin.startable (x : XferWin) : List Nat :=
  ((List.range 33).map (x.gidx + ·)).filter (fun g =>
    ! x.complete g && x.flight.all (fun f => decide (f.g ≠ g)) && (x.granule g).isSome)

/-- Every granule has started. -/
def XferWin.allStarted (x : XferWin) : Bool := x.startable.isEmpty && (x.granule (x.gidx + 33)).isNone

/-- Every granule has read its bytes. -/
def XferWin.allMoved (x : XferWin) : Bool := x.allStarted && x.flight.all (·.moved)

/-- The progress record moves past complete granules: from lowest index `g` just completed, with `m` the bits of
those after it. -/
def advance : Nat → Nat → Nat → Nat × Nat
  | 0, g, m => (g, m)
  | n + 1, g, m => if m % 2 = 1 then advance n (g + 1) (m / 2) else (g + 1, m / 2)

/-- A granule in flight completes. -/
def XferWin.completes (x : XferWin) (g : Nat) : XferWin :=
  let x := { x with flight := x.flight.filter (fun f => f.g ≠ g) }
  if g = x.gidx then
    let (i, m) := advance 33 g x.mask.toNat
    { x with gidx := i, mask := BitVec.ofNat 32 m }
  else { x with mask := x.mask ||| BitVec.ofNat 32 (2 ^ (g - x.gidx - 1)) }

/-- A granule leaves flight without having moved: it starts again later, and the command keeps its progress
record. -/
def XferWin.returns (x : XferWin) (g : Nat) : XferWin :=
  { x with flight := x.flight.filter (fun f => f.g ≠ g), record := true }

/-- A command no longer holds back a later one: it is abandoned, or every granule has started. -/
def XferWin.letsNext (x : XferWin) : Bool := x.dropped || x.allStarted

/-- The command of a bank's window whose granules start next (R128, R368). -/
def Bank.xferHead (B : Bank) : Option XferWin := B.xfer.window.find? (fun c => ! c.letsNext)

/-- The control strand has passed what a command waits for before it starts: ordering words that X passed before it,
and, for a release, every earlier word (R186, R371). -/
def Bank.xferAhead (B : Bank) (c : XferWin) : Bool :=
  B.out.xwait.all (fun w => decide (c.walk ≤ w) || decide (w < B.wc.walk) || B.stoppedAtEnd .c) &&
  (! decide (c.ord = 2 ∨ c.ord = 3) || decide (c.walk ≤ B.wc.walk) || B.stoppedAtEnd .c)

/-- An `xgo` with an acquire half lets the control strand's later accesses go on (R371): its reads are performed, or
a trap or its abandonment holds it back, or a handler runs. -/
def Bank.xferRead (B : Bank) (walk : Nat) : Bool :=
  B.trap.handler || B.activeTraps.any (fun t => decide (B.trapWalk t ≤ walk)) ||
  ((decide (walk < B.wx.walk) || B.stoppedAtEnd .x) &&
    B.xfer.window.all (fun c => decide (c.walk ≠ walk) || c.held || c.dropped || c.allMoved))

end Sys2Proof.Machine
end

