-- ==== Sys2Proof/Config.lean ====
section
/-! DEFINITION. What the spec leaves open: free values. Each is a constant with no body, so that no proof
can see what it is; a claim about it holds whatever it is. Those that need a fresh value each time are
applied to the state's counter `freeCtr` (log entry 2). -/

namespace Sys2Proof.Config

/-- 64 bits of a core's generator (R285), and every other random number (R36). -/
opaque random : Nat → Word

/-- The 4,096 bits that a vector word reads from a head of cq whose tag 0x00 gives no lane width (R325, R343). -/
opaque cqSpread : Nat → VecBits

/-- Whether a TLB still holds a translation that was put into it (R145): replacement is not given. -/
opaque tlbHeld : Nat → Bool

/-- Whether a walk cache still holds a pointer entry that was put into it (R145), and which entry of a full TLB goes
when another comes in. -/
opaque walkHeld : Nat → Bool
opaque tlbVictim : Nat → Nat

/-- The sets of an L2 slice (R11, R228): a number whose low four bits are the binary logarithm of the lines of a set,
the set of a line (0 for a local line, 1 + peer for one of a peer's, and its line number), and which line of a full
set goes among those that go next. -/
opaque l2Ways : Nat
opaque l2Set : Nat → Nat → Nat
opaque l2Victim : Nat → Nat

/-- The 4 KiB page that the tables of the module operating system give for a page of a system core's addresses (R290). -/
opaque sysPage : Nat → Nat

/-- What a system core reads in CYCLE, which counts the ac of a task's cluster (R289), at a module time. -/
opaque hubCycle : Nat → Word

/-- What a read of hub register space returns where no register stands (R15). -/
opaque hubHole : Nat → Word

/-- The base refresh interval of the module's LPDDR-6 devices in picoseconds (R116). -/
opaque refreshBase : Nat

/-- The granules of its die that the rows of a channel's bank lie in (R117), which the spec does not give. -/
opaque bankGranules : Nat → List Nat

/-- AES-256-CMAC of a message (R48). -/
opaque cmac : BitVec 256 → List Byte → List Byte

/-- SHA-512 (R25, R29). -/
opaque sha512 : List Byte → BitVec 512

/-- Whether an RSASSA-PSS signature by the key of a modulus verifies over a message (R24, R25). -/
opaque rsaVerifies : List Byte → List Byte → List Byte → Bool

/-- Whether an ECDSA P-384 signature by a key verifies over a message (R29). -/
opaque ecdsaVerifies : List Byte → List Byte → List Byte → Bool

/-- An ECDSA P-384 signature over a message by the key that a number names (0 the attestation key, 1 the security processor's). -/
opaque ecdsaSign : Nat → List Byte → List Byte

/-- The security processor's own certificate (R29). -/
opaque ownCert : List Byte

/-- Whether a die certificate verifies under a vendor root (R29). -/
opaque certVerifies : List Byte → Bool

/-- An ephemeral P-384 key pair's public part, and the secret that two sides agree (R29, R44). -/
opaque ephemeral : Nat → BitVec 768
opaque ecdh : Nat → BitVec 768 → BitVec 384

/-- HKDF-SHA-512, truncated to 256 bits (R29, R39, R63). -/
opaque hkdf : BitVec 384 → List Byte → BitVec 256

/-- AES-256-GCM: the ciphertext and the tag under a key, a nonce and additional data; and the plaintext
of a ciphertext whose tag verifies (R39, R63). -/
opaque gcmSeal : BitVec 256 → BitVec 96 → List Byte → List Byte → List Byte × BitVec 128
opaque gcmOpen : BitVec 256 → BitVec 96 → List Byte → List Byte → BitVec 128 → Option (List Byte)

/-- A 256-bit key drawn at random: the ingress key (R48). -/
opaque randomKey : Nat → BitVec 256

/-- The token that the owner's system software has supplied for a page's new home (R161): home module,
requester module and tenant. -/
opaque homeToken : Nat → Nat → Nat → Nat

/-- The context key that the security processor derives for a tenant, and AES-256-GMAC over a record under a key
(R78). -/
opaque contextKey : Nat → BitVec 256
opaque gmac : BitVec 256 → List Byte → BitVec 128

/-- The encoding within a context record's sections (R78), which the spec does not give: the body of a section that
holds some content, and what a section's body holds at an index (by section, body and index). -/
opaque packSection : Nat → List Nat → List Byte
opaque section_ : Nat → List Byte → Nat → Nat

/-- A byte that a host reads in BAR0 where nothing stands. -/
opaque freeByte : Nat → Byte

/-- The chain of the module's attestation key up to Fellar's root, as certificate slot 0 holds it (R59). -/
opaque certChain : List Byte

/-- Bytes of SPDM responses that the spec does not give: sizes, timings, an error's code, a measurement's type
(R59). -/
opaque spdmByte : Nat → Byte

end Sys2Proof.Config
end

