-- ==== Sys2Proof/Machine/Legal.lean ====
section
/-! DEFINITION. The checks that a word meets when it issues, on its own bits alone: function values,
operand codes and register codes that its entry allows (R223, R225). A word that fails raises ILLEGAL in
the strand that owns it. Checks that need the state (a prefix's fields, a csr number, a format tag) stand
in the meanings. -/

namespace Sys2Proof

/-- A format tag that no register may hold (R200): 0x0E-0x1F, or a binary8 code with P = 0. -/
def tagReserved (t : Nat) : Bool :=
  decide (0x0E ≤ t ∧ t ≤ 0x1F) || decide (0x20 ≤ t ∧ t % 8 = 0)

/-- A vector operand code that may stand as a source (R126, R226). -/
def srcCode (c : BitVec 6) : Bool := decide (c.toNat ≤ 36)

/-- A vector operand code that may stand as a destination (R126, R226). -/
def dstCode (c : BitVec 6) : Bool := decide (c.toNat < 32 ∨ (37 ≤ c.toNat ∧ c.toNat ≤ 40))

/-- A format tag that a word may write where it accepts 0x00 (R353, R360). -/
def tagOk0 (t : BitVec 6) : Bool := ! tagReserved t.toNat

/-- A format tag that a word may write (R329, R361). -/
def tagOk (t : BitVec 6) : Bool := decide (t ≠ 0) && tagOk0 t

/-- The tags of 4 or 8 bits that `mmov` converts to (R362). -/
def tagNarrow (t : BitVec 6) : Bool :=
  tagOk t && decide (t.toNat = 1 ∨ t.toNat = 2 ∨ t.toNat = 8 ∨ t.toNat = 9 ∨ 13 ≤ t.toNat)

/-- The codes of a word are ones that its entry allows. Every event is allowed. -/
def Instr.legal : Instr → Bool
  | .add _ _ _ => true
  | .sub _ _ _ => true
  | .and _ _ _ => true
  | .or _ _ _ => true
  | .xor _ _ _ => true
  | .andn _ _ _ => true
  | .orn _ _ _ => true
  | .sll _ _ _ => true
  | .srl _ _ _ => true
  | .sra _ _ _ => true
  | .rol _ _ _ => true
  | .ror _ _ _ => true
  | .mul _ _ _ => true
  | .mulh _ _ _ => true
  | .mulhu _ _ _ => true
  | .div _ _ _ => true
  | .divu _ _ _ => true
  | .rem _ _ _ => true
  | .remu _ _ _ => true
  | .min _ _ _ => true
  | .max _ _ _ => true
  | .minu _ _ _ => true
  | .maxu _ _ _ => true
  | .adds _ _ _ => true
  | .subs _ _ _ => true
  | .clz _ _ => true
  | .ctz _ _ => true
  | .popc _ _ => true
  | .bswap _ _ => true
  | .addi _ _ _ => true
  | .andi _ _ _ => true
  | .ori _ _ _ => true
  | .xori _ _ _ => true
  | .shi _ _ k _ => decide (k.toNat ≤ 4)
  | .movw _ _ _ => true
  | .movk _ _ _ => true
  | .cmp _ _ _ c m => decide (c.toNat < 12 ∧ m.toNat < 6)
  | .cmpi _ _ c _ => decide (c.toNat < 12)
  | .plog _ a b _ c => decide (a.toNat < 16 ∧ b.toNat < 16 ∧ c.toNat < 6)
  | .sel _ _ _ _ _ => true
  | .br _ _ _ => true
  | .jal _ _ _ => true
  | .jalr _ _ _ => true
  | .qmovCq _ => true
  | .qmovVq _ => true
  | .qmovXq _ => true
  | .qmovMq _ _ => true
  | .engreq d _ _ _ => decide (d.toNat < 16)
  | .engctlQuery _ _ => true
  | .engctlAbandon _ _ => true
  | .engctlUnhold b => decide (b.toNat < 10)
  | .pwrAcq d l => decide (d.toNat < 16 ∧ 1 ≤ l.toNat ∧ l.toNat ≤ 4)
  | .pwrRel => true
  | .flagRd _ _ => true
  | .flagWr _ _ => true
  | .flagInc _ => true
  | .flagAdd _ _ => true
  | .bar _ s => decide (1 ≤ s.toNat ∧ s.toNat ≤ 5)
  | .barSplit d _ s => decide (d.toNat < 16 ∧ 1 ≤ s.toNat ∧ s.toNat ≤ 5)
  | .fence s o => decide (s.toNat ≤ 5 ∧ 1 ≤ o.toNat)
  | .launch d _ _ => decide (d.toNat < 16)
  | .yield => true
  | .trapfence => true
  | .trap _ _ => true
  | .tret => true
  | .intr v => decide (v.toNat < 62)
  | .exit => true
  | .csr _ _ _ => true
  | .cntRd _ _ => true
  | .cntSnap _ _ => true
  | .cntRdGrp _ _ => true
  | .cntSnapGrp _ _ => true
  | .cntOvf _ _ => true
  | .cntOvfSnap _ _ => true
  | .rand _ => true
  | .randBelow _ _ => true
  | .rbind _ k _ => decide (k.toNat < 8)
  | .radd _ _ _ => true
  | .runbind _ _ => true
  | .madd _ _ _ _ => true
  | .bitf _ _ p w => decide (p.toNat + w.toNat + 1 ≤ 64)
  | .hwait _ _ _ _ => true
  | .pfx _ _ _ _ _ => true
  | .ld _ _ _ _ => true
  | .ldz _ _ _ _ => true
  | .st _ _ _ _ => true
  | .ldq q _ _ _ _ => decide (q.toNat < 4)
  | .stq q _ _ _ _ => decide (4 ≤ q.toNat ∧ q.toNat < 6)
  | .amo _ _ _ n z => decide (n.toNat ≤ 8 ∧ 2 ≤ z.toNat)
  | .cas _ _ _ _ z => decide (2 ≤ z.toNat)
  | .scopLd _ _ z => decide (2 ≤ z.toNat)
  | .scopSt _ _ z => decide (2 ≤ z.toNat)
  | .scopRmw _ _ _ o z => decide (2 ≤ o.toNat ∧ o.toNat ≤ 6 ∧ 2 ≤ z.toNat)
  | .ldref _ _ _ => true
  | .stref _ _ _ => true
  | .pmake k _ _ _ => decide (k.toNat < 8)
  | .post _ _ _ _ _ _ => true
  | .pclaim _ _ _ => true
  | .pctlQuery _ _ => true
  | .pctlFree _ => true
  | .pctlSet _ _ => true
  | .pctlGet _ _ => true
  | .mpush _ _ => true
  | .pfetch _ _ _ => true
  | .cacheDrop _ _ _ => true
  | .cacheDemote _ _ _ => true
  | .tktCnt _ => true
  | .tktWait => true
  | .tktRd _ _ => true
  | .grantMint _ _ _ => true
  | .grantSet _ _ => true
  | .grantGet _ _ => true
  | .tlbopRng _ _ _ => true
  | .tlbopTen _ => true
  | .tlbopAll => true
  | .dirtySnap _ _ _ => true
  | .dirtyRd _ _ _ => true
  | .vadd d a b _ f => dstCode d && srcCode a && srcCode b && decide (f.toNat ≤ 1)
  | .vsub d a b _ f => dstCode d && srcCode a && srcCode b && decide (f.toNat ≤ 1)
  | .vmul d a b _ f => dstCode d && srcCode a && srcCode b && decide (f.toNat ≤ 1)
  | .vfma d a b _ f => decide (d.toNat < 32) && srcCode a && srcCode b && decide (f.toNat ≤ 3)
  | .vmin d a b _ f => dstCode d && srcCode a && srcCode b && decide (f.toNat ≤ 1)
  | .vmax d a b _ f => dstCode d && srcCode a && srcCode b && decide (f.toNat ≤ 1)
  | .vun d a _ f => dstCode d && srcCode a && decide (f.toNat ≤ 5)
  | .vcmp d a b _ _ => decide (d.toNat < 8) && srcCode a && srcCode b
  | .vsel d a b _ => dstCode d && srcCode a && srcCode b
  | .vlog d a b _ f => dstCode d && srcCode a && srcCode b && decide (f.toNat ≤ 5)
  | .vshf d a b _ f => dstCode d && srcCode a && srcCode b && decide (f.toNat ≤ 4)
  | .vcvt d a t _ _ => dstCode d && srcCode a && tagOk t
  | .vscale d a b _ f => dstCode d && srcCode a && srcCode b && decide (f.toNat % 4 ≠ 3)
  | .vred d a _ f => dstCode d && srcCode a && decide (f.toNat ≤ 5)
  | .vscan d a _ f => dstCode d && srcCode a && decide (f.toNat ≤ 5)
  | .vperm d a b _ f => dstCode d && srcCode a && srcCode b && decide (f.toNat ≤ 1)
  | .vslide d a _ _ f => dstCode d && srcCode a && decide (f.toNat ≤ 5)
  | .vbcast d a _ _ _ => dstCode d && srcCode a
  | .vmov d a _ => dstCode d && srcCode a
  | .vmskLogic d a b _ => decide (d.toNat < 8 ∧ a.toNat < 8 ∧ b.toNat < 8)
  | .vmskLd d a => decide (d.toNat < 8) && srcCode a
  | .vmskSt d a => dstCode d && decide (a.toNat < 8)
  | .vmskPop d a => dstCode d && decide (a.toNat < 8)
  | .vsh d a b _ f => dstCode d && srcCode a && srcCode b && decide (f.toNat ≤ 3)
  | .vtag d a t => decide (d.toNat < 32) && srcCode a && tagOk t
  | .vacc d _ _ _ _ f => dstCode d && decide (f.toNat ≤ 5)
  | .vhist a b _ f => srcCode a && decide (f.toNat ≤ 1) && (if f = 0 then decide (b = 0) else srcCode b)
  | .vfn d a _ f => dstCode d && srcCode a && decide (f.toNat ≤ 3)
  | .viota d t _ f => dstCode d && decide (1 ≤ t.toNat ∧ t.toNat ≤ 7) && decide (f.toNat ≤ 1)
  | .vclamp d a b _ => decide (d.toNat < 32) && srcCode a && srcCode b
  | .vtrn d a b _ _ => dstCode d && srcCode a && srcCode b
  | .mma k a b _ _ _ => decide (k.toNat ≤ 1 ∧ a.toNat ≤ 8 ∧ b.toNat ≤ 8)
  | .mzero k => decide (k.toNat ≤ 1)
  | .mzeroT k => decide (k.toNat ≤ 7)
  | .manch k _ => decide (k.toNat ≤ 1)
  | .mshape _ _ _ => true
  | .mfmt a b => tagOk0 a && tagOk0 b
  | .mldt k t c l => decide (k.toNat + c.toNat + 1 ≤ 8) && tagOk0 t && decide (l.toNat ≤ 2)
  | .msta _ _ t _ _ r => tagOk t && decide (r.toNat ≤ 4)
  | .mchk _ _ _ _ => true
  | .mmov d a => decide (d.toNat ≤ 7 ∧ a.toNat ≤ 7)
  | .mmovFmt d t _ _ r => decide (d.toNat ≤ 7) && tagNarrow t && decide (r.toNat ≤ 4)
  | .mscl _ => true
  | .msclOne _ => true
  | .xset d c => decide (c.toNat ≤ 5 ∧ d.toNat + c.toNat + 1 ≤ 6)
  | .xgo _ _ _ => true
  | .xclr => true
  | .xclrDrop => true
  | .bootStart => true
  | .dieAuthReply => true
  | .dieAuthConfirm => true
  | .dieAuthTimeout => true
  | .trainingComplete => true
  | .getVersion => true
  | .getCapabilities => true
  | .negotiateAlgorithms => true
  | .getDigests => true
  | .getCertificate => true
  | .challenge => true
  | .getMeasurements => true
  | .unsupportedRequest => true
  | .packetForward => true
  | .dataFlit => true
  | .idle => true
  | .nack => true
  | .join => true
  | .retrain => true
  | .replayTimeout => true
  | .linkRetrain => true
  | .retrainExchangeDone => true
  | .keySwitch => true
  | .read => true
  | .write => true
  | .amoRequest => true
  | .casRequest => true
  | .ptry => true
  | .pdata => true
  | .pdone => true
  | .resp => true
  | .notice => true
  | .requestTimeout => true
  | .retryResend => true
  | .shadowRelease => true
  | .peerincWrite => true
  | .gwinWrite => true
  | .ingressKeyReplace => true
  | .launchWrite => true
  | .cqctlWrite => true
  | .vistatRead => true
  | .bar2Read => true
  | .bar2Write => true
  | .functionLevelReset => true
  | .cxlLinkDown => true
  | .precopyRound => true
  | .granuleMessage => true
  | .precopyRoundEnd => true
  | .stoppingComplete => true
  | .restoreCompleteReport => true
  | .restoreFailedReport => true
  | .launchDecision => true
  | .resourceReport => true
  | .drainTimeout => true
  | .watchdogExpiry => true
  | .saveComplete => true
  | .textPlaneFill => true
  | .bankLive => true
  | .taskEnd => true
  | .scrubComplete => true
  | .chrstGo => true
  | .restoreReadComplete => true
  | .serviceTry => true
  | .offerStep => true
  | .holdWindowExpiry => true
  | .serviceEExpiry => true
  | .bounceReopen => true
  | .jobComplete => true
  | .admqWrite => true
  | .admdatRead => true
  | .rslotWrite => true
  | .frameBoundary => true
  | .slotAllocatorRequest => true
  | .mptabWrite => true
  | .qmodeWrite => true
  | .powerSample => true
  | .voltageStepDone => true
  | .frequencyStepDone => true
  | .droop => true
  | .stretchEnd => true
  | .pclusWrite => true
  | .pclusRead => true
  | .pwrcfgWrite => true
  | .refcfgSync => true
  | .bitmapLoaded => true
  | .refresh => true
  | .temperatureEvent => true
  | .pathFollow => true
  | .bankSwitchOut => true
  | .queueTrap => true
  | .loadDataArrival => true
  | .headerPass => true
  | .rendezvous => true
  | .matrixCommandBegin => true
  | .matrixCommandComplete => true
  | .vectorWordComplete => true
  | .transferGranuleStart => true
  | .transferGranuleComplete => true
  | .migrateRequest => true
  | .batchClose => true
  | .batchDeliver => true
  | .fcheadWrite => true
  | .fcbufWrite => true
  | .fcansRetry => true
  | .fcansAccess => true
  | .handlerEntry => true
  | .writeApply => true
  | .scopPerform => true
  | .barrierComplete => true
  | .interruptMessage => true
  | .registerWrite => true
  | .illegalWord => true
  | .linkTraining => true
  | .precopyJobStart => true
  | .portSlot => true

end Sys2Proof
end

