-- ==== Sys2Proof/Machine/Control.lean ====
section
/-! DEFINITION. CTL words on scalars and predicates (chapter 14, R247-R259, R285): the shared operation of
a control word, and a meaning for each. -/

namespace Sys2Proof.Machine

open Sys2Proof Host

/-- CTL and MEM words that raise ILLEGAL on the system cores (R290, R322). -/
def sysRefuses : Instr → Bool
  | .qmovCq .. | .qmovVq .. | .qmovXq .. | .qmovMq .. => true
  | .flagRd .. | .flagWr .. | .flagInc .. | .flagAdd .. => true
  | .bar .. | .barSplit .. | .engreq .. | .engctlQuery .. | .engctlAbandon .. | .engctlUnhold .. => true
  | .pwrAcq .. | .pwrRel | .launch .. | .intr .. => true
  | .cntRd .. | .cntSnap .. | .cntRdGrp .. | .cntSnapGrp .. | .cntOvf .. | .cntOvfSnap .. => true
  | .ldq .. | .stq .. | .mpush .. | .scopLd .. | .scopSt .. | .scopRmw .. => true
  | .ldref .. | .stref .. | .pmake .. | .post .. | .pclaim .. => true
  | .pctlQuery .. | .pctlFree .. | .pctlSet .. | .pctlGet .. => true
  | .tktCnt .. | .tktWait | .tktRd .. | .grantSet .. | .grantGet .. => true
  | _ => false

/-- A register that a word names is pending: a scalar (R247, R295), or, named as 64 + k, the predicate that
a `cas` not yet performed is to write (R248, R307). -/
def Bank.pendingReg (B : Bank) (n : Nat) : Bool :=
  if n < 64 then B.r.pend.contains n
  else decide (n ≠ 64) && B.out.acc.any (fun a => match a.op with | .cas k => decide (64 + k = n) | _ => false)

/-- Some of the registers that a word names are pending. -/
def Bank.anyPending (B : Bank) (rs : List Nat) : Bool := rs.any B.pendingReg

/-- What a control-strand word comes to before its body runs: the checks at issue (R247, R223) and the
stall on pending scalars (R156); `rs` are the scalars it reads or writes. -/
def ctlRes (i : Instr) (rs : List Nat) (body : Nat → State → Res) (b : Nat) (s : State) : Res :=
  if isSys b && sysRefuses i then .trap cIllegal (wordVal i)
  else if ! i.legal then .trap cIllegal (wordVal i)
  else if (s.bank b).anyPending rs then .stall (.pending rs)
  else body b s

/-- A word that the control strand executes and every other strand skips (R118). -/
def ctlStep (i : Instr) (rs : List Nat) (body : Nat → State → Res) (s : State) : State :=
  let b := s.cur.bank
  if s.cur.strand = .c then finish b .c s (ctlRes i rs body b s) else skip b s.cur.strand s

/-- The outcome of a control word. -/
def ctlWord (i : Instr) (rs : List Nat) (body : Nat → State → Res) (s : State) :
    Outcome State Fault Refusal :=
  .next (ctlStep i rs body s)

/-- The body of a word that writes one scalar, with binding 0 (R247, R248). -/
def scalarBody (d : BitVec 6) (f : Regs → Word) (b : Nat) (s : State) : Res :=
  .done (s.onRegs b (fun r => r.writeS d.toNat (f r)))

/-- The body of a word that writes one predicate. -/
def predBody (p : BitVec 4) (f : Regs → Bool) (b : Nat) (s : State) : Res :=
  .done (s.onRegs b (fun r => r.writeP p.toNat (f r)))

/-- An alu word of two sources (R250). -/
def aluWord (i : Instr) (d a b : BitVec 6) (f : Word → Word → Word) (s : State) :
    Outcome State Fault Refusal :=
  ctlWord i [d.toNat, a.toNat, b.toNat] (scalarBody d (fun r => f (r.readS a.toNat) (r.readS b.toNat))) s

/-- A word of one source: the unary alu functions (R250), and the immediate forms (R251, R252, R255). -/
def unaryWord (i : Instr) (d a : BitVec 6) (f : Word → Word) (s : State) :
    Outcome State Fault Refusal :=
  ctlWord i [d.toNat, a.toNat] (scalarBody d (fun r => f (r.readS a.toNat))) s

/-! ### The functions of R250 -/

/-- The count of a shift or rotate: the low six bits. -/
def shCount (b : Word) : Nat := b.toNat % 64

/-- Signed saturation to 64 bits. -/
def sat64 (x : Int) : Word :=
  if x < -(2 : Int) ^ 63 then BitVec.ofNat 64 (2 ^ 63)
  else if (2 : Int) ^ 63 - 1 < x then BitVec.ofNat 64 (2 ^ 63 - 1)
  else BitVec.ofInt 64 x

/-- Bits [127:64] of the signed product. -/
def mulhS (a b : Word) : Word := BitVec.ofInt 64 ((a.toInt * b.toInt) / (2 : Int) ^ 64)

/-- Bits [127:64] of the unsigned product. -/
def mulhU (a b : Word) : Word := BitVec.ofNat 64 (a.toNat * b.toNat / 2 ^ 64)

/-- Signed quotient, truncated toward zero. -/
def divS (a b : Word) : Word :=
  if b = 0 then BitVec.allOnes 64 else BitVec.ofInt 64 (a.toInt.tdiv b.toInt)

/-- Unsigned quotient. -/
def divU (a b : Word) : Word :=
  if b = 0 then BitVec.allOnes 64 else BitVec.ofNat 64 (a.toNat / b.toNat)

/-- Signed remainder, with the sign of the dividend. -/
def remS (a b : Word) : Word := if b = 0 then a else BitVec.ofInt 64 (a.toInt.tmod b.toInt)

/-- Unsigned remainder. -/
def remU (a b : Word) : Word := if b = 0 then a else BitVec.ofNat 64 (a.toNat % b.toNat)

/-- Arithmetic shift right. -/
def sraW (a b : Word) : Word := BitVec.ofInt 64 (a.toInt / (2 : Int) ^ shCount b)

/-- Logical shift left. -/
def sllW (a b : Word) : Word := a <<< shCount b

/-- Logical shift right. -/
def srlW (a b : Word) : Word := a >>> shCount b

/-- Rotate left. -/
def rolW (a b : Word) : Word := (a <<< shCount b) ||| (a >>> ((64 - shCount b) % 64))

/-- Rotate right. -/
def rorW (a b : Word) : Word := (a >>> shCount b) ||| (a <<< ((64 - shCount b) % 64))

/-- Leading zeros of the low `n` bits. -/
def clzOf : Nat → Nat → Nat
  | 0, _ => 0
  | n + 1, v => if bitAt v n then 0 else clzOf n v + 1

/-- Trailing zeros of the low `n` bits. -/
def ctzOf : Nat → Nat → Nat
  | 0, _ => 0
  | n + 1, v => if v % 2 = 1 then 0 else ctzOf n (v / 2) + 1

/-- Ones among the low `n` bits. -/
def popOf : Nat → Nat → Nat
  | 0, _ => 0
  | n + 1, v => v % 2 + popOf n (v / 2)

/-- The bytes in reverse order. -/
def bswapW (a : Word) : Word := BitVec.ofNat 64 (ofLeBytes (leBytes 8 a.toNat).reverse)

/-- Signed comparison. -/
def sLt (a b : Word) : Bool := decide (a.toInt < b.toInt)

/-- Unsigned comparison. -/
def uLt (a b : Word) : Bool := decide (a.toNat < b.toNat)

/-- `add` (R250). -/
def execAdd (d a b : BitVec 6) (s : State) := aluWord (.add d a b) d a b (fun x y => x + y) s
/-- `sub` (R250). -/
def execSub (d a b : BitVec 6) (s : State) := aluWord (.sub d a b) d a b (fun x y => x - y) s
/-- `and` (R250). -/
def execAnd (d a b : BitVec 6) (s : State) := aluWord (.and d a b) d a b (fun x y => x &&& y) s
/-- `or` (R250). -/
def execOr (d a b : BitVec 6) (s : State) := aluWord (.or d a b) d a b (fun x y => x ||| y) s
/-- `xor` (R250). -/
def execXor (d a b : BitVec 6) (s : State) := aluWord (.xor d a b) d a b (fun x y => x ^^^ y) s
/-- `andn` (R250). -/
def execAndn (d a b : BitVec 6) (s : State) := aluWord (.andn d a b) d a b (fun x y => x &&& ~~~ y) s
/-- `orn` (R250). -/
def execOrn (d a b : BitVec 6) (s : State) := aluWord (.orn d a b) d a b (fun x y => x ||| ~~~ y) s
/-- `sll` (R250). -/
def execSll (d a b : BitVec 6) (s : State) := aluWord (.sll d a b) d a b sllW s
/-- `srl` (R250). -/
def execSrl (d a b : BitVec 6) (s : State) := aluWord (.srl d a b) d a b srlW s
/-- `sra` (R250). -/
def execSra (d a b : BitVec 6) (s : State) := aluWord (.sra d a b) d a b sraW s
/-- `rol` (R250). -/
def execRol (d a b : BitVec 6) (s : State) := aluWord (.rol d a b) d a b rolW s
/-- `ror` (R250). -/
def execRor (d a b : BitVec 6) (s : State) := aluWord (.ror d a b) d a b rorW s
/-- `mul` (R250). -/
def execMul (d a b : BitVec 6) (s : State) := aluWord (.mul d a b) d a b (fun x y => x * y) s
/-- `mulh` (R250). -/
def execMulh (d a b : BitVec 6) (s : State) := aluWord (.mulh d a b) d a b mulhS s
/-- `mulhu` (R250). -/
def execMulhu (d a b : BitVec 6) (s : State) := aluWord (.mulhu d a b) d a b mulhU s
/-- `div` (R250). -/
def execDiv (d a b : BitVec 6) (s : State) := aluWord (.div d a b) d a b divS s
/-- `divu` (R250). -/
def execDivu (d a b : BitVec 6) (s : State) := aluWord (.divu d a b) d a b divU s
/-- `rem` (R250). -/
def execRem (d a b : BitVec 6) (s : State) := aluWord (.rem d a b) d a b remS s
/-- `remu` (R250). -/
def execRemu (d a b : BitVec 6) (s : State) := aluWord (.remu d a b) d a b remU s
/-- `min` (R250). -/
def execMin (d a b : BitVec 6) (s : State) :=
  aluWord (.min d a b) d a b (fun x y => if sLt x y then x else y) s
/-- `max` (R250). -/
def execMax (d a b : BitVec 6) (s : State) :=
  aluWord (.max d a b) d a b (fun x y => if sLt x y then y else x) s
/-- `minu` (R250). -/
def execMinu (d a b : BitVec 6) (s : State) :=
  aluWord (.minu d a b) d a b (fun x y => if uLt x y then x else y) s
/-- `maxu` (R250). -/
def execMaxu (d a b : BitVec 6) (s : State) :=
  aluWord (.maxu d a b) d a b (fun x y => if uLt x y then y else x) s
/-- `adds` (R250). -/
def execAdds (d a b : BitVec 6) (s : State) :=
  aluWord (.adds d a b) d a b (fun x y => sat64 (x.toInt + y.toInt)) s
/-- `subs` (R250). -/
def execSubs (d a b : BitVec 6) (s : State) :=
  aluWord (.subs d a b) d a b (fun x y => sat64 (x.toInt - y.toInt)) s
/-- `clz` (R250). -/
def execClz (d a : BitVec 6) (s : State) :=
  unaryWord (.clz d a) d a (fun x => BitVec.ofNat 64 (clzOf 64 x.toNat)) s
/-- `ctz` (R250). -/
def execCtz (d a : BitVec 6) (s : State) :=
  unaryWord (.ctz d a) d a (fun x => BitVec.ofNat 64 (ctzOf 64 x.toNat)) s
/-- `popc` (R250). -/
def execPopc (d a : BitVec 6) (s : State) :=
  unaryWord (.popc d a) d a (fun x => BitVec.ofNat 64 (popOf 64 x.toNat)) s
/-- `bswap` (R250). -/
def execBswap (d a : BitVec 6) (s : State) := unaryWord (.bswap d a) d a bswapW s

/-! ### Immediates (R251-R255) -/

/-- `addi` (R251). -/
def execAddi (d a : BitVec 6) (i : BitVec 12) (s : State) :=
  unaryWord (.addi d a i) d a (fun x => x + i.signExtend 64) s
/-- `andi` (R251). -/
def execAndi (d a : BitVec 6) (i : BitVec 12) (s : State) :=
  unaryWord (.andi d a i) d a (fun x => x &&& i.signExtend 64) s
/-- `ori` (R251). -/
def execOri (d a : BitVec 6) (i : BitVec 12) (s : State) :=
  unaryWord (.ori d a i) d a (fun x => x ||| i.setWidth 64) s
/-- `xori` (R251). -/
def execXori (d a : BitVec 6) (i : BitVec 12) (s : State) :=
  unaryWord (.xori d a i) d a (fun x => x ^^^ i.setWidth 64) s

/-- The shift of a kind of `shi` (R252): 0 sll, 1 srl, 2 sra, 3 rol, 4 ror. -/
def shiKind (k : Nat) (x n : Word) : Word :=
  match k with
  | 0 => sllW x n
  | 1 => srlW x n
  | 2 => sraW x n
  | 3 => rolW x n
  | _ => rorW x n

/-- `shi` (R252). -/
def execShi (d a : BitVec 6) (k : BitVec 4) (n : BitVec 6) (s : State) :=
  unaryWord (.shi d a k n) d a (fun x => shiKind k.toNat x (n.setWidth 64)) s

/-- `movw` (R253). -/
def execMovw (d : BitVec 6) (q : BitVec 2) (i : BitVec 16) (s : State) :=
  ctlWord (.movw d q i) [d.toNat] (scalarBody d (fun _ => (i.setWidth 64 : Word) <<< (16 * q.toNat))) s

/-- The word with 16-bit quarter `q` replaced. -/
def putQuarter (x : Word) (q : Nat) (i : BitVec 16) : Word :=
  (x &&& ~~~ ((0xFFFF : Word) <<< (16 * q))) ||| ((i.setWidth 64 : Word) <<< (16 * q))

/-- `movk` (R253). -/
def execMovk (d : BitVec 6) (q : BitVec 2) (i : BitVec 16) (s : State) :=
  ctlWord (.movk d q i) [d.toNat]
    (scalarBody d (fun r => putQuarter (r.readS d.toNat) q.toNat i)) s

/-- `madd` (R254). -/
def execMadd (d a b c : BitVec 6) (s : State) :=
  ctlWord (.madd d a b c) [d.toNat, a.toNat, b.toNat, c.toNat]
    (scalarBody d (fun r => r.readS a.toNat * r.readS b.toNat + r.readS c.toNat)) s

/-- `bitf` (R255): the field of `w + 1` bits at `p`. -/
def execBitf (d a p w : BitVec 6) (s : State) :=
  unaryWord (.bitf d a p w) d a
    (fun x => BitVec.ofNat 64 (bitsOf x.toNat (p.toNat + w.toNat) p.toNat)) s

/-! ### Predicates (R256-R259) -/

/-- Condition codes 0-11 of R256. -/
def condHolds (c : Nat) (a b : Word) : Bool :=
  match c with
  | 0 => decide (a = b)
  | 1 => decide (a ≠ b)
  | 2 => sLt a b
  | 3 => ! sLt b a
  | 4 => sLt b a
  | 5 => ! sLt a b
  | 6 => uLt a b
  | 7 => ! uLt b a
  | 8 => uLt b a
  | 9 => ! uLt a b
  | 10 => decide (a &&& b ≠ 0)
  | _ => decide (a &&& b = 0)

/-- Combine codes 0-5 of R256. -/
def combine (m : Nat) (p c : Bool) : Bool :=
  match m with
  | 0 => c
  | 1 => p && c
  | 2 => p || c
  | 3 => p != c
  | 4 => p && ! c
  | _ => p || ! c

/-- `cmp` (R256). -/
def execCmp (p : BitVec 4) (a b : BitVec 6) (c m : BitVec 4) (s : State) :=
  ctlWord (.cmp p a b c m) [a.toNat, b.toNat, 64 + p.toNat]
    (predBody p (fun r => combine m.toNat (r.readP p.toNat)
      (condHolds c.toNat (r.readS a.toNat) (r.readS b.toNat)))) s

/-- The immediate of `cmpi` (R257): zero-extended for conditions 6-9, else sign-extended. -/
def cmpiImm (c : Nat) (i : BitVec 10) : Word :=
  if 6 ≤ c ∧ c ≤ 9 then i.setWidth 64 else i.signExtend 64

/-- `cmpi` (R257). -/
def execCmpi (p : BitVec 4) (a : BitVec 6) (c : BitVec 4) (i : BitVec 10) (s : State) :=
  ctlWord (.cmpi p a c i) [a.toNat, 64 + p.toNat]
    (predBody p (fun r => condHolds c.toNat (r.readS a.toNat) (cmpiImm c.toNat i))) s

/-- `plog` (R258): the bit of the truth table at 2 pa + pb. -/
def execPlog (p : BitVec 4) (a b : BitVec 6) (t c : BitVec 4) (s : State) :=
  ctlWord (.plog p a b t c) [64 + p.toNat, 64 + a.toNat, 64 + b.toNat]
    (predBody p (fun r => combine c.toNat (r.readP p.toNat)
      (t.getLsbD (2 * (r.readP a.toNat).toNat + (r.readP b.toNat).toNat)))) s

/-- `sel` (R259). -/
def execSel (d a b : BitVec 6) (n : BitVec 1) (k : BitVec 4) (s : State) :=
  ctlWord (.sel d a b n k) [d.toNat, a.toNat, b.toNat, 64 + k.toNat]
    (scalarBody d (fun r => if r.readP k.toNat != (n = 1) then r.readS a.toNat else r.readS b.toNat)) s

/-! ### Random numbers (R285): free values -/

/-- Takes a free word. -/
def State.tick (s : State) : State := { s with freeCtr := s.freeCtr + 1 }

/-- `rand` (R285): 64 bits from the core's generator, a free value. -/
def execRand (d : BitVec 6) (s : State) :=
  ctlWord (.rand d) [d.toNat]
    (fun b s => .done (s.tick.onRegs b (·.writeS d.toNat (Config.random s.freeCtr)))) s

/-- `rand.below` (R285): a free value below sa; with sa = 0 as `rand`. -/
def execRandBelow (d a : BitVec 6) (s : State) :=
  ctlWord (.randBelow d a) [d.toNat, a.toNat]
    (fun b s =>
      let n := s.sreg b a.toNat
      let x := Config.random s.freeCtr
      .done (s.tick.onRegs b (·.writeS d.toNat (if n = 0 then x else BitVec.ofNat 64 (x.toNat % n.toNat))))) s

end Sys2Proof.Machine
end

