-- ==== Sys2Proof/Machine/Path.lean ====
section
/-! DEFINITION. Path words (R121, R260-R263), header words (R136), prefix words (R118, R227), words that
no row matches (R223), and the ends of traps: `trap`, `tret` (R163-R165, R280). -/

namespace Sys2Proof.Machine

open Sys2Proof Host

/-- The capacity of a path FIFO (R121). -/
def pathDepth : Nat := 32

/-- Some path FIFO of the bank has no room in this ac (R121, R125). -/
def Bank.pathFull (B : Bank) : Bool :=
  decide (B.again = 0) && [Strand.v, .m, .x].any (fun e =>
    decide (pathDepth ≤ B.filledOf (qcPath e) (B.walker e).path.length))

/-- Pushes the next index into all three path FIFOs (R121). -/
def Bank.pushPath (B : Bank) (i : Nat) : Bank :=
  (({ B with wv := { B.wv with path := B.wv.path ++ [i] },
             wm := { B.wm with path := B.wm.path ++ [i] },
             wx := { B.wx with path := B.wx.path ++ [i] } }.notePush (qcPath .v) 1).notePush (qcPath .m) 1).notePush
    (qcPath .x) 1

/-- C passes a path word: its outcome goes to the other strands, unless it has gone to them before. -/
def Bank.tellPath (B : Bank) (i : Nat) : Bank :=
  let B := { B with wc := { B.wc with pops := B.wc.pops + 1 } }
  if B.again = 0 then B.pushPath i else { B with again := B.again - 1 }

/-- A strand other than C at a path word: it pops its FIFO and continues there, or waits (R121). Where a return
from a trap has passed the word, it goes on at the next index (R165). -/
def follow (b : Nat) (e : Strand) (s : State) : State :=
  let w := (s.bank b).walker e
  if (s.bank b).skipped e then skip b e s
  else match w.path with
  | [] => s.updBank b (·.stand e .path)
  | t :: rest =>
    if (s.bank b).poppable (qcPath e) w.path.length = 0 then s.updBank b (·.stand e .path)
    else s.updBank b (fun B =>
      ((B.setWalker e { w with path := rest, pops := w.pops + 1 }).notePop (qcPath e) 1).passTo e t)

/-- The control strand at a path word (R260): `taken` and the target as an integer; `before` is what the
word writes before it continues. In handler mode it redirects the control strand alone (R164). -/
def pathRes (i : Instr) (taken : Bool) (target : Int) (before : State → State) (b : Nat) (s : State) :
    Res :=
  let B := s.bank b
  if taken && (decide (target < 0) || decide ((B.words : Int) < target)) then
    .trap cIllegal (wordVal i)
  else if ! B.trap.handler && ! isSys b && B.pathFull then .stall .path
  else
    let next := if taken then target.toNat else B.wc.pc + 1
    let s := if taken then before s else s
    if B.trap.handler || isSys b then .goto s next
    else .goto (s.updBank b (·.tellPath next)) next

/-- A path word: the control strand executes it, every other strand follows (R118). -/
def pathWord (i : Instr) (rs : List Nat) (body : Nat → State → Res) (s : State) :
    Outcome State Fault Refusal :=
  let b := s.cur.bank
  .next (if s.cur.strand = .c then finish b .c s (ctlRes i rs body b s) else follow b s.cur.strand s)

/-- The target of layout Fb (R224). -/
def fbTarget (pc : Nat) (o : BitVec 19) : Int := (pc : Int) + o.toInt

/-- `br` (R261). -/
def execBr (p : BitVec 4) (n : BitVec 1) (o : BitVec 19) (s : State) :=
  pathWord (.br p n o) [64 + p.toNat] (fun b s =>
    let B := s.bank b
    pathRes (.br p n o) (B.r.readP p.toNat != (n = 1)) (fbTarget B.wc.pc o) id b s) s

/-- `jal` (R262): a taken one writes s62, the link register, and stalls while that is pending; one that is not taken
writes nothing. -/
def execJal (p : BitVec 4) (n : BitVec 1) (o : BitVec 19) (s : State) :=
  let taken := (s.bank s.cur.bank).r.readP p.toNat != (n = 1)
  pathWord (.jal p n o) (if taken then [62, 64 + p.toNat] else [64 + p.toNat]) (fun b s =>
    let B := s.bank b
    pathRes (.jal p n o) (B.r.readP p.toNat != (n = 1)) (fbTarget B.wc.pc o)
      (fun s => s.onRegs b (·.writeS 62 (BitVec.ofNat 64 (B.wc.pc + 1)))) b s) s

/-- `jalr` (R263): always taken; the target is an unsigned 64-bit value. -/
def execJalr (d a : BitVec 6) (i : BitVec 12) (s : State) :=
  pathWord (.jalr d a i) [d.toNat, a.toNat] (fun b s =>
    let B := s.bank b
    pathRes (.jalr d a i) true ((B.r.readS a.toNat + i.signExtend 64).toNat : Int)
      (fun s => s.onRegs b (·.writeS d.toNat (BitVec.ofNat 64 (B.wc.pc + 1)))) b s) s

/-- `exit` (R280): a path word to index words. -/
def execExit (s : State) :=
  pathWord .exit [] (fun b s => pathRes .exit true ((s.bank b).words : Int) id b s) s

/-- PATH_FOLLOW (R121): a strand other than C that stands at a path word follows it. Whether the word it
stands at is one is read from its text plane. -/
def isPathWord : Instr → Bool
  | .br .. | .jal .. | .jalr .. | .exit => true
  | _ => false

/-- A strand stands at a path word. -/
def Bank.atPathWord (B : Bank) (e : Strand) : Bool :=
  match decodeWord (B.wordAt (B.walker e).pc) with
  | some i => isPathWord i
  | none => false

/-- PATH_FOLLOW (R121). -/
def execPathFollow (s : State) : Outcome State Fault Refusal :=
  let b := s.input.who
  let e := s.input.strand
  .next (if e ≠ .c && mayIssue s b e && (s.bank b).atPathWord e then follow b e s else s)

/-! ### Prefix words (R118, R227) -/

/-- The fields of a prefix word, or of MDEF (R185): ordering, scope, space, cache policy, offset mode. -/
structure Annot where
  ord : Nat
  scope : Nat
  space : Nat
  cache : Nat
  offset : Nat
deriving DecidableEq, Repr

/-- The fields of a prefix word. -/
def annotOfPfx (w : BitVec 32) : Annot :=
  let n := w.toNat
  { ord := bitsOf n 28 26, scope := bitsOf n 25 23, space := bitsOf n 22 21, cache := bitsOf n 20 18,
    offset := bitsOf n 17 16 }

/-- The fields of MDEF. -/
def annotOfMdef (w : Word) : Annot :=
  let n := w.toNat
  { ord := bitsOf n 12 10, scope := bitsOf n 9 7, space := bitsOf n 6 5, cache := bitsOf n 4 2,
    offset := bitsOf n 1 0 }

/-- The annotation of a strand's word (R185): from the prefix it has passed, else from MDEF. -/
def Bank.annot (B : Bank) (e : Strand) : Annot :=
  match (B.walker e).pfx with
  | some w => annotOfPfx w
  | none => annotOfMdef (B.csrGet csrMDEF)

/-- A prefix word holds a reserved code (R223). -/
def pfxBad (w : BitVec 32) : Bool :=
  let a := annotOfPfx w
  decide (3 < a.ord) || decide (5 < a.scope) || decide (3 < a.cache) || decide (w.toNat % 65536 ≠ 0)

/-- The tag of the word that follows a strand's word, none past the text. -/
def Bank.nextTag (B : Bank) (e : Strand) : Option Nat :=
  let i := (B.walker e).pc + 1
  if i < B.words then some (tagOf (B.wordAt i).toNat) else none

/-- A prefix word in a strand (R118): C applies it to a MEM word, X to an XFR word; a bad one raises
ILLEGAL in the strand that applies it; any other next word raises PREFIX in C. X keeps the prefix of a MEM
word too, and C that of an XFR word, to know the ordering words that they pass. -/
def pfxStep (w : BitVec 32) (s : State) : State :=
  let b := s.cur.bank
  let e := s.cur.strand
  let B := s.bank b
  let keep : State :=
    s.updBank b (fun B => let B := B.glide e; B.setWalker e { B.walker e with pfx := some w })
  let val : Word := w.setWidth 64
  match e with
  | .c =>
    if B.nextTag .c = some 1 then
      if pfxBad w then finish b .c s (.trap cIllegal val) else keep
    else if B.nextTag .c = some 4 && ! isSys b then keep
    else finish b .c s (.trap cPrefix val)
  | .x =>
    if B.nextTag .x = some 4 && pfxBad w then finish b .x s (.trap cIllegal val) else keep
  | _ => skip b e s

/-- `PFX` (R227). -/
def execPfx (o s3 : BitVec 3) (p : BitVec 2) (c : BitVec 3) (f : BitVec 2) (s : State) :
    Outcome State Fault Refusal :=
  .next (pfxStep (encode (.pfx o s3 p c f)) s)

/-- The strand that owns a word by its tag; none for a header word, which no strand checks (R222). -/
def ownerOf (tag : Nat) : Option Strand :=
  match tag with
  | 0 => some .c
  | 1 => some .c
  | 2 => some .v
  | 3 => some .m
  | 4 => some .x
  | 7 => some .c
  | _ => none

/-- A word that no row matches (R223): ILLEGAL in the strand that owns it, with TVAL the word; every other
strand skips it. In handler mode the control strand skips tags 2-4 unchecked (R164); a system core
raises ILLEGAL for every tag from 2 to 5 (R290). -/
def illegalStep (w : BitVec 32) (s : State) : State :=
  let b := s.cur.bank
  let e := s.cur.strand
  let tag := tagOf w.toNat
  if tag = 6 then pfxStep w s
  else if isSys b then finish b e s (.trap cIllegal (w.setWidth 64))
  else if ownerOf tag = some e then finish b e s (.trap cIllegal (w.setWidth 64))
  else skip b e s

/-- ILLEGAL_WORD (R223): the word stands in `input.value`. -/
def execIllegalWord (s : State) : Outcome State Fault Refusal :=
  .next (illegalStep (BitVec.ofNat 32 s.input.value.toNat) s)

/-! ### `trap`, `tret` (R280) -/

/-- `trap` (R280): traps precisely with TRAP, TVAL := sa + zext(i). -/
def execTrap (a : BitVec 6) (i : BitVec 12) (s : State) :=
  ctlWord (.trap a i) [a.toNat] (fun b s => .trap cTrap (s.sreg b a.toNat + i.setWidth 64)) s

/-- `tret` (R165, R280): returns from handler mode; outside it, ILLEGAL. -/
def tretStep (s : State) : State :=
  let b := s.cur.bank
  if s.cur.strand = .c then
    if (s.bank b).trap.handler then s.updBank b (fun B => B.leaveHandler.onNow (·.issue .c))
    else finish b .c s (.trap cIllegal (wordVal .tret))
  else skip b s.cur.strand s

/-- `tret` (R165, R280). -/
def execTret (s : State) : Outcome State Fault Refusal := .next (tretStep s)

end Sys2Proof.Machine
end

