-- ==== Sys2Proof/Machine/Memory.lean ====
section
/-! DEFINITION. Memory: the canonical list of bytes, the physical address map and the interleave (R15-R18,
R23), hub registers by offset, reads as an observer on a die sees them (R188, R189), and the making and
applying of writes (R190). -/

namespace Sys2Proof.Machine

open Sys2Proof Host

/-! ### The list of bytes -/

/-- What an unlisted byte reads as (log entry 5). -/
def Memory.unlisted : Byte := 0

/-- The byte at an address. -/
def Memory.read : Memory → Nat → Byte
  | [], _ => Memory.unlisted
  | (k, v) :: rest, a => if k = a then v else Memory.read rest a

/-- Writes a byte, keeping addresses rising and no entry at the unlisted value. -/
def Memory.write : Memory → Nat → Byte → Memory
  | [], a, b => if b = Memory.unlisted then [] else [(a, b)]
  | (k, v) :: rest, a, b =>
    if k = a then (if b = Memory.unlisted then rest else (a, b) :: rest)
    else if a < k then (if b = Memory.unlisted then (k, v) :: rest else (a, b) :: (k, v) :: rest)
    else (k, v) :: Memory.write rest a b

/-- Every entry's address is above `lo` and below the next one's, and no entry is at the unlisted value. -/
def Memory.wfFrom : Option Nat → Memory → Bool
  | _, [] => true
  | lo, (k, v) :: rest =>
    (match lo with | none => true | some l => decide (l < k)) && decide (v ≠ Memory.unlisted) &&
      Memory.wfFrom (some k) rest

/-- The canonical form of a memory. -/
def Memory.wf (m : Memory) : Bool := Memory.wfFrom none m

/-- Reads `n` bytes from `a` upward. -/
def Memory.readN (m : Memory) (a : Nat) : Nat → List Byte
  | 0 => []
  | n + 1 => m.read a :: Memory.readN m (a + 1) n

/-- Writes bytes from `a` upward. -/
def Memory.writeN (m : Memory) (a : Nat) : List Byte → Memory
  | [] => m
  | b :: rest => Memory.writeN (m.write a b) (a + 1) rest

/-! ### Hub registers (R15) -/

/-- Base of hub register space. -/
def hubBase : Nat := 0xF000000000000

/-- The reset value of the hub register at an offset. -/
def hubReset (off : Nat) : Nat :=
  if 0x10000 ≤ off ∧ off < 0x10060 then 0xAAAAAAAA
  else if off = 0x310 then 0x3E8
  else if off = 0x400 then 0x32
  else if off = 0x510 then 0x100
  else if off = 0x520 then 0xA0200000
  else if 0x8000000 ≤ off ∧ off < 0x8004000 then 0xFFFFFFFFFFFFFFFF
  else if 0xA000000 ≤ off ∧ off < 0xA000400 then 0xBB98C00001
  else 0

/-- A hub register. -/
def State.hubReg (s : State) (off : Nat) : Nat := KV.get (hubReset off) s.hub off

/-- Sets a hub register. -/
def State.setHub (s : State) (off v : Nat) : State := { s with hub := KV.put s.hub off v }

def offGEPOCH := 0x300
def offFTMO := 0x310
def offCHCFG := 0x400
def offCHSAVE := 0x408
def offCHRST := 0x410
def offCHLOCK (k : Nat) := 0x480 + 8 * k
def offADMSEL := 0x500
def offADMCFG := 0x510
def offPWRCFG := 0x520
def offFCBUF := 0x600
def offFCTAIL := 0x608
def offFCHEAD := 0x610
def offFCANS := 0x618
def offQMODE (n : Nat) := 0x10000 + 4 * n
def offRTAB (n : Nat) := 0x1000000 + 16 * n
def offGWIN (n : Nat) := 0x2000000 + 16 * n
def offPEERINC (n : Nat) := 0x3000000 + 4 * n
def offVICFG (n : Nat) := 0x4000000 + 16 * n
def offDLOG (n : Nat) := 0x5000000 + 16 * n
def offCHTOK (n : Nat) := 0x6000000 + 8 * n
def offADMQ (k n : Nat) := 0x7000000 + 0x800 * (k - 1) + 8 * n
def offADMVI (n : Nat) := 0x7004000 + 8 * n
def offRSLOT (d r x : Nat) := 0x8000000 + 0x1000 * d + 0x100 * r + 8 * x
def offMPTAB (d x : Nat) := 0x9000000 + 0x100 * d + 8 * x
def offPCLUS (cl : Nat) := 0xA000000 + 0x100 * (cl / 16) + 8 * (cl % 16)
def offREFCFG (d : Nat) := 0xB000000 + 8 * d
def offPTROOT (n : Nat) := 0xC000000 + 8 * n
def offPRPOOL (d n : Nat) := 0xD000000 + 0x800 * d + 8 * n

/-! ### The address map (R15-R18, R23) -/

/-- First byte past on-package memory. -/
def packageEnd : Nat := 0x18000000000

/-- The mode of quad `q`. -/
def State.quadMode (s : State) (q : Nat) : Nat :=
  bitsOf (s.hubReg (offQMODE (q / 16))) (2 * (q % 16) + 1) (2 * (q % 16))

/-- Exclusive or of the bit pairs of `o` at 2k, for k from 6 to 15. -/
def hashPairs (o : Nat) : Nat := ((List.range 10).map (fun k => bitsOf o (2 * k + 13) (2 * k + 12))).foldl Nat.xor 0

/-- Exclusive or of the bits 12 to 30 of `o`. -/
def hashBits (o : Nat) : Nat := ((List.range 19).map (fun k => bitsOf o (k + 12) (k + 12))).foldl Nat.xor 0

/-- Die and die-local address of a physical address in the on-package range (R17). -/
def dieLocal (mode pa : Nat) : Nat × Nat :=
  let q := bitsOf pa 40 32
  let o := bitsOf pa 31 0
  if mode = 0 then (hashPairs o, q * 2 ^ 30 + (bitsOf o 31 14 * 4096 + bitsOf o 11 0))
  else if mode = 1 then
    (2 * bitsOf o 31 31 + hashBits o, q * 2 ^ 30 + (bitsOf o 30 13 * 4096 + bitsOf o 11 0))
  else (bitsOf o 31 30, q * 2 ^ 30 + bitsOf o 29 0)

/-- Channel and channel-local address within a die (R18). -/
def channelOf (dla : Nat) : Nat × Nat :=
  (((bitsOf dla 13 8 ^^^ bitsOf dla 19 14) ^^^ bitsOf dla 25 20 ^^^ bitsOf dla 31 26) ^^^ bitsOf dla 37 32,
   bitsOf dla 38 14 * 256 + bitsOf dla 7 0)

/-- The die where a byte is serialised (R188): of its channel, or the hub for CXL memory. -/
def State.homeDie (s : State) (pa : Nat) : Nat :=
  if pa < packageEnd then (dieLocal (s.quadMode (pa / 2 ^ 32)) pa).1 else 4

/-- The compute dies that are present (R23). -/
def State.present (s : State) : List Nat := [0, 1, 2, 3].filter (fun d => ! s.boot.fenced.contains d)

/-- Every die on which writes are applied: the compute dies present and the hub. -/
def State.allDies (s : State) : List Nat := s.present ++ [4]

/-- The module is degraded (R23). -/
def State.degraded (s : State) : Bool := ! s.boot.fenced.isEmpty

/-- A physical address is populated: on-package memory outside the holes of the degraded map, or a CXL
window up to its populated size while its link is up (R15, R16, R52). -/
def State.populated (s : State) (pa : Nat) : Bool :=
  if pa < packageEnd then
    ! (s.degraded && s.boot.fenced.contains (bitsOf pa 31 30))
  else
    let n := pa / 2 ^ 42 - 1
    decide (2 ^ 42 ≤ pa ∧ n < 4) && decide (pa - (n + 1) * 2 ^ 42 < KV.get 0 s.boot.cxlSize n) &&
      KV.get false s.boot.cxlUp n

/-- The granule that a physical address lies in has been declared free to its channels (R117). -/
def State.freeGranule (s : State) (pa : Nat) : Bool :=
  if pa < packageEnd then
    let (d, dla) := dieLocal (s.quadMode (pa / 2 ^ 32)) pa
    KV.get false s.power.free (d * 2 ^ 18 + dla / 2 ^ 21)
  else false

/-- The memory port of a physical address (R101): 16 die + port, port m serving channels 4m to 4m + 3;
none for CXL memory. -/
def State.portOf (s : State) (pa : Nat) : Option Nat :=
  if pa < packageEnd then
    let (d, dla) := dieLocal (s.quadMode (pa / 2 ^ 32)) pa
    some (16 * d + (channelOf dla).1 / 4)
  else none

/-- The channel of its die that a physical address goes to (R18). -/
def State.channelAt (s : State) (pa : Nat) : Nat := (channelOf (dieLocal (s.quadMode (pa / 2 ^ 32)) pa).2).1

/-! ### Views and scopes (R20, R21, R183) -/

/-- The view of a virtual interface: 0 one-, 1 two-, 2 four-device. -/
def State.viewOf (s : State) (vi : Nat) : Nat := bitsOf (s.hubReg (offVICFG vi)) 126 125

/-- The dies of the device of a view that holds a die. -/
def State.deviceDies (s : State) (view die : Nat) : List Nat :=
  (if view = 0 then [0, 1, 2, 3] else if view = 1 then (if die < 2 then [0, 1] else [2, 3]) else [die]).filter
    (fun d => s.present.contains d)

/-- The dies on which a write of a task on `die` must be applied to be performed at a scope (R183): its
own up to die scope; its device's and the hub at module scope; every die at domain scope. -/
def State.scopeDies (s : State) (vi die scope : Nat) : List Nat :=
  if scope ≤ 3 then [die]
  else if scope = 4 then (if die = 4 then s.allDies else s.deviceDies (s.viewOf vi) die ++ [4])
  else s.allDies

/-! ### Reading as an observer (R187-R189) -/

/-- A write covers a byte. -/
def Write.covers (w : Write) (scr : Bool) (a : Nat) : Bool :=
  (w.scr == scr) && decide (w.addr ≤ a ∧ a < w.addr + w.bytes.length)

/-- A write is seen by an observer on die `e`: it is applied there, or it is one of the observer's own
writes made before the name `who` gives. -/
def Write.seenBy (w : Write) (who : Option (Writer × Nat)) (e : Nat) : Bool :=
  w.dies.contains e ||
    (match who with
     | some (wr, lim) => decide (wr = w.writer ∧ w.id < lim)
     | none => false)

/-- Whether `w` stands later than `u` in the order in which an observer sees them: coherence order, and
the observer's own writes that are not serialised yet after it, in text order. -/
def Write.later (w u : Write) : Bool :=
  match w.ord, u.ord with
  | some a, some b => decide (b < a)
  | none, some _ => true
  | some _, none => false
  | none, none => decide (u.id < w.id)

/-- The write that an observer's read of a byte returns, if one in flight does. -/
def State.topWrite (s : State) (who : Option (Writer × Nat)) (e : Nat) (a : Nat) : Option Write :=
  (s.writes.filter (fun w => w.covers false a && w.seenBy who e)).foldl
    (fun best w => match best with
      | none => some w
      | some u => if w.later u then some w else some u) none

/-- The byte that an observer on die `e` reads (R188, R189). -/
def State.seeByte (s : State) (who : Option (Writer × Nat)) (e : Nat) (a : Nat) : Byte :=
  match s.topWrite who e a with
  | some w => w.bytes.getD (a - w.addr) 0
  | none => s.mem.read a

/-- `n` bytes that an observer reads. -/
def State.see (s : State) (who : Option (Writer × Nat)) (e a n : Nat) : List Byte :=
  (List.range n).map (fun i => s.seeByte who e (a + i))

/-- The latest byte in coherence order, wherever it has been applied: what a read-modify-write reads
where its bytes are serialised (R194). -/
def State.latestByte (s : State) (a : Nat) : Byte :=
  match (s.writes.filter (fun w => w.covers false a && w.ord.isSome)).foldl
    (fun best w => match best with
      | none => some w
      | some u => if w.later u then some w else some u) (none : Option Write) with
  | some w => w.bytes.getD (a - w.addr) 0
  | none => s.mem.read a

/-- The latest bytes in coherence order. -/
def State.latest (s : State) (a n : Nat) : List Byte := (List.range n).map (fun i => s.latestByte (a + i))

/-- The number that an observer on a die reads from 8 bytes. -/
def State.see64 (s : State) (e a : Nat) : Nat := ofLeBytes (s.see none e a 8)

/-! ### Vector clocks (R190) -/

/-- Entry `k` of die `e`'s vector clock. -/
def State.clock (s : State) (e k : Nat) : Nat := KV.get 0 s.vc (5 * e + k)

/-- Die `e`'s vector clock. -/
def State.clocks (s : State) (e : Nat) : List Nat := (List.range 5).map (s.clock e)

/-- `a ≥ b` modulo 2^32. -/
def clockGe (a b : Nat) : Bool := decide ((a + 2 ^ 32 - b % 2 ^ 32) % 2 ^ 32 < 2 ^ 31)

/-- The write overlaps another in memory. -/
def Write.overlaps (w u : Write) : Bool :=
  (w.scr == u.scr) && decide (w.addr < u.addr + u.bytes.length ∧ u.addr < w.addr + w.bytes.length)

/-- A module release stamped by die `d` is ready at die `e` (R190). -/
def State.releaseReady (s : State) (d e : Nat) (stamp covered : List Nat) : Bool :=
  decide ((s.clock e d + 1) % 2 ^ 32 = stamp.getD d 0) &&
    (List.range 5).all (fun k => decide (k = d) || clockGe (s.clock e k) (stamp.getD k 0)) &&
    covered.all (fun id => s.writes.all (fun w => decide (w.id ≠ id) || w.dies.contains e))

/-- Every write that is earlier in coherence order and overlaps is applied on die `e` (R190). -/
def State.coherent (s : State) (w : Write) (e : Nat) : Bool :=
  s.writes.all (fun u => ! w.overlaps u || decide (u.id = w.id) ||
    (match u.ord with
     | none => true
     | some a => (match w.ord with | none => u.dies.contains e | some b => decide (b ≤ a) || u.dies.contains e)))

/-- The names of the writes that are applied on a die. -/
def State.appliedOn (s : State) (d : Nat) : List Nat :=
  (s.writes.filter (fun w => w.dies.contains d)).map (·.id)

/-- Replaces a write in flight. -/
def State.putWrite (s : State) (w : Write) : State :=
  { s with writes := s.writes.map (fun u => if u.id = w.id then w else u) }

/-- A write that is applied on every die leaves flight and joins memory. -/
def State.fold (s : State) (w : Write) : State :=
  if s.allDies.all (fun e => w.dies.contains e) then
    { s with writes := s.writes.filter (fun u => u.id ≠ w.id),
             mem := s.mem.writeN w.addr w.bytes }
  else s.putWrite w

/-- A write is a module release (R190). -/
def Write.isModuleRelease (w : Write) : Bool :=
  match w.rel with
  | some sc => decide (4 ≤ sc)
  | none => false

/-- Applies a write on die `e`: at its first application it takes its place in coherence order; a module
release is stamped when it is first applied, and raises the clock of its own die (R190). -/
def State.applyAt (s : State) (w : Write) (e : Nat) : State :=
  let fresh := w.ord.isNone
  let w := if fresh then { w with ord := some s.nextOrd } else w
  let s := if fresh then { s with nextOrd := s.nextOrd + 1 } else s
  if w.isModuleRelease then
    if w.stamp.isNone then
      let n := (s.clock w.die w.die + 1) % 2 ^ 32
      let vc := KV.put s.vc (5 * w.die + w.die) n
      let s := { s with vc := vc }
      let s := if e = w.die then s else { s with vc := KV.put s.vc (5 * e + w.die) n }
      s.fold { w with dies := w.dies ++ [e], stamp := some (s.clocks w.die),
                      covered := s.appliedOn w.die }
    else
      let n := (w.stamp.getD []).getD w.die 0
      let s := if e = w.die then s else { s with vc := KV.put s.vc (5 * e + w.die) n }
      s.fold { w with dies := w.dies ++ [e] }
  else s.fold { w with dies := w.dies ++ [e] }

/-- The clocks let a write be applied on die `e`: a stamped module release must be ready there; the first
application of one must not run ahead of the lag that R190 allows. -/
def State.clockLets (s : State) (w : Write) (e : Nat) : Bool :=
  if w.isModuleRelease then
    match w.stamp with
    | some st => decide (e = w.die) || s.releaseReady w.die e st w.covered
    | none =>
      s.allDies.all (fun f => decide ((s.clock w.die w.die + 2 ^ 32 - s.clock f w.die) % 2 ^ 32 < 2 ^ 30)) &&
        (decide (e = w.die) ||
          s.releaseReady w.die e
            ((s.clocks w.die).set w.die ((s.clock w.die w.die + 1) % 2 ^ 32)) (s.appliedOn w.die))
  else true

/-- A fresh name. -/
def State.fresh (s : State) : State × Nat := ({ s with nextId := s.nextId + 1 }, s.nextId)

/-- A write as it is made: not applied anywhere. It bears the name of the access that makes it, where that has one. -/
def WriteTag.make (t : WriteTag) (id addr : Nat) (bytes : List Byte) : Write :=
  { id := t.name.getD id, writer := t.writer, die := t.die, walk := t.walk, scr := t.scr, own := t.own, addr := addr,
    bytes := bytes, rel := t.rel, acq := t.acq, mark := t.mark, foot := t.foot, fence := t.fence, home := none, dies := [], ord := none,
    stamp := none, covered := [] }

/-- Puts a write in flight. -/
def State.issueWrite (s : State) (t : WriteTag) (addr : Nat) (bytes : List Byte) : State :=
  { s with nextId := s.nextId + 1, writes := s.writes ++ [t.make s.nextId addr bytes] }

/-- Cuts bytes at an address into pieces that lie within one 64-byte line each (R188). The fuel is the
number of bytes. -/
def linePieces : Nat → Nat → List Byte → List (Nat × List Byte)
  | 0, _, _ => []
  | _, _, [] => []
  | n + 1, a, bs =>
    let k := 64 - a % 64
    (a, bs.take k) :: linePieces n (a + k) (bs.drop k)

/-- The tag of the piece that comes `n` bytes on. -/
def WriteTag.on (t : WriteTag) (n : Nat) : WriteTag := { t with mark := t.mark.map (fun m => (m.1, m.2 + n)) }

/-- Puts the pieces of a write in flight, each a write of its own. -/
def State.issuePieces (s : State) (t : WriteTag) : List (Nat × List Byte) → State
  | [] => s
  | (a, bs) :: rest => (s.issueWrite t a bs).issuePieces (t.on bs.length) rest

/-- The plain tag of a write that a hub agent or a peer's request makes on a die. -/
def WriteTag.other (die : Nat) : WriteTag :=
  { writer := .other, die := die, walk := 0, scr := false, own := false, rel := none, acq := none,
    mark := none, foot := none, name := none, fence := false }

/-- The tag of a plain write of a bank's control strand at its present word. -/
def State.ctlTag (s : State) (b : Nat) : WriteTag :=
  { WriteTag.other (dieOf b) with writer := .ctl b, walk := (s.bank b).wc.walk }

/-- A module release of an observer on a die that writes nothing itself (R190): it is stamped like a write. -/
def State.releaseWrite (s : State) (t : WriteTag) (scope : Nat) : State := s.issueWrite { t with rel := some scope } 0 []

/-- A write by a hub agent that is applied on every die at once and needs no rule of its own: boot, the
fault buffer, bitmaps. -/
def State.pokeBytes (s : State) (a : Nat) (bytes : List Byte) : State :=
  { s with mem := s.mem.writeN a bytes }

/-! ### The dirty log (R61) -/

/-- Marks the 4 KiB granules that a write of a tenant touches, or sets `outside`. -/
def State.markGranule (s : State) (tenant va : Nat) : State :=
  let r := s.hubReg (offDLOG tenant)
  let lsize := bitsOf r 125 120
  if bitAt r 127 && decide (30 ≤ lsize ∧ lsize ≤ 41) then
    let base := bitsOf r 119 93 * 2 ^ 30
    if base ≤ va ∧ va < base + 2 ^ lsize then
      let i := (va - base) / 4096
      let a := bitsOf r 91 56 * 2 ^ 16 + i / 8
      { s with mem := s.mem.write a (s.mem.read a ||| BitVec.ofNat 8 (2 ^ (i % 8))) }
    else s.setHub (offDLOG tenant) (r ||| 2 ^ 126)
  else s

/-- Marks every granule of the bytes from `va` on. -/
def State.markDirty (s : State) (tenant va n : Nat) : State :=
  if n = 0 then s
  else (List.range ((va + n - 1) / 4096 - va / 4096 + 1)).foldl
    (fun s k => s.markGranule tenant ((va / 4096 + k) * 4096)) s

end Sys2Proof.Machine
end

