-- ==== Sys2Proof/Machine/Translate.lean ====
section
/-! DEFINITION. Translation (R139-R146): the walk of a tenant's tables, the TLBs, page modes, and the
collection of faults (R147, R150). -/

namespace Sys2Proof.Machine

open Sys2Proof Host

/-- What an access needs of a page. -/
inductive AccKind where
  | read
  | write
  | atomic
  /-- the read of a `scop`, which a frozen page holds as it holds a write (R309) -/
  | scopRead
deriving DecidableEq, Repr

/-- The access writes nothing. -/
def AccKind.reads (k : AccKind) : Bool := decide (k = .read ∨ k = .scopRead)

/-- The kind of a miss (R151). -/
def AccKind.miss : AccKind → FaultKind
  | .read => .readMiss
  | .write => .writeMiss
  | .atomic => .atomicMiss
  | .scopRead => .readMiss

/-- The bit of a fault kind in a range's kinds (R151). -/
def FaultKind.bit : FaultKind → Nat
  | .readMiss => 1
  | .writeMiss => 2
  | .atomicMiss => 4
  | .rights => 8
  | .form => 16
  | .frozen => 32

/-! ### Table entries (R141, R142) -/

def leafMode (e : Nat) : Nat := bitsOf e 4 2
def leafPA (e : Nat) : Nat := bitsOf e 51 12 * 4096
def leafCtg (e : Nat) : Bool := bitAt e 8
def leafFrz (e : Nat) : Bool := bitAt e 9
def leafMclass (e : Nat) : Nat := bitsOf e 55 52
def leafGi (e : Nat) : Nat := bitsOf e 48 46
def leafPeer (e : Nat) : Nat := bitsOf e 45 36
def leafWindow (e : Nat) : Nat := bitsOf e 35 12

/-- The leaf is of a remote mode. -/
def leafRemote (e : Nat) : Bool := decide (leafMode e = 1 ∨ leafMode e = 2)

/-- The size of the page of a leaf at a level (R140). -/
def pageSize (level e : Nat) : Nat :=
  if level = 2 then 2 ^ 30 else if level = 1 then 2 ^ 21 else if leafCtg e then 2 ^ 16 else 2 ^ 12

/-- Some 4 KiB of `n` bytes from `pa` on lie in a granule that has been declared free (R117). -/
def State.anyFree (s : State) (pa n : Nat) : Bool :=
  ! s.power.free.isEmpty && (List.range (n / 4096)).any (fun k => s.freeGranule (pa + 4096 * k))

/-- A 4 KiB page may be translated to: it is populated (R16) and not declared free (R117). -/
def State.pageOk (s : State) (pa : Nat) : Bool :=
  s.populated pa && s.populated (pa + 4095) && ! s.anyFree pa 4096

/-- The first physical byte of a leaf's page; in a 64 KiB page the entry's own PA[15:12] are ignored. -/
def leafBase (level e : Nat) : Nat := leafPA e / pageSize level e * pageSize level e

/-- A leaf that the walker accepts (R142). -/
def State.leafOk (s : State) (level e : Nat) : Bool :=
  decide (level ≤ 2) && decide (bitsOf e 11 10 = 0) && decide (leafMode e ≤ 5) &&
  (! leafCtg e || decide (level = 0)) && decide (bitsOf e 63 56 = 0) &&
  (if leafMode e = 3 then decide (leafMclass e ≤ 11) else decide (bitsOf e 55 52 = 0)) &&
  (if leafRemote e then decide (bitsOf e 51 49 = 0) else true) &&
  (if level = 1 then decide (bitsOf e 20 12 = 0) else if level = 2 then decide (bitsOf e 29 12 = 0) else true) &&
  (if leafRemote e then true
   else s.populated (leafBase level e) && s.populated (leafBase level e + pageSize level e - 1) &&
     ! s.anyFree (leafBase level e) (pageSize level e))

/-- A pointer that the walker accepts (R142). -/
def State.pointerOk (s : State) (level e : Nat) : Bool :=
  decide (1 ≤ level) && decide (bitsOf e 11 2 = 0) && decide (bitsOf e 63 52 = 0) && s.pageOk (leafPA e)

/-- What a walk finds. -/
inductive Walk where
  | leaf (level e : Nat)
  | fault (k : FaultKind)
deriving DecidableEq, Repr

/-- The walk from a table at a level; the walker of die `die` reads its entries there. -/
def walkFrom (s : State) (die va : Nat) (acc : AccKind) : Nat → Nat → Walk
  | 0, table =>
    let e := s.see64 die (table + 8 * bitsOf va 20 12)
    if ! bitAt e 0 then .fault acc.miss
    else if bitAt e 1 && s.leafOk 0 e then .leaf 0 e else .fault .form
  | level + 1, table =>
    let e := s.see64 die (table + 8 * bitsOf va (12 + 9 * (level + 1) + 8) (12 + 9 * (level + 1)))
    if ! bitAt e 0 then .fault acc.miss
    else if bitAt e 1 then (if s.leafOk (level + 1) e then .leaf (level + 1) e else .fault .form)
    else if s.pointerOk (level + 1) e then walkFrom s die va acc level (leafPA e)
    else .fault .form

/-- The packet offset of an address in the page of a remote leaf (R144): in a 64 KiB page the low four bits of the
window page offset are taken as zero. -/
def remoteOffset (e size va : Nat) : Nat :=
  (if size = 2 ^ 16 then leafWindow e / 16 * 16 else leafWindow e) * 4096 + va % size

/-- The packet offset of an address under a leaf at a level. -/
def leafOffset (level e va : Nat) : Nat := remoteOffset e (pageSize level e) va

/-- The pointers that a walk from a table at a level passes: for each the level and the table it leads to. -/
def walkPointers (s : State) (die va : Nat) : Nat → Nat → List (Nat × Nat)
  | 0, _ => []
  | level + 1, table =>
    let e := s.see64 die (table + 8 * bitsOf va (12 + 9 * (level + 1) + 8) (12 + 9 * (level + 1)))
    if bitAt e 0 && ! bitAt e 1 && s.pointerOk (level + 1) e then
      (level, leafPA e) :: walkPointers s die va level (leafPA e)
    else []

/-- The walk for a tenant, from the root in PTROOT (R140). Nothing is refused at the root: one that lies in an
unpopulated range or a hole reads as bytes that nothing has written, a miss (log entry 94). Its reads take no slot of a
memory port (log entry 124). -/
def State.walk (s : State) (die tenant va : Nat) (acc : AccKind) : Walk :=
  let r := s.hubReg (offPTROOT tenant)
  if bitAt r 0 then walkFrom s die va acc 4 (bitsOf r 51 12 * 4096) else .fault .form

/-! ### TLBs (R145) -/

/-- Last level of a die, for hub agents of the lowest present compute die (R145). -/
def lastLevel (die : Nat) : Nat := 1088 + die

/-- The TLBs through which an observer translates, nearest first. -/
def State.tlbPlaces (s : State) (b : Option Nat) (xfer : Bool) : List Nat :=
  match b with
  | some b => [(if xfer then 512 else 0) + coreOf b, 1024 + clusterOf b, lastLevel (dieOf b)]
  | none => [lastLevel (s.present.headD 0)]

/-- The die whose walker serves an observer. -/
def State.walkDie (s : State) (b : Option Nat) : Nat :=
  match b with
  | some b => dieOf b
  | none => s.present.headD 0

/-- A TLB entry translates an address for a tenant. -/
def TlbEntry.hits (t : TlbEntry) (place tenant va : Nat) : Bool :=
  decide (t.place = place ∧ t.tenant = tenant ∧ t.va ≤ va ∧ va < t.va + t.size)

/-- An entry found in one of the TLBs, that is still held there (a free value: replacement is not
given). -/
def State.tlbFind (s : State) (tenant va : Nat) : List Nat → Option TlbEntry
  | [] => none
  | p :: rest =>
    match s.tlb.find? (fun t => t.hits p tenant va) with
    | some t => if Config.tlbHeld (s.freeCtr + p) then some t else s.tlbFind tenant va rest
    | none => s.tlbFind tenant va rest

/-- How many entries a TLB holds (R145): 32 in a core's, 1,024 in a cluster's, 8,192 in a die's last level. -/
def tlbSize (place : Nat) : Nat := if place < 1024 then 32 else if place < 1088 then 1024 else 8192

/-- Removes the entry at an index among those of a place. -/
def dropNth (place : Nat) : Nat → List TlbEntry → List TlbEntry
  | _, [] => []
  | n, t :: rest =>
    if t.place = place then (match n with | 0 => rest | k + 1 => t :: dropNth place k rest)
    else t :: dropNth place n rest

/-- Makes room for one more entry in a TLB: in a full one, an entry goes that the spec does not name, a free value
(log entry 95). -/
def tlbRoom (ctr place : Nat) (ts : List TlbEntry) : List TlbEntry :=
  let n := (ts.filter (fun t => decide (t.place = place))).length
  if tlbSize place ≤ n then dropNth place (Config.tlbVictim (ctr + place) % n) ts else ts

/-- Puts an entry into one TLB. -/
def State.tlbPut (s : State) (t : TlbEntry) : State :=
  let others := s.tlb.filter (fun u => ! decide (u.place = t.place ∧ u.tenant = t.tenant ∧ u.va = t.va))
  { s with tlb := t :: tlbRoom s.freeCtr t.place others }

/-- Puts an entry into the TLBs of a list of places. -/
def State.tlbFill (s : State) (places : List Nat) (tenant va size leaf : Nat) : State :=
  let s := places.foldl (fun s p => s.tlbPut { place := p, tenant := tenant, va := va / size * size, size := size,
                                               leaf := leaf, count := 0, reported := false }) s
  { s with freeCtr := s.freeCtr + 2048 }

/-! ### Walk caches (R145) -/

/-- Bytes that a table at a level covers. -/
def tableSpan (level : Nat) : Nat := 2 ^ (21 + 9 * level)

/-- The table that a held pointer entry gives for an address at a level, if the die's walk cache has one that was reached
from the present root (R140); whether it still holds it is a free value. -/
def State.walkHit (s : State) (die tenant va level : Nat) : Option Nat :=
  match s.walks.find? (fun w => decide (w.die = die ∧ w.tenant = tenant ∧ w.level = level ∧
      w.root = s.hubReg (offPTROOT tenant) ∧ w.va = va / tableSpan level * tableSpan level)) with
  | some w => if Config.walkHeld (s.freeCtr + level) then some w.table else none
  | none => none

/-- Where the walk of a die's walker starts: at the lowest table that its walk cache gives, else at the root. -/
def State.walkStart (s : State) (die tenant va : Nat) : Nat × Nat :=
  match [0, 1, 2, 3].findSome? (fun l => (s.walkHit die tenant va l).map (fun t => (l, t))) with
  | some x => x
  | none => (4, bitsOf (s.hubReg (offPTROOT tenant)) 51 12 * 4096)

/-- The walk of a die's walker, through its walk cache; with PTROOT.valid 0 it faults (R140). -/
def State.cachedWalk (s : State) (die tenant va : Nat) (acc : AccKind) : Walk :=
  let (level, table) := s.walkStart die tenant va
  if level = 4 ∨ bitAt (s.hubReg (offPTROOT tenant)) 0 = false then s.walk die tenant va acc else walkFrom s die va acc level table

/-- Keeps the pointer entries that a walk passes; with PTROOT.valid 0 it passes none. -/
def State.keepWalk (s : State) (die tenant va : Nat) : State :=
  let (level, table) := s.walkStart die tenant va
  let root := s.hubReg (offPTROOT tenant)
  let new := (if bitAt root 0 then walkPointers s die va level table else []).map (fun x =>
    ({ die := die, tenant := tenant, root := root, level := x.1, va := va / tableSpan x.1 * tableSpan x.1,
       table := x.2 } : WalkEntry))
  { s with walks := new ++ s.walks.filter (fun w => ! new.any (fun n =>
      decide (n.die = w.die ∧ n.tenant = w.tenant ∧ n.level = w.level ∧ n.va = w.va))) }

/-- Counts an access made through a MIGRATE entry of the last level, up to its threshold (R143). -/
def State.countMigrate (s : State) (place tenant va : Nat) : State :=
  { s with tlb := s.tlb.map (fun t =>
      if t.hits place tenant va && decide (leafMode t.leaf = 3) && ! t.reported then
        { t with count := Nat.min (t.count + 1) (2 ^ (leafMclass t.leaf + 4)) } else t) }

/-- What a translation gives. -/
inductive Xlat where
  /-- a byte of this module's memory, and the page's mode (LOCAL, MIGRATE or PARCEL) -/
  | phys (pa mode : Nat)
  /-- a byte of a peer's window: peer, grant index, packet offset, and whether the page is cached -/
  | remote (peer gi off : Nat) (cached : Bool)
  /-- a page in TRANSIT -/
  | transit
  | fault (k : FaultKind)
deriving DecidableEq, Repr

/-- The right that an access needs (R142). -/
def leafRight (e : Nat) : AccKind → Bool
  | .read => bitAt e 5
  | .write => bitAt e 6
  | .atomic => bitAt e 7
  | .scopRead => bitAt e 5

/-- What a leaf gives for an address: its right and frz first, then its mode (R293, checks 8 and 9). -/
def useLeaf (e size va : Nat) (acc : AccKind) : Xlat :=
  if ! leafRight e acc then .fault .rights
  else if leafFrz e && decide (acc ≠ .read) then .fault .frozen
  else if leafMode e = 5 then .transit
  else if leafRemote e then .remote (leafPeer e) (leafGi e) (remoteOffset e size va) (decide (leafMode e = 2))
  else .phys (leafPA e / size * size + va % size) (leafMode e)

/-- Translates an address for an observer of a tenant. Translations that the walk loads are put into its
TLBs; an access through a MIGRATE entry of the last level is counted. -/
def State.translate (s : State) (b : Option Nat) (xfer : Bool) (tenant va : Nat) (acc : AccKind) :
    State × Xlat :=
  let places := s.tlbPlaces b xfer
  let last := places.getLastD 0
  match s.tlbFind tenant va places with
  | some t =>
    let s := (s.countMigrate last tenant va)
    ({ s with freeCtr := s.freeCtr + 2048 }, useLeaf t.leaf t.size va acc)
  | none =>
    let die := s.walkDie b
    let w := s.cachedWalk die tenant va acc
    let s := s.keepWalk die tenant va
    match w with
    | .fault k => (s, .fault k)
    | .leaf level e =>
      let size := pageSize level e
      ((s.tlbFill places tenant va size e).countMigrate last tenant va, useLeaf e size va acc)

/-! ### Fault collection (R150) -/

/-- Kinds of a migrate request, which is an entry and a range of its own (R151). -/
def kindsMigrate : Nat := 64

/-- An entry is the one that a fault of some kinds joins: of its tenant and granule, and a migrate request or not. -/
def FaultEntry.joins (e : FaultEntry) (tenant va kinds : Nat) : Bool :=
  decide (e.tenant = tenant ∧ e.granule = va / 4096) && decide (e.kinds = kindsMigrate) == decide (kinds = kindsMigrate)

/-- Joins a fault to entries: to the entry of its granule, else a new one. -/
def joinEntry (es : List FaultEntry) (tenant va kinds : Nat) (f : Option Faulter) : List FaultEntry :=
  if es.any (fun e => e.joins tenant va kinds) then
    es.map (fun e => if e.joins tenant va kinds then
      { e with kinds := e.kinds ||| kinds, faulters := e.faulters ++ f.toList } else e)
  else es ++ [{ tenant := tenant, granule := va / 4096, kinds := kinds, faulters := f.toList }]

/-- A range that waits for its answer covers the granule of a fault of some kinds. -/
def FaultRange.has (r : FaultRange) (tenant va kinds : Nat) : Bool :=
  decide (r.tenant = tenant ∧ r.va ≤ va ∧ va < r.va + r.count * 4096) && ! r.answered &&
    decide (r.kinds = kindsMigrate) == decide (kinds = kindsMigrate)

/-- Entries at which a batch closes (R150). -/
def batchMost : Nat := 64

/-- The open batch of a die. -/
def State.openBatch (s : State) (die : Nat) : OpenBatch :=
  KV.get { entries := [], since := 0, waiting := [] } s.faults.dies die

/-- A fault joins a range delivered but not answered, where one of its die has its granule; else the open
batch of the die, or waits for room while that is full (R150, R152). -/
def State.collect (s : State) (die tenant va kinds : Nat) (f : Option Faulter) : State :=
  let die := if die = 4 then s.present.headD 0 else die
  let has := fun (b : Batch) => decide (b.die = die) && b.ranges.any (fun r => r.has tenant va kinds)
  if s.faults.delivered.any has then
    { s with faults := { s.faults with delivered := s.faults.delivered.map (fun b =>
        if has b then { b with ranges := b.ranges.map (fun r =>
          if r.has tenant va kinds then { r with kinds := r.kinds ||| kinds, faulters := r.faulters ++ f.toList }
          else r) } else b) } }
  else
    let o := s.openBatch die
    let known := o.entries.any (fun e => e.joins tenant va kinds)
    let o := if ! known && decide (batchMost ≤ o.entries.length) then
        { o with waiting := joinEntry o.waiting tenant va kinds f }
      else { o with entries := joinEntry o.entries tenant va kinds f,
                    since := if o.entries.isEmpty then s.time else o.since }
    { s with faults := { s.faults with dies := KV.put s.faults.dies die o } }

/-- A local fault of a bank (R147, R148): it is held against the bank and joins the collection of its
die. `xfer` names the transfer command, none the control strand. -/
def State.localFault (s : State) (b : Nat) (xfer : Option Nat) (va : Nat) (k : FaultKind) : State :=
  let vi := (s.bank b).place.vi
  let s := s.updBank b (fun B => B.onOut (fun o => { o with faults := o.faults ++
    [{ xfer := xfer, va := va, kind := k, age := 0, handler := B.trap.handler && decide (xfer = none) }] }))
  s.collect (dieOf b) vi va k.bit
    (some (match xfer with | none => .ctl b | some w => .granule b w))

/-! ### Parcels at use (R168, R169) -/

/-- The entry that a handle names for a tenant. -/
def State.parcel (s : State) (tenant handle : Nat) : Option Parcel :=
  if handle = 0 then none
  else s.parcels.table.find? (fun p => decide (p.handle = handle ∧ p.tenant = tenant))

/-- An entry covers an address. -/
def Parcel.covers (p : Parcel) (tenant va : Nat) : Bool :=
  decide (p.tenant = tenant ∧ p.base ≤ va ∧ va < p.base + p.length)

/-- An OPEN entry of the tenant covers the address (R168). -/
def State.parcelOpen (s : State) (tenant va : Nat) : Bool :=
  s.parcels.table.any (fun p => p.covers tenant va && decide (p.state = .opened))

/-- A write of `n` bytes at `va` would write header bytes 0-31 of a parcel (R169): the first such byte. -/
def State.headerHit (s : State) (tenant va n : Nat) : Option Nat :=
  match s.parcels.table.find? (fun p => decide (p.tenant = tenant ∧ p.state = .opened ∧
      va < p.base + 32 ∧ p.base < va + n)) with
  | some p => some (Nat.max va p.base)
  | none => none

end Sys2Proof.Machine
end

