-- ==== Sys2Proof/Machine/Order.lean ====
section
/-! DEFINITION. When an access of a task may be performed: annotations (R186), order within a task (R187),
fences (R192), the range checker and its gate (R133), memory ports (R105), and the application of a write
(R188-R190). -/

namespace Sys2Proof.Machine

open Sys2Proof Host

/-! ### What is outstanding -/

/-- An access reads. -/
def Access.reads (a : Access) : Bool :=
  match a.op with
  | .st => false
  | _ => true

/-- An access writes. -/
def Access.writes (a : Access) : Bool :=
  match a.op with
  | .st | .amo _ | .cas _ => true
  | _ => false

/-- An ordering code has an acquire half. -/
def hasAcquire (ord : Nat) : Bool := decide (ord = 1 ∨ ord = 3)

/-- An ordering code has a release half. -/
def hasRelease (ord : Nat) : Bool := decide (ord = 2 ∨ ord = 3)

/-- Every control-strand access of a bank named below `id` is performed. -/
def Bank.accBefore (B : Bank) (id : Nat) : Bool := B.out.acc.all (fun a => decide (id ≤ a.id))

/-- Every control-strand read of a bank named below `id` is performed. -/
def Bank.readsBefore (B : Bank) (id : Nat) : Bool :=
  B.out.acc.all (fun a => decide (id ≤ a.id) || ! a.reads)

/-- A write in flight of a bank is performed at a scope (R183). -/
def State.writeAt (s : State) (b : Nat) (w : Write) (scope : Nat) : Bool :=
  ! w.scr && (s.scopeDies (s.bank b).place.vi (dieOf b) scope).all (fun d => w.dies.contains d)

/-- Every control-strand write of a bank named below `id` is performed at a scope. A module release without bytes is no
write. -/
def State.ctlWritesAt (s : State) (b id scope : Nat) : Bool :=
  s.writes.all (fun w => decide (w.writer ≠ .ctl b) || decide (id ≤ w.id) || w.bytes.isEmpty || s.writeAt b w scope)

/-- The module release without bytes that bears a name is applied on the dies of a scope: what it covers is visible
there (R190). -/
def State.markAt (s : State) (b id scope : Nat) : Bool :=
  s.writes.all (fun w => decide (w.id ≠ id) || ! w.bytes.isEmpty || s.writeAt b w scope)

/-- The word is a command of the strand of tag `tag`: any MAT word, and `xgo`. -/
def isCommand (tag : Nat) : Instr → Bool
  | .xgo .. => decide (tag = 4)
  | i => decide (tag = 3) && decide (tagOf (encode i).toNat = 3)

/-- The words from index `pc` and walk index `w` on, along the path that a path FIFO gives, hold a command of the
strand of tag `tag` below walk index `w + fuel`. -/
def Bank.commandFrom (B : Bank) (tag : Nat) : Nat → Nat → List Nat → Bool
  | 0, _, _ => false
  | fuel + 1, pc, path =>
    if B.words ≤ pc then false
    else match decodeWord (B.wordAt pc) with
      | some i =>
        if isPathWord i then
          (match path with
           | [] => false
           | t :: rest => B.commandFrom tag fuel t rest)
        else if isCommand tag i then true else B.commandFrom tag fuel (pc + 1) path
      | none => B.commandFrom tag fuel (pc + 1) path

/-- M or X has a command below walk index `walk` on its path that it has not issued yet; in handler mode neither
walks (R164). -/
def Bank.commandAhead (B : Bank) (walk : Nat) : Bool :=
  ! B.trap.handler &&
  ([(Strand.m, 3), (Strand.x, 4)].any (fun x =>
    let w := B.walker x.1
    B.commandFrom x.2 (walk - w.walk) w.pc w.path))

/-- Every access of every matrix and transfer command of a bank below walk index `walk` is performed at a
scope. -/
def State.cmdsAt (s : State) (b walk scope : Nat) : Bool :=
  let B := s.bank b
  ! B.commandAhead walk &&
  B.mat.window.all (fun c => decide (walk ≤ c.walk)) &&
  B.xfer.window.all (fun c => decide (walk ≤ c.walk)) &&
  s.writes.all (fun w => match w.writer with
    | .granule b' k => decide (b' ≠ b) || decide (walk ≤ k) || s.writeAt b w scope
    | _ => true)

/-- Every reading command of a bank below `walk` has completed. -/
def Bank.cmdReadsBefore (B : Bank) (walk : Nat) : Bool :=
  ! B.commandAhead walk && B.mat.window.all (fun c => decide (walk ≤ c.walk)) && B.xfer.window.all (fun c => decide (walk ≤ c.walk))

/-- No `scop` of a bank named below `id` is outstanding. -/
def Bank.scopBefore (B : Bank) (id : Nat) : Bool :=
  match B.out.scop with | none => true | some sc => decide (id ≤ sc.id)

/-- Every earlier control-strand access is performed at a scope (R186). -/
def State.earlierCtlAt (s : State) (b id scope : Nat) : Bool :=
  (s.bank b).accBefore id && (s.bank b).scopBefore id && s.ctlWritesAt b id scope

/-- Every earlier control-strand access and every earlier command is performed at a scope (R192, R196,
R276, R281). -/
def State.earlierAllAt (s : State) (b id walk scope : Nat) : Bool :=
  s.earlierCtlAt b id scope && s.cmdsAt b walk scope

/-! ### Fences and acquires -/

/-- A fence at scope 2 or wider has no effect before the bank's ticket entries opened by older accesses
are FREE (R159). -/
def Bank.fenceTickets (B : Bank) (f : FenceRec) : Bool :=
  decide (f.scope < 2) || B.out.tkt.all (fun t => decide (f.id ≤ t.2.access))

/-- Every ticket entry of a bank that an access earlier than walk index `walk` has opened is FREE (R159). -/
def Bank.ticketsBefore (B : Bank) (walk : Nat) : Bool :=
  B.out.tkt.all (fun t => B.out.acc.all (fun a => decide (a.id ≠ t.2.access) || decide (walk ≤ a.walk)))

/-- The module release that a fence is has been applied at its scope (R190): what the task had seen before it is visible
there no later than what follows it (R191). -/
def State.fenceMarked (s : State) (b : Nat) (f : FenceRec) : Bool :=
  match f.mark with
  | some id => s.markAt b id f.scope
  | none => true

/-- A fence lets a later write be performed (R192). -/
def State.fenceLetsWrite (s : State) (b : Nat) (f : FenceRec) : Bool :=
  (s.bank b).fenceTickets f && s.fenceMarked b f &&
  (! hasRelease f.ord || s.earlierAllAt b f.id f.walk f.scope) &&
  (! hasAcquire f.ord || ((s.bank b).readsBefore f.id && (s.bank b).cmdReadsBefore f.walk))

/-- A fence lets a later read be performed (R192). -/
def State.fenceLetsRead (s : State) (b : Nat) (f : FenceRec) : Bool :=
  (! hasAcquire f.ord || (s.bank b).fenceTickets f) &&
  (! hasAcquire f.ord || ((s.bank b).readsBefore f.id && (s.bank b).cmdReadsBefore f.walk)) &&
  (decide (f.ord ≠ 3) || s.earlierAllAt b f.id f.walk f.scope)

/-- No acquire of a bank named below `id` is outstanding, and no scop (R186, R196). -/
def Bank.acquiresDone (B : Bank) (id : Nat) : Bool :=
  B.out.acc.all (fun a => decide (id ≤ a.id) || ! hasAcquire a.ord) && B.scopBefore id

/-- No write of the bank's control strand named below `id`, that later accesses wait for, is still not
performed at its acquire scope (R186). -/
def State.acquireWrites (s : State) (b : Nat) (later : Write → Bool) : Bool :=
  s.writes.all (fun w => decide (w.writer ≠ .ctl b) || later w ||
    (match w.acq with | some sc => s.writeAt b w sc | none => true))

/-- What a read-modify-write has read at another die is applied on the bank's own die (R188, R191). -/
def State.seenHere (s : State) (b : Nat) (x : SeenRec) : Bool :=
  s.writes.all (fun w => ! x.ids.contains w.id || w.dies.contains (dieOf b))

/-- A read named `id` of bytes may be performed as far as earlier read-modify-writes go: of the same bytes, those
that are acquires, and those before an acquire fence that precedes the read. -/
def State.seenLets (s : State) (b id : Nat) (hits : Nat → Nat → Bool) : Bool :=
  let B := s.bank b
  B.out.seen.all (fun x => decide (id ≤ x.id) || s.seenHere b x ||
    ! (hits x.addr x.size || x.acq ||
      B.out.fences.any (fun f => hasAcquire f.ord && decide (x.id < f.id ∧ f.id < id))))

/-- Records what a read-modify-write of a bank has read at the home die of its bytes: the writes to them that are
serialised and not applied on the bank's own die. -/
def State.noteSeen (s : State) (b : Nat) (a : Access) (addr : Nat) : State :=
  let ids := (s.writes.filter (fun w => ! w.scr && w.ord.isSome && ! w.dies.contains (dieOf b) &&
    decide (w.addr < addr + a.size ∧ addr < w.addr + w.bytes.length))).map (·.id)
  if ids.isEmpty then s
  else
    let old := (s.bank b).out.seen.filter (fun x => ! s.seenHere b x)
    s.updBank b (fun B => { B with out := { B.out with
      seen := old ++ [{ id := a.id, addr := addr, size := a.size, ids := ids, acq := hasAcquire a.ord }] } })

/-- A control-strand access named `id` may be performed as far as fences and acquires go. -/
def State.annotLets (s : State) (b id : Nat) (write : Bool) : Bool :=
  let B := s.bank b
  B.acquiresDone id && s.acquireWrites b (fun w => decide (id ≤ w.id)) &&
  B.out.xacq.all (fun x => decide (id < x.2) || B.xferRead x.1) &&
  B.out.fences.all (fun f => decide (id ≤ f.id) || f.xonly ||
    (if write then s.fenceLetsWrite b f else s.fenceLetsRead b f))

/-- Fences and acquires let an access of the control strand be performed, as far as it reads and as far as it
writes. -/
def State.annotsLet (s : State) (b : Nat) (a : Access) : Bool :=
  (! a.reads || s.annotLets b a.id false) && (! a.writes || s.annotLets b a.id true)

/-- The acquire fences before walk index `walk` let a matrix command make its accesses (R192). -/
def State.acquireFencesLet (s : State) (b walk : Nat) : Bool :=
  let B := s.bank b
  B.out.fences.all (fun f => decide (walk ≤ f.walk) || f.xonly || ! hasAcquire f.ord ||
    (B.fenceTickets f && B.readsBefore f.id && B.cmdReadsBefore f.walk))

/-- A transfer command at walk index `walk` may make a memory access (R186, R192, R371): no earlier acquire is
outstanding, of the control strand or of a transfer command, and earlier fences let it. -/
def State.granuleLets (s : State) (b walk : Nat) (write : Bool) : Bool :=
  let B := s.bank b
  B.out.acc.all (fun a => decide (walk ≤ a.walk) || ! hasAcquire a.ord) &&
  (match B.out.scop with | none => true | some sc => decide (walk ≤ sc.walk)) &&
  s.acquireWrites b (fun w => decide (walk ≤ w.walk)) &&
  B.out.seen.all (fun x => s.seenHere b x || ! (x.acq || B.out.fences.any (fun f =>
    hasAcquire f.ord && decide (x.id < f.id ∧ f.walk < walk)))) &&
  B.xfer.window.all (fun c => decide (walk ≤ c.walk) || ! hasAcquire c.ord || c.held || c.dropped || c.allMoved) &&
  B.out.fences.all (fun f => decide (walk ≤ f.walk) ||
    (if write then s.fenceLetsWrite b f else s.fenceLetsRead b f))

/-- Every control-strand access of a bank earlier than walk index `walk` is performed at a scope: what the release
of a transfer command waits for (R371). -/
def State.ctlBeforeAt (s : State) (b walk scope : Nat) : Bool :=
  (s.bank b).out.acc.all (fun a => decide (walk ≤ a.walk)) &&
  (match (s.bank b).out.scop with | none => true | some sc => decide (walk ≤ sc.walk)) &&
  s.writes.all (fun w => decide (w.writer ≠ .ctl b) || decide (walk ≤ w.walk) || w.bytes.isEmpty ||
    s.writeAt b w scope)

/-! ### The range checker (R133) -/

/-- Two ranges conflict. -/
def Range.conflicts (r t : Range) : Bool :=
  (r.wr || t.wr) && decide (r.lo ≤ t.hi ∧ t.lo ≤ r.hi)

/-- Two footprints conflict. -/
def rangesConflict (rs ts : List Range) : Bool := rs.any (fun r => ts.any (fun t => r.conflicts t))

/-- The gate: C, M and X have each passed every word below a walk index, or have stopped at index words. -/
def Bank.gateOpen (B : Bank) (walk : Nat) : Bool :=
  [Strand.c, .m, .x].all (fun e => decide (walk ≤ (B.walker e).walk) || B.stoppedAtEnd e)

/-- First core byte of a bank's window, as a scratchpad address. -/
def State.windowBase (s : State) (b : Nat) : Nat :=
  coreOf b * 2 ^ 20 + ((s.bank b).csrGet csrSPBASE).toNat

/-- Bytes in a bank's window. -/
def Bank.windowSize (B : Bank) : Nat := (B.csrGet csrSPLIM).toNat - (B.csrGet csrSPBASE).toNat

/-- The footprint of an access in its own scratchpad, in window bytes: one range over all its lanes. -/
def State.accRanges (s : State) (b : Nat) (lanes : List Nat) (size : Nat) (rd wr : Bool) : List Range :=
  match lanes with
  | [] => []
  | a :: rest =>
    let base := s.windowBase b
    let lo := rest.foldl Nat.min a - base
    let hi := rest.foldl Nat.max a + size - 1 - base
    (if rd then [{ lo := lo, hi := hi, wr := false }] else []) ++
    (if wr then [{ lo := lo, hi := hi, wr := true }] else [])

/-- The footprint of an outstanding control-strand access. -/
def State.rangesOf (s : State) (b : Nat) (a : Access) : List Range :=
  if a.own then
    s.accRanges b a.lanes a.size true (match a.op with | .amo _ | .cas _ => true | _ => false)
  else []

/-- The footprint of a write in flight to the bank's own scratchpad: that of its whole word, where it is one lane of
several (R305). -/
def State.rangesOfWrite (s : State) (b : Nat) (w : Write) : List Range :=
  if w.own then
    (match w.foot with
     | some (lo, hi) => [{ lo := lo - s.windowBase b, hi := hi - s.windowBase b, wr := true }]
     | none => s.accRanges b [w.addr] w.bytes.length false true)
  else []

/-- No older access or command of the bank conflicts with a footprint: older in text order, ties within
the control strand by name (R133). -/
def State.rangeFree (s : State) (b walk id : Nat) (rs : List Range) : Bool :=
  let B := s.bank b
  let older := fun (w i : Nat) => decide (w < walk) || (decide (w = walk) && decide (i < id))
  B.out.acc.all (fun a => ! older a.walk a.id || ! rangesConflict rs (s.rangesOf b a)) &&
  s.writes.all (fun w => decide (w.writer ≠ .ctl b) || ! older w.walk w.id ||
    ! rangesConflict rs (s.rangesOfWrite b w)) &&
  B.mat.window.all (fun c => ! older c.walk c.id || ! rangesConflict rs c.ranges) &&
  B.xfer.window.all (fun c => ! older c.walk c.id || ! rangesConflict rs c.ranges)

/-- The range checker releases a footprint: no conflict, and the gate is open. -/
def State.released (s : State) (b walk id : Nat) (rs : List Range) : Bool :=
  rs.isEmpty || (s.rangeFree b walk id rs && (s.bank b).gateOpen walk)

/-! ### Memory ports (R105) -/

/-- An access or write is still queued at a memory port. -/
def State.queued (s : State) (id : Nat) : Bool :=
  s.svc.ports.any (fun q => q.2.any (fun r => decide (r.id = id)))

/-- Queues an access at the port of a physical address; CXL memory has none. -/
def State.enqueue (s : State) (tenant id pa : Nat) : State :=
  match s.portOf pa with
  | none => s
  | some p =>
    let q := KV.get [] s.svc.ports p
    let r : PortReq := { tenant := tenant, id := id, channel := s.channelAt pa }
    if q.contains r then s else { s with svc := { s.svc with ports := KV.put s.svc.ports p (q ++ [r]) } }

/-- The 64-byte lines of some spans, by their first bytes. -/
def spanLines64 (spans : List (Nat × Nat)) : List Nat :=
  spans.flatMap (fun x => (List.range ((x.1 + x.2 - 1) / 64 - x.1 / 64 + 1)).map (fun k => (x.1 / 64 + k) * 64))

/-- Queues an access at the ports of several addresses. -/
def State.enqueueAll (s : State) (tenant id : Nat) (pas : List Nat) : State :=
  pas.foldl (fun s pa => s.enqueue tenant id pa) s

/-! ### Applying a write (R188-R190) -/

/-- A write's own task lets it take its place in coherence order: its release (R186), earlier fences and
acquires, its own earlier accesses to the same bytes (R187), and the range checker for its own
scratchpad. -/
def State.writeReady (s : State) (w : Write) : Bool :=
  match w.writer with
  | .ctl b =>
    (match w.rel with
     | some sc => if w.fence then s.earlierAllAt b w.id w.walk sc else s.earlierCtlAt b w.id sc
     | none => true) &&
    s.annotLets b w.id true &&
    (s.bank b).out.acc.all (fun a => decide (w.id ≤ a.id) || decide (a.scr ≠ w.scr) ||
      a.lanes.all (fun l => ! decide (l < w.addr + w.bytes.length ∧ w.addr < l + a.size))) &&
    s.writes.all (fun u => decide (u.writer ≠ w.writer) || decide (w.id ≤ u.id) || u.ord.isSome ||
      ! w.overlaps u) &&
    (! w.scr || s.released b w.walk w.id (s.rangesOfWrite b w))
  | .granule b walk =>
    s.granuleLets b walk true &&
    (match w.rel with
     | some sc => s.ctlBeforeAt b walk sc
     | none => true)
  | .other => true

/-- The write may be applied on die `e` now (R190, R194). -/
def State.mayApply (s : State) (w : Write) (e : Nat) : Bool :=
  ! s.queued w.id &&
  (if w.scr then s.writeReady w
   else
    s.allDies.contains e && ! w.dies.contains e && s.coherent w e && s.clockLets w e &&
    (w.ord.isSome ||
      (s.writeReady w && (match w.home with | some h => decide (e = h) | none => true) &&
        (! w.isModuleRelease || w.home.isSome || decide (e = w.die)))))

/-- Applies a write: in a scratchpad at once, in memory on die `e`. -/
def State.doApply (s : State) (w : Write) (e : Nat) : State :=
  if w.scr then
    { s with writes := s.writes.filter (fun u => u.id ≠ w.id), scr := s.scr.writeN w.addr w.bytes }
  else s.applyAt w e

/-! ### Applying what a `scop` finds in flight (R196) -/

/-- Puts a write before those that are earlier in coherence order. -/
def insertLatest (w : Write) : List Write → List Write
  | [] => [w]
  | u :: rest => if w.later u then w :: u :: rest else u :: insertLatest w rest

/-- The serialised writes in flight, the latest in coherence order first. -/
def State.serialised (s : State) : List Write :=
  (s.writes.filter (fun w => ! w.scr && w.ord.isSome)).foldl (fun l w => insertLatest w l) []

/-- Where `w` is applied, `u` is applied before it (R190): it is an earlier write to the same bytes, or `w` is a module
release that covers it or whose stamp counts it. -/
def Write.needs (w u : Write) : Bool :=
  u.overlaps w || w.covered.contains u.id ||
    (match w.stamp, u.stamp with
     | some x, some y => clockGe (x.getD u.die 0) (y.getD u.die 0)
     | _, _ => false)

/-- The writes in flight that a `scop` from die `d` at some bytes finds before it in the order of application, the
earliest first: those applied on die `d`, those to its bytes, and those that they need. -/
def State.scopFinds (s : State) (d pa size : Nat) : List Write :=
  s.serialised.foldl (fun l w =>
    if w.dies.contains d || decide (w.addr < pa + size ∧ pa < w.addr + w.bytes.length) || l.any (·.needs w) then w :: l
    else l) []

/-- Applies a write on every die on which it is not applied yet. -/
def State.applyRest (s : State) (w : Write) : State :=
  s.allDies.foldl (fun s e => match s.writes.find? (fun u => u.id = w.id) with
    | some u => if u.dies.contains e then s else s.applyAt u e
    | none => s) s

end Sys2Proof.Machine
end

