-- ==== Sys2Proof/Machine/Words.lean ====
section
/-! DEFINITION. CTL words on queues, flags, fences, references and routing counters; fences on arithmetic traps
and interrupts (R264-R270, R281-R286, R221). -/

namespace Sys2Proof.Machine

open Sys2Proof Host

/-! ### Ordering words that X passes -/

/-- X passes an ordering word: its transfer commands that follow wait for C to pass it too. -/
def noteOrder (b : Nat) (s : State) : State :=
  s.updBank b (fun B =>
    (B.onOut (fun o => { o with
      xwait := o.xwait.filter (fun w => decide (B.wc.walk ≤ w)) ++ [B.wx.walk] })).glide .x)

/-- A word of C that orders later accesses: X notes it, V and M skip it. -/
def orderWord (i : Instr) (rs : List Nat) (body : Nat → State → Res) (s : State) :
    Outcome State Fault Refusal :=
  let b := s.cur.bank
  .next (match s.cur.strand with
    | .c => finish b .c s (ctlRes i rs body b s)
    | .x => noteOrder b s
    | e => skip b e s)

/-! ### qmov (R264, R265) -/

/-- Depths of the queues (R125). -/
def depthLq : Nat := 16
def depthSq : Nat := 16
def depthCq : Nat := 32
def depthVq : Nat := 32
def depthOq : Nat := 8
def depthMq : Nat := 8
def depthXq : Nat := 16

/-- Changes the queues of a bank of the state. -/
def State.onQ (s : State) (b : Nat) (f : Queues → Queues) : State :=
  s.updBank b (fun B => { B with q := f B.q })

/-- `qmov cq, sa`. -/
def execQmovCq (a : BitVec 6) (s : State) :=
  ctlWord (.qmovCq a) [a.toNat] (fun b s =>
    if depthCq ≤ (s.bank b).filledOf qcCq (s.bank b).q.cq.length then .stall .queue
    else .done ((s.onQ b (fun q => { q with cq := q.cq ++ [s.sreg b a.toNat] })).updBank b (·.notePush qcCq 1))) s

/-- `qmov sd, vq`. -/
def execQmovVq (d : BitVec 6) (s : State) :=
  ctlWord (.qmovVq d) [d.toNat] (fun b s =>
    match (s.bank b).q.vq with
    | [] => .stall .queue
    | x :: rest =>
      if (s.bank b).poppable qcVq (rest.length + 1) = 0 then .stall .queue
      else .done (((s.onQ b (fun q => { q with vq := rest })).updBank b (·.notePop qcVq 1)).onRegs b
        (·.writeS d.toNat x))) s

/-- `qmov xq, sa`. -/
def execQmovXq (a : BitVec 6) (s : State) :=
  ctlWord (.qmovXq a) [a.toNat] (fun b s =>
    if depthXq ≤ (s.bank b).filledOf qcXq (s.bank b).q.xq.length then .stall .queue
    else .done ((s.onQ b (fun q => { q with xq := q.xq ++ [s.sreg b a.toNat] })).updBank b (·.notePush qcXq 1))) s

/-- A descriptor built from two scalars (R265). -/
def mqDescOf (a b : Word) : MqDesc :=
  { base := bitsOf a.toNat 19 0, rho := bitsOf a.toNat 23 20, rowPitch := bitsOf b.toNat 19 0,
    tilePitch := bitsOf b.toNat 39 20 }

/-- An `mpush` of the bank has not pushed its descriptors yet (R315). -/
def Bank.mpushOut (B : Bank) : Bool := B.out.acc.any (fun a => match a.op with | .mpush _ => true | _ => false)

/-- `qmov mq, sa, sb`; the descriptors of an earlier `mpush` go first (R315). -/
def execQmovMq (a c : BitVec 6) (s : State) :=
  ctlWord (.qmovMq a c) [a.toNat, c.toNat] (fun b s =>
    if (s.bank b).mpushOut || decide (depthMq ≤ (s.bank b).filledOf qcMq (s.bank b).q.mq.length) then .stall .queue
    else .done ((s.onQ b (fun q =>
      { q with mq := q.mq ++ [mqDescOf (s.sreg b a.toNat) (s.sreg b c.toNat)] })).updBank b (·.notePush qcMq 1))) s

/-! ### Flags (R266, R267) -/

/-- Every control-strand access issued so far has completed in the scratchpad and is performed at core
scope in global memory (R267). -/
def State.flagMay (s : State) (b : Nat) : Bool := s.earlierCtlAt b s.nextId 1

/-- A flag changes once the accesses before the word are done. -/
def flagBody (f : Bank → Bank) (b : Nat) (s : State) : Res :=
  if s.flagMay b then .done (s.updBank b f) else .stall .order

/-- `flag.rd` (R266): the value as it stands at the start of the ac (R135). -/
def execFlagRd (d : BitVec 6) (k : BitVec 4) (s : State) :=
  ctlWord (.flagRd d k) [d.toNat] (fun b s =>
    .done (s.onRegs b (·.writeS d.toNat (((s.bank b).flagAt k.toNat).setWidth 64)))) s

/-- `flag.wr` (R266). -/
def execFlagWr (a : BitVec 6) (k : BitVec 4) (s : State) :=
  ctlWord (.flagWr a k) [a.toNat] (flagBody (fun B => B.setFlag k.toNat ((B.r.readS a.toNat).setWidth 20))) s

/-- `flag.inc` (R266). -/
def execFlagInc (k : BitVec 4) (s : State) := ctlWord (.flagInc k) [] (flagBody (·.incFlag k.toNat)) s

/-- `flag.add` (R266): a write of the value at the start of the ac plus sa (R385). -/
def execFlagAdd (a : BitVec 6) (k : BitVec 4) (s : State) :=
  ctlWord (.flagAdd a k) [a.toNat] (flagBody (fun B =>
    B.setFlag k.toNat (B.flagAt k.toNat + (B.r.readS a.toNat).setWidth 20))) s

/-- A completion increments a flag of a bank (R135). -/
def State.incFlag (s : State) (b k : Nat) : State := s.updBank b (·.incFlag k)

/-! ### Fences (R192, R270) -/

/-- A fence with an acquire half still holds reads to what an earlier read-modify-write has read (R191). -/
def State.fenceSeen (s : State) (b : Nat) (f : FenceRec) : Bool :=
  hasAcquire f.ord && (s.bank b).out.seen.any (fun x => decide (x.id < f.id) && ! s.seenHere b x)

/-- Forgets the fences of a bank that hold nothing back any more. -/
def State.pruneFences (s : State) (b : Nat) : State :=
  s.updBank b (·.onOut (fun o => { o with
    fences := o.fences.filter (fun f => f.drop || s.fenceSeen b f || ! s.fenceLetsWrite b f || ! s.fenceLetsRead b f) }))

/-- Puts a fence of an ordering and scope at a walk index in force from here on; `mark` names the module release that it
is. -/
def State.putFence (s : State) (b walk ord scope : Nat) (xonly : Bool) (mark : Option Nat) : State :=
  let s := s.pruneFences b
  ({ s with nextId := s.nextId + 1 } : State).updBank b (·.onOut (fun o => { o with
    fences := o.fences ++ [{ id := s.nextId, walk := walk, ord := ord, scope := scope,
                             drop := hasAcquire ord && decide (scope = 5), xonly := xonly, mark := mark }] }))

/-- The control strand's fence; with a release half at scope 4 or 5 it is a module release (R190), stamped once what it
orders is performed. -/
def State.addFence (s : State) (b ord scope : Nat) : State :=
  let walk := (s.bank b).wc.walk
  if hasRelease ord && decide (4 ≤ scope) then
    (s.releaseWrite { s.ctlTag b with fence := true } scope).putFence b walk ord scope false (some s.nextId)
  else s.putFence b walk ord scope false none

/-- `fence` (R270). -/
def execFence (sc : BitVec 3) (o : BitVec 2) (s : State) :=
  orderWord (.fence sc o) [] (fun b s => .done (s.addFence b o.toNat sc.toNat)) s

/-! ### References (R286) -/

/-- `rbind`. -/
def execRbind (d k c : BitVec 6) (s : State) :=
  ctlWord (.rbind d k c) [d.toNat, c.toNat] (fun b s =>
    .done (s.onRegs b (fun r => r.writeBound d.toNat (r.readS c.toNat) (k.toNat + 1)))) s

/-- `radd`. -/
def execRadd (d a c : BitVec 6) (s : State) :=
  ctlWord (.radd d a c) [d.toNat, a.toNat, c.toNat] (fun b s =>
    let r := (s.bank b).r
    if r.binding a.toNat = 0 then .trap cRefForm (r.readS a.toNat)
    else .done (s.onRegs b (·.writeBound d.toNat (r.readS a.toNat + r.readS c.toNat) (r.binding a.toNat)))) s

/-- The OPEN entry that parcel register `k` of a bank names (R168). -/
def State.openEntry (s : State) (b k : Nat) : Option Parcel :=
  let B := s.bank b
  match s.parcel B.place.vi (KV.get 0 B.r.h k).toNat with
  | some p => if p.state = .opened then some p else none
  | none => none

/-- `runbind`. -/
def execRunbind (d a : BitVec 6) (s : State) :=
  ctlWord (.runbind d a) [d.toNat, a.toNat] (fun b s =>
    let r := (s.bank b).r
    if r.binding a.toNat = 0 then .trap cRefForm (r.readS a.toNat)
    else match s.openEntry b (r.binding a.toNat - 1) with
      | none => .trap cParcelGone (r.readS a.toNat)
      | some p => .done (s.onRegs b (·.writeS d.toNat (BitVec.ofNat 64 p.base + r.readS a.toNat)))) s

/-! ### Routing counters (R282-R284) -/

/-- A word in flight of a kind is earlier than the control strand's present word. -/
def Bank.jobsBefore (B : Bank) (p : Instr → Bool) (walk : Nat) : Bool :=
  B.vec.any (fun j => p j.instr && decide (j.walk < walk))

/-- The word is a `vhist`. -/
def isVhist : Instr → Bool
  | .vhist .. => true
  | _ => false

/-- Every `vhist` earlier in text order has completed (R284, R269). -/
def Bank.histDone (B : Bank) : Bool :=
  (decide (B.out.lastHist ≤ B.wv.walk) || B.stoppedAtEnd .v) && ! B.jobsBefore isVhist B.wc.walk

/-- The banks of a cluster that hold tasks of a group (R283). -/
def State.groupOnCluster (s : State) (b : Nat) : List Nat :=
  ((List.range 16).map (fun i => b / 16 * 16 + i)).filter (fun c =>
    decide ((s.bank c).place.group = (s.bank b).place.group) &&
      decide ((s.bank c).status = .live ∨ (s.bank c).status = .stopped ∨ (s.bank c).status = .ended))

/-- A routing counter of a bank, without what the present ac has added to it (R283). -/
def Bank.counter (B : Bank) (k : Nat) : BitVec 32 := KV.get (KV.get 0 B.cnt k) B.now.cntOld k

/-- A routing counter that `n` is added to, from a value on; it saturates (R282). -/
def satCount (v n : Nat) : BitVec 32 := BitVec.ofNat 32 (Nat.min (v + n) (2 ^ 32 - 1))

/-- Clears a routing counter of a bank; what the present ac adds to it stays (R283). -/
def State.clearCounter (s : State) (k : Nat) (b : Nat) : State :=
  s.updBank b (fun B => { B with cnt := KV.put B.cnt k (satCount 0 (KV.get 0 B.now.cntInc k)) }.onNow (fun a =>
    { a with cntOld := KV.put a.cntOld k 0 }))

/-- A read of a routing counter over some banks, clearing it there if `snap`. -/
def cntBody (d a : BitVec 6) (who : State → Nat → List Nat) (snap : Bool) (b : Nat) (s : State) : Res :=
  if ! (s.bank b).histDone then .stall .order
  else
    let k := (s.sreg b a.toNat).toNat % 256
    let sum := ((who s b).map (fun c => ((s.bank c).counter k).toNat)).foldl (· + ·) 0
    let s := if snap then (who s b).foldl (fun s c => s.clearCounter k c) s else s
    .done (s.onRegs b (·.writeS d.toNat (BitVec.ofNat 64 sum)))

/-- `cnt.rd`. -/
def execCntRd (d a : BitVec 6) (s : State) :=
  ctlWord (.cntRd d a) [d.toNat, a.toNat] (cntBody d a (fun _ b => [b]) false) s
/-- `cnt.snap`. -/
def execCntSnap (d a : BitVec 6) (s : State) :=
  ctlWord (.cntSnap d a) [d.toNat, a.toNat] (cntBody d a (fun _ b => [b]) true) s
/-- `cnt.rd.grp`. -/
def execCntRdGrp (d a : BitVec 6) (s : State) :=
  ctlWord (.cntRdGrp d a) [d.toNat, a.toNat] (cntBody d a State.groupOnCluster false) s
/-- `cnt.snap.grp`. -/
def execCntSnapGrp (d a : BitVec 6) (s : State) :=
  ctlWord (.cntSnapGrp d a) [d.toNat, a.toNat] (cntBody d a State.groupOnCluster true) s

/-! ### Arithmetic traps (R220, R221) -/

/-- A word of later text order than a `trapfence` that C has not decided before the present ac; one that has trapped
has been decided. -/
def Bank.heldBack (B : Bank) (walk : Nat) : Bool :=
  B.out.tfences.any (fun t => decide (t < walk) &&
    ((decide (B.wc.walk ≤ t) && decide (B.out.tdone ≠ some t)) || B.now.decided.contains t))

/-- Raises the FSTAT bits that no undecided `trapfence` holds back any more (R221). -/
def Bank.settle (B : Bank) : Bank :=
  let go := B.out.late.filter (fun x => ! B.heldBack x.1)
  if go.isEmpty then B
  else
    (B.onOut (fun o => { o with late := o.late.filter (fun x => B.heldBack x.1) })).raiseNow
      (go.foldl (fun (w : BitVec 7) x => w ||| x.2) 0)

/-- A vector or matrix word at walk index `walk` raises FSTAT bits when it completes (R220); those of a
word later than a `trapfence` wait for the ac after its decision. -/
def Bank.raiseFlags (B : Bank) (walk : Nat) (bits : BitVec 7) : Bank :=
  if bits = 0 then B else (B.onOut (fun o => { o with late := o.late ++ [(walk, bits)] })).settle

/-- Every vector and matrix word earlier in text order has completed (R221). -/
def Bank.arithDone (B : Bank) : Bool :=
  (decide (B.out.lastVec ≤ B.wv.walk) || B.stoppedAtEnd .v) &&
  (decide (B.out.lastMat ≤ B.wm.walk) || B.stoppedAtEnd .m) &&
  ! B.jobsBefore (fun _ => true) B.wc.walk && B.mat.window.all (fun c => decide (B.wc.walk ≤ c.walk))

/-- V or M passes a `trapfence` that C may not have decided. -/
def noteTrapfence (b : Nat) (e : Strand) (s : State) : State :=
  s.updBank b (fun B =>
    (B.onOut (fun o => { o with
      tfences := o.tfences.filter (fun t => decide (B.wc.walk ≤ t) || B.now.decided.contains t) ++
        [(B.walker e).walk] })).glide e)

/-- The control strand at `trapfence`: it waits for the ac after the last completion that raises a flag, then traps
with ARITH if an enabled flag is set at the start of it. On a system core it has no effect (R290). -/
def trapfenceBody (b : Nat) (s : State) : Res :=
  if isSys b then .done s
  else
    let B := s.bank b
    if ! B.arithDone || decide (B.now.raised ≠ 0) then .stall .order
    else
      let bits := B.fstatAt &&& B.csrGet csrFENA
      let t := s.updBank b (·.onNow (fun a => { a with decided := B.wc.walk :: a.decided }))
      if bits ≠ 0 then .trapWith (t.updBank b (·.onOut (fun o => { o with tdone := some B.wc.walk }))) cArith bits
      else .done t

/-- `trapfence` (R221). -/
def execTrapfence (s : State) : Outcome State Fault Refusal :=
  let b := s.cur.bank
  .next (match s.cur.strand with
    | .c => finish b .c s (ctlRes .trapfence [] trapfenceBody b s)
    | .x => skip b .x s
    | e => noteTrapfence b e s)

/-! ### Interrupts (R281) -/

/-- `intr` (R281): the request waits for the accesses before it; two of one vector that wait are one
message, ordered after the later word. -/
def execIntr (v : BitVec 6) (s : State) :=
  ctlWord (.intr v) [] (fun b s =>
    let w := (s.bank b).wc.walk
    .done (({ s with nextId := s.nextId + 1 } : State).updBank b (·.onOut (fun o => { o with
      intrs := o.intrs.filter (fun x => x.1 ≠ v.toNat) ++ [(v.toNat, s.nextId, w)] })))) s

end Sys2Proof.Machine
end

