-- ==== Sys2Proof/Machine/Csr.lean ====
section
/-! DEFINITION. Rendezvous words (R249) and the system registers (R287-R290). -/

namespace Sys2Proof.Machine

open Sys2Proof Host

/-! ### Rendezvous words (R249) -/

/-- All four strands stand at the control strand's word. -/
def Bank.allHere (B : Bank) : Bool :=
  [Strand.v, .m, .x].all (fun e => decide ((B.walker e).walk = B.wc.walk ∧ (B.walker e).pc = B.wc.pc))

/-- Every strand passes. -/
def Bank.passAll (B : Bank) : Bank := (((B.pass .c).pass .v).pass .m).pass .x

/-- The control strand executes a rendezvous word: alone on a system core and in handler mode, otherwise
once every strand stands there, and then every strand passes. -/
def rendezvousRes (b : Nat) (s : State) (r : Res) : State :=
  let B := s.bank b
  if isSys b || B.trap.handler then finish b .c s r
  else if B.allHere then
    match r with
    | .done t => t.updBank b (·.passAll)
    | r => finish b .c s r
  else s.updBank b (·.stand .c .rendezvous)

/-- A rendezvous word: every strand stops at it, unless a return from a trap has passed it (R165). -/
def rendezvousWord (i : Instr) (rs : List Nat) (body : Nat → State → Res) (s : State) :
    Outcome State Fault Refusal :=
  let b := s.cur.bank
  let e := s.cur.strand
  .next (if e = .c then rendezvousRes b s (ctlRes i rs body b s)
    else if (s.bank b).skipped e then skip b e s
    else s.updBank b (·.stand e .rendezvous))

/-! ### The map (R288) -/

/-- A register number that the map lists. -/
def csrListed (n : Nat) : Bool :=
  decide (n ≤ 0x005 ∨ n = csrMDEF ∨ n = csrVMODE ∨ n = csrVSH ∨ n = csrFSTAT ∨ n = csrFENA ∨
    (csrTVEC ≤ n ∧ n ≤ csrTPC) ∨ n = csrSPBASE ∨ n = csrSPLIM ∨ (csrRL0 ≤ n ∧ n < csrRL0 + 8) ∨
    n = csrADMST ∨ n = csrPWRST ∨ n = csrGID ∨ n = csrGSHAPE ∨ n = csrWHEEL ∨
    (csrCYCLE ≤ n ∧ n ≤ csrCORE))

/-- The registers that a system core reaches (R290). -/
def csrSystem (n : Nat) : Bool :=
  decide (n = csrMDEF ∨ n = csrFSTAT ∨ n = csrFENA ∨ (csrTVEC ≤ n ∧ n ≤ csrTPC) ∨ n = csrCYCLE ∨
    n = csrMTIME ∨ n = csrMODID)

/-- The bits of a register that a write sets (R4, R289). -/
def csrMask (n : Nat) : Word :=
  if n = csrSLIP then 0xFFFF
  else if n = csrESC then 0xF
  else if n = csrHOLD then 0x1FFF
  else if n = csrWDOG then 0xFFFFFFFF
  else if n = csrFSWITCH then 0xFFFF
  else if n = csrETA then BitVec.allOnes 64
  else if n = csrMDEF then 0x1FFF
  else if n = csrVMODE then 0xF
  else if n = csrVSH then 0xFFFFFFFC7
  else if n = csrFSTAT then 0x7F
  else if n = csrFENA then 0x7F
  else if n = csrTVEC then 0xFFFF
  else if n = csrTCAUSE then 0x7FF
  else if n = csrTVAL then BitVec.allOnes 64
  else if n = csrTPC then 0x7FFF
  else if csrRL0 ≤ n ∧ n < csrRL0 + 8 then BitVec.allOnes 64
  else if n = csrADMST then 0xFF
  else if n = csrPWRST then 0x80
  else 0

/-- A write whose value the register's own rule refuses whole: MDEF (R185), VMODE (R216), VSH (R324). -/
def csrRefuses (n : Nat) (x : Word) : Bool :=
  let v := x.toNat
  if n = csrMDEF then decide (3 < bitsOf v 12 10) || decide (5 < bitsOf v 9 7) || decide (3 < bitsOf v 4 2)
  else if n = csrVMODE then decide (5 ≤ bitsOf v 2 0)
  else if n = csrVSH then
    tagReserved (bitsOf v 11 6) || tagReserved (bitsOf v 17 12) || tagReserved (bitsOf v 23 18) ||
      tagReserved (bitsOf v 29 24) || tagReserved (bitsOf v 35 30)
  else false

/-- A register as it reads: those that describe the placement or count come from where they are kept. -/
def State.csrRead (s : State) (b n : Nat) : Word :=
  let B := s.bank b
  if n = csrGID then BitVec.ofNat 64 B.place.group
  else if n = csrGSHAPE then BitVec.ofNat 64 (B.place.rank * 2 ^ 32 + B.place.shape)
  else if n = csrWHEEL then BitVec.ofNat 64 (b * 8 + B.place.wheel)
  else if n = csrCYCLE ∧ isSys b = true then Config.hubCycle s.time
  else if n = csrMTIME then BitVec.ofNat 64 (s.time / 1000)
  else if n = csrMODID then BitVec.ofNat 64 (s.boot.moduleNo * 2 ^ 16 + s.boot.incarnation)
  else if n = csrCORE then BitVec.ofNat 64 (B.place.vi * 2 ^ 10 + b)
  else if n = csrFSTAT then B.fstatAt
  else B.csrGet n

/-- A register's value to which the hardware's updates of the present ac are applied: FSTAT keeps the bits that are
raised (R220), any other register the fields that are updated (R287, R385). -/
def Bank.withUpdates (B : Bank) (n : Nat) (v : Word) : Word :=
  let (m, u) := KV.get (0, 0) B.now.hard n
  if n = csrFSTAT then v ||| B.now.raised.setWidth 64 else (v &&& ~~~ m) ||| (u &&& m)

/-- A write of a register, field by field (R4), before the hardware's updates of the same ac. SLIP keeps its old value
for the ac (R122). -/
def Bank.csrWrite (B : Bank) (n : Nat) (x : Word) : Bank :=
  if csrRefuses n x || decide (csrMask n = 0) then B
  else
    let v := (x &&& csrMask n) ||| (B.csrGet n &&& ~~~ csrMask n)
    let old := B.now.slipOld.getD (B.csrGet n)
    let B := if n = csrSLIP then B.onNow (fun a => { a with slipOld := some old }) else B
    (B.csrPut n (B.withUpdates n v)).moved

/-- A `csr` that writes a register whose write is a rendezvous word. -/
def csrMeets (a i : Nat) : Bool :=
  decide (a ≠ 0) && decide (i = csrMDEF ∨ i = csrVMODE ∨ i = csrVSH ∨ i = csrFSTAT)

/-- The control strand at `csr` (R287): the number is checked, then the register is read into d and
written from a. -/
def csrBody (d a : BitVec 6) (i : BitVec 12) (b : Nat) (s : State) : Res :=
  let n := i.toNat
  let w := wordVal (.csr d a i)
  if isSys b && ! csrSystem n then .trap cIllegal w
  else if 0x800 ≤ n then .trap cPriv w
  else if ! csrListed n then .trap cIllegal w
  else
    let old := s.csrRead b n
    let x := s.sreg b a.toNat
    let t := if d = 0 then s else s.onRegs b (·.writeS d.toNat old)
    .done (if a = 0 then t else t.updBank b (·.csrWrite n x))

/-- `csr` (R287). -/
def execCsr (d a : BitVec 6) (i : BitVec 12) (s : State) : Outcome State Fault Refusal :=
  if csrMeets a.toNat i.toNat then rendezvousWord (.csr d a i) [d.toNat, a.toNat] (csrBody d a i) s
  else ctlWord (.csr d a i) [d.toNat, a.toNat] (csrBody d a i) s

end Sys2Proof.Machine
end

