-- ==== Sys2Proof/Machine/Fabric.lean ====
section
/-! DEFINITION. The scale-up fabric and its links (chapter 03): the graph (R33-R35), the choice of a path
(R36), packets and flits (R38-R40), replay (R41), keys (R42-R44) and joins (R46). -/

namespace Sys2Proof.Machine

open Sys2Proof Host

/-! ### The graph (R33, R34) -/

/-- The point of a module number, in coordinates modulo 31. -/
def pointOf (n : Nat) : Nat × Nat × Nat :=
  if n < 961 then (1, n / 31, n % 31) else if n < 992 then (0, 1, n - 961) else (0, 0, 1)

/-- Two modules are adjacent. -/
def adjacent (a b : Nat) : Bool :=
  let (x, y, z) := pointOf a
  let (u, v, w) := pointOf b
  decide (a ≠ b) && decide ((x * u + y * v + z * w) % 31 = 0)

/-- The neighbours of a module, in increasing module number: port p leads to the p-th. -/
def neighbours (n : Nat) : List Nat := (List.range 993).filter (adjacent n)

/-- Hops of the minimal path between two modules (R35). -/
def hopsBetween (a b : Nat) : Nat := if a = b then 0 else if adjacent a b then 1 else 2

/-! ### Packets as bytes (R40) -/

/-- The bytes of a packet: the 32-byte header, then the body. -/
def Packet.bytes (p : Packet) : List Byte :=
  leBytes 2 p.dest ++ leBytes 2 p.source ++ leBytes 2 p.inter ++ leBytes 1 p.op ++ leBytes 1 p.tenant ++
  leBytes 2 p.sinc ++ leBytes 2 p.tinc ++ leBytes 2 p.core ++ leBytes 1 p.slot ++ leBytes 1 p.rsv ++
  leBytes 8 p.addr ++ leBytes 8 p.token ++ p.body

/-- `n` bytes at offset `o`, as a number. -/
def leAt (bs : List Byte) (o n : Nat) : Nat := ofLeBytes ((bs.drop o).take n)

/-- The packet that bytes hold. -/
def Packet.ofBytes (bs : List Byte) : Packet :=
  { dest := leAt bs 0 2, source := leAt bs 2 2, inter := leAt bs 4 2, op := leAt bs 6 1,
    tenant := leAt bs 7 1, sinc := leAt bs 8 2, tinc := leAt bs 10 2, core := leAt bs 12 2,
    slot := leAt bs 14 1, rsv := leAt bs 15 1, addr := leAt bs 16 8, token := leAt bs 24 8, body := bs.drop 32 }

/-- The class of an op: 0 request, 1 response (R38, R298). -/
def opClass (op : Nat) : Nat := if 0x80 ≤ op then 1 else 0

/-- The event that a packet of an op brings about where it ends (R298); none for an op not listed. -/
def opEvent (op : Nat) : Option Instr :=
  match op with
  | 0x01 => some .read
  | 0x02 => some .write
  | 0x03 => some .amoRequest
  | 0x04 => some .casRequest
  | 0x05 => some .ptry
  | 0x06 => some .pdata
  | 0x81 => some .resp
  | 0x82 => some .notice
  | 0x83 => some .pdone
  | _ => none

/-- Adds a turn of an event at the end of the agenda. -/
def State.schedule (s : State) (i : Instr) (inp : Input) : State :=
  { s with agenda := s.agenda ++ [{ ps := 0, act := .event i inp }] }

/-- A packet has reached its module through a die: its event follows; an op not listed is discarded. -/
def State.deliver (s : State) (die : Nat) (p : Packet) : State :=
  match opEvent p.op with
  | some i => s.schedule i { Input.none with who := die, packet := p }
  | none => s

/-! ### Ports and keys -/

/-- A fabric port's link. -/
def State.link (s : State) (port : Nat) : Link := KV.get Link.reset s.fab.links port

/-- Replaces a port's link. -/
def State.setLink (s : State) (port : Nat) (l : Link) : State :=
  { s with fab := { s.fab with links := KV.put s.fab.links port l } }

/-- The ports of fenced dies do not exist (R23). -/
def State.portUp (s : State) (port : Nat) : Bool :=
  (s.link port).trained && ! s.boot.fenced.contains (port / 8)

/-- The key of a generation for one direction (R42). DESIGN CHOICE (log entry 86): "FLNK", then the direction in one
byte, 0 as sent by the lower-numbered module, then g in four bytes, little-endian. -/
def State.linkKey (s : State) (port gen : Nat) (sending : Bool) : BitVec 256 :=
  let me := s.boot.moduleNo
  let peer := (neighbours me).getD port 0
  let dir := if sending == decide (me < peer) then 0 else 1
  Config.hkdf (s.link port).secret (leBytes 4 0x4B4E4C46 ++ leBytes 1 dir ++ leBytes 4 gen)

/-- The nonce of a flit (R42). -/
def flitNonce (epoch seq txc phase : Nat) (control : Bool) : BitVec 96 :=
  BitVec.ofNat 96 (epoch * 2 ^ 64 + seq * 2 ^ 40 + txc * 2 ^ 38 + phase * 2 ^ 37 +
    (if control then 2 ^ 36 else 0))

/-- The flit header as additional authenticated data (R39). -/
def Flit.header (f : Flit) : List Byte :=
  leBytes 16 (f.seq * 2 ^ 104 + f.ack * 2 ^ 80 + f.phase * 2 ^ 79 + f.txc * 2 ^ 77 + f.vc * 2 ^ 74 +
    f.kind * 2 ^ 72 + f.cvc * 2 ^ 69 + f.ccnt * 2 ^ 64 + f.pos * 2 ^ 62 + f.rsv)

/-- The highest data seq received in order. -/
def Link.ackOut (l : Link) : Nat := (l.rxSeq + 2 ^ 24 - 1) % 2 ^ 24

/-- The credits that the next flit returns. DESIGN CHOICE (log entry 87): those of the lowest channel that owes some,
at most 31. -/
def Link.creditOut (l : Link) : Nat × Nat :=
  match (List.range 8).find? (fun v => decide (0 < KV.get 0 l.owed v)) with
  | some v => (v, Nat.min 31 (KV.get 0 l.owed v))
  | none => (0, 0)

/-- Puts a data flit on the wire under the transmitter's current key (R42). DESIGN CHOICE (log entry 108): the credits that
a flit carries count as returned when it is sent; the spec gives no rule for those of a flit that is lost, and a replay
carries credits of its own time. -/
def State.transmit (s : State) (port : Nat) (f : BufFlit) : State :=
  let l := s.link port
  let (cv, cn) := l.creditOut
  let base : Flit := { seq := f.seq, ack := l.ackOut, phase := l.txPhase, txc := f.txc, vc := f.vc,
                       kind := 0, cvc := cv, ccnt := cn, pos := f.pos, rsv := 0, payload := [], tag := 0 }
  let epoch := if l.txSeq ≤ f.seq ∧ 0 < l.txEpoch then l.txEpoch - 1 else l.txEpoch
  let (c, t) := Config.gcmSeal (s.linkKey port l.txGen true)
    (flitNonce epoch f.seq f.txc l.txPhase false) base.header f.payload
  s.setLink port { l with
    wire := l.wire ++ [{ base with payload := c, tag := t }],
    owed := KV.put l.owed cv (KV.get 0 l.owed cv - cn),
    sentUnderKey := l.sentUnderKey + 1,
    firstNew := if l.switching && l.firstNew.isNone then some f.seq else l.firstNew }

/-- Puts a control flit of a subtype on the wire (R39, R41). -/
def State.control (s : State) (port sub : Nat) (rest : List Byte) : State :=
  let l := s.link port
  if ! l.trained then s
  else
    let (cv, cn) := l.creditOut
    let base : Flit := { seq := l.ctlSeq, ack := l.ackOut, phase := l.txPhase, txc := 0, vc := 0,
                         kind := 1, cvc := cv, ccnt := cn, pos := 0, rsv := 0, payload := [], tag := 0 }
    let pay := (leBytes 1 sub ++ rest ++ List.replicate 224 0).take 224
    let (c, t) := Config.gcmSeal (s.linkKey port l.txGen true)
      (flitNonce l.ctlEpoch l.ctlSeq 0 l.txPhase true) base.header pay
    s.setLink port { l with
      wire := l.wire ++ [{ base with payload := c, tag := t }],
      owed := KV.put l.owed cv (KV.get 0 l.owed cv - cn),
      ctlSeq := (l.ctlSeq + 1) % 2 ^ 24,
      ctlEpoch := if l.ctlSeq + 1 = 2 ^ 24 then l.ctlEpoch + 1 else l.ctlEpoch }

/-- A flit that this module forwards has left the receive buffer of the port and channel on which it came: that
credit is owed (R38), and an idle flit carries it where the port has nothing else to send. -/
def State.freeBuffer (s : State) (from_ : Option (Nat × Nat)) : State :=
  match from_ with
  | none => s
  | some (port, vc) =>
    let l := s.link port
    (s.setLink port { l with owed := KV.put l.owed vc (KV.get 0 l.owed vc + 1) }).control port 0 []

/-- Sends what credits and the replay buffer let (R38, R41). The fuel is the number of queued flits. -/
def State.pumpLink (s : State) (port : Nat) : Nat → State
  | 0 => s
  | n + 1 =>
    let l := s.link port
    if ! l.trained || l.training || decide (1024 ≤ l.buf.length) then s
    else match l.queue.find? (fun f => decide (0 < KV.get 0 l.credits f.vc)) with
      | none => s
      | some f =>
        let g := { f with seq := l.txSeq, from_ := none }
        let s := s.setLink port { l with
          queue := l.queue.erase f,
          credits := KV.put l.credits f.vc (KV.get 0 l.credits f.vc - 1),
          buf := l.buf ++ [{ g with txc := 1 }], ackAt := if l.buf.isEmpty then s.time else l.ackAt,
          txSeq := (l.txSeq + 1) % 2 ^ 24,
          txEpoch := if l.txSeq + 1 = 2 ^ 24 then l.txEpoch + 1 else l.txEpoch }
        ((s.transmit port g).freeBuffer f.from_).pumpLink port n

/-- The flits of a packet on a channel: one to four, each of 224 bytes. -/
def packetFlits (p : Packet) (vc : Nat) : List BufFlit :=
  let bs := p.bytes
  let n := (bs.length + 223) / 224
  (List.range n).map (fun i =>
    { seq := 0, vc := vc, txc := 0, from_ := none,
      pos := if n = 1 then 0 else if i = 0 then 1 else if i + 1 = n then 3 else 2,
      payload := ((bs.drop (224 * i)).take 224 ++ List.replicate 224 0).take 224 })

/-- Queues a packet at a port on channel `h` of its class, and sends what can be sent. Its flits fill the receive
buffer that `from_` names until they are sent. -/
def State.putOnPort (s : State) (port : Nat) (p : Packet) (h : Nat) (from_ : Option (Nat × Nat)) : State :=
  let l := s.link port
  let l := { l with queue := l.queue ++ (packetFlits p (opClass p.op * 4 + h)).map (fun f => { f with from_ := from_ }) }
  (s.setLink port l).pumpLink port l.queue.length

/-! ### The source router (R36) -/

/-- A candidate path: intermediate (0x3FF for the minimal path), first-hop port and length. -/
structure Path where
  inter : Nat
  port : Nat
  len : Nat
deriving DecidableEq, Repr

def rtHops (r : Nat) : Nat := bitsOf r 41 40
def rtPort (r : Nat) : Nat := bitsOf r 46 42
def rtNalt (r : Nat) : Nat := bitsOf r 49 47
def rtAlt (r k : Nat) : Nat := bitsOf r (10 * k + 59) (10 * k + 50)

/-- Two alternates chosen at random from the valid ones; all of them where there are fewer (R36). -/
def pickAlternates (rnd n : Nat) : List Nat :=
  if n ≤ 2 then List.range n
  else
    let i := rnd % n
    let j := rnd / 2 ^ 32 % (n - 1)
    let j := if j < i then j else j + 1
    if i < j then [i, j] else [j, i]

/-- The candidates of a destination that R36 keeps. A path through an intermediate begins with the intermediate's own
minimal path, so its RTAB entry must be valid and give one. DEDUCED (log entry 88): hops(I→D), for which the spec
names no table, is that of the graph (R35). -/
def State.candidates (s : State) (dest rnd : Nat) : List Path :=
  let r := s.hubReg (offRTAB dest)
  let minimal := if rtHops r = 1 ∨ rtHops r = 2 then [{ inter := 0x3FF, port := rtPort r, len := rtHops r : Path }] else []
  let alts := (pickAlternates rnd (rtNalt r)).map (fun k =>
    let i := rtAlt r k
    let ri := s.hubReg (offRTAB i)
    (bitAt ri 0 && decide (rtHops ri = 1 ∨ rtHops ri = 2),
      ({ inter := i, port := rtPort ri, len := rtHops ri + hopsBetween i dest } : Path)))
  let alts := (alts.filter (·.1)).map (·.2)
  (minimal ++ alts.filter (fun p => decide (p.len ≤ 4))).filter (fun p => s.portUp p.port)

/-- Flits queued at a port in a class. -/
def State.queuedFlits (s : State) (port cls : Nat) : Nat :=
  ((s.link port).queue.filter (fun f => decide (f.vc / 4 = cls))).length

/-- Sends a packet to another module, or answers none where no path is left (R36). A packet to its own
module enters through no port and is delivered over the die links. -/
def State.send (s : State) (p : Packet) : Option State :=
  if p.dest = s.boot.moduleNo then some (s.deliver 4 p)
  else
    let r := s.hubReg (offRTAB p.dest)
    if ! bitAt r 0 || (decide (rtHops r = 3) && decide (rtNalt r = 0)) then none
    else
      let rnd := (Config.random s.freeCtr).toNat
      let s := { s with freeCtr := s.freeCtr + 1 }
      let cost := fun (q : Path) => s.queuedFlits q.port (opClass p.op) * q.len
      match s.candidates p.dest rnd with
      | [] => none
      | c :: rest =>
        let best := rest.foldl (fun x q => if cost q < cost x then q else x) c
        some (s.putOnPort best.port { p with inter := best.inter } 0 none)

/-- The receive buffers of a packet that leaves the router here are free again (R38). -/
def State.freePacket (s : State) (port vc : Nat) (p : Packet) : State :=
  let l := s.link port
  let s := s.setLink port { l with owed := KV.put l.owed vc (KV.get 0 l.owed vc + (packetFlits p vc).length) }
  s.control port 0 []

/-- PACKET_FORWARD (R36): a router beyond the source sends the packet minimally toward its intermediate,
or its destination once the intermediate has been reached; onto an untrained port it drops it.
`input.sub` is the channel on which the packet came; a packet that came on channel 3 has no further one (R38)
and is dropped (DEDUCED, log entry 89). -/
def execPacketForward (s : State) : Outcome State Fault Refusal :=
  let p := s.input.packet
  let p := if p.inter = s.boot.moduleNo then { p with inter := 0x3FF } else p
  let target := if p.inter = 0x3FF then p.dest else p.inter
  let r := s.hubReg (offRTAB target)
  .next (if p.dest = s.boot.moduleNo && decide (p.inter = 0x3FF) then s.deliver (s.input.who / 8) p
    else if bitAt r 0 && decide (rtHops r = 1 ∨ rtHops r = 2) && s.portUp (rtPort r) then
      if s.input.sub % 4 = 3 then s.freePacket s.input.who s.input.sub p
      else s.putOnPort (rtPort r) p (s.input.sub % 4 + 1) (some (s.input.who, s.input.sub))
    else s.freePacket s.input.who s.input.sub p)

/-! ### Replay (R41) -/

/-- `a` is at or after `b` in seq order, within half a wrap. -/
def seqGe (a b : Nat) : Bool := decide ((a + 2 ^ 24 - b % 2 ^ 24) % 2 ^ 24 < 2 ^ 23)

/-- An ack: the flits it covers leave the buffer; an ack of the first flit under a new key retires the
old one (R43). -/
def State.applyAck (s : State) (port ack : Nat) : State :=
  let l := s.link port
  let keep := l.buf.filter (fun f => ! seqGe ack f.seq)
  let moved := decide (keep.length < l.buf.length)
  s.setLink port { l with
    acked := if moved then ack else l.acked,
    buf := keep,
    ackAt := if moved then s.time else l.ackAt,
    switching := match l.firstNew with
      | some n => if l.switching && seqGe ack n then false else l.switching
      | none => l.switching }

/-- Returned credits. -/
def State.applyCredits (s : State) (port cvc ccnt : Nat) : State :=
  let l := s.link port
  s.setLink port { l with credits := KV.put l.credits cvc (KV.get 0 l.credits cvc + ccnt) }

/-- A buffered flit has been sent four times under the present phase (R41). -/
def Link.spent (l : Link) : Bool := l.buf.any (fun f => decide (4 ≤ f.txc))

/-- Sends every buffered flit in order, each with the number of its earlier transmissions as txc. -/
def State.replayAll (s : State) (port : Nat) : State :=
  let l := s.link port
  let t := s.setLink port { l with buf := l.buf.map (fun f => { f with txc := f.txc + 1 }), ackAt := s.time }
  l.buf.foldl (fun t f => t.transmit port f) t

/-- The link retrains: the event follows, whatever arrives before it (R41). -/
def State.retrainDue (s : State) (port : Nat) : State :=
  (s.setLink port { s.link port with due := true }).schedule .linkRetrain { Input.none with who := port }

/-- Resends every buffered flit in order; a fourth transmission of one flit under one phase retrains the link (R41),
and none follows it, so that no nonce is used twice (R42). -/
def State.resend (s : State) (port : Nat) : State :=
  let t := if (s.link port).spent then s else s.replayAll port
  if (t.link port).spent then t.retrainDue port else t

/-- A discarded flit is answered with a nack; the sixteenth in a row retrains the link (R41). -/
def State.discardFlit (s : State) (port : Nat) : State :=
  let l := s.link port
  let s := s.setLink port { l with discards := l.discards + 1 }
  let s := s.control port 1 []
  if 16 ≤ l.discards + 1 then s.retrainDue port else s

/-- The key generation under which a flit came: the receiver holds g and g + 1 (R43). -/
def Link.rxGenOf (l : Link) (phase : Nat) : Nat := if phase = l.rxPhase then l.rxGen else l.rxGen + 1

/-- The plaintext of a flit whose tag verifies. -/
def State.openFlit (s : State) (port : Nat) (f : Flit) (epoch : Nat) : Option (List Byte) :=
  if f.rsv ≠ 0 then none
  else Config.gcmOpen (s.linkKey port ((s.link port).rxGenOf f.phase) false)
    (flitNonce epoch f.seq f.txc f.phase (decide (f.kind = 1))) f.header f.payload f.tag

/-- On the first flit under g + 1 that verifies the receiver erases key g (R43). -/
def Link.advanceKey (l : Link) (phase : Nat) : Link :=
  if phase = l.rxPhase then l else { l with rxGen := l.rxGen + 1, rxPhase := phase }

/-- A packet has been assembled: it is delivered here, which frees its receive buffers (R38), or forwarded. -/
def State.arrived (s : State) (port vc : Nat) (bs : List Byte) : State :=
  let p := Packet.ofBytes bs
  let me := s.boot.moduleNo
  if p.dest = me ∧ (p.inter = 0x3FF ∨ p.inter = me) then
    let l := s.link port
    (s.setLink port { l with owed := KV.put l.owed vc (KV.get 0 l.owed vc + bs.length / 224) }).deliver (port / 8) p
  else s.schedule .packetForward { Input.none with who := port, packet := p, sub := vc }

/-- A port that still owes credits, since no data flit of its own went out to carry them, sends an idle flit with its
ack and credits (R39). -/
def State.answerFlit (s : State) (port : Nat) : State :=
  if (s.link port).owed.any (fun x => decide (0 < x.2)) then s.control port 0 [] else s

/-- The epoch of a seq beside an expected one (R41): the replay window is far shorter than a wrap. -/
def epochNear (epoch expected seq : Nat) : Nat :=
  if seqGe seq expected then (if seq < expected then epoch + 1 else epoch)
  else if expected < seq then epoch - 1 else epoch

/-- A data flit whose seq is not the next: discarded; under key g + 1 it still ends key g if it verifies (R43). -/
def State.outOfOrder (s : State) (port : Nat) (f : Flit) : State :=
  let l := s.link port
  match (if f.kind = 0 then s.openFlit port f (epochNear l.rxEpoch l.rxSeq f.seq) else none) with
  | none => s.discardFlit port
  | some _ => (s.setLink port (l.advanceKey f.phase)).discardFlit port

/-- DATA_FLIT (R41): accepted only if its tag verifies and its seq is next; its ack and credits are
applied and its part of a packet taken. -/
def execDataFlit (s : State) : Outcome State Fault Refusal :=
  let port := s.input.who
  let f := s.input.flit
  let l := s.link port
  .next (
    if ! l.trained || l.training then s
    else if f.kind ≠ 0 ∨ f.seq ≠ l.rxSeq then s.outOfOrder port f
    else match s.openFlit port f l.rxEpoch with
      | none => s.discardFlit port
      | some bs =>
        let l := l.advanceKey f.phase
        let part := if f.pos = 0 ∨ f.pos = 1 then bs else KV.get [] l.part f.vc ++ bs
        let last := decide (f.pos = 0 ∨ f.pos = 3)
        let l := { l with
          rxSeq := (l.rxSeq + 1) % 2 ^ 24,
          rxEpoch := if l.rxSeq + 1 = 2 ^ 24 then l.rxEpoch + 1 else l.rxEpoch,
          discards := 0,
          part := KV.put l.part f.vc (if last then [] else part) }
        let s := ((s.setLink port l).applyAck port f.ack).applyCredits port f.cvc f.ccnt
        let s := s.pumpLink port (s.link port).queue.length
        (if last then s.arrived port f.vc part else s).answerFlit port)

/-- The epoch under which a control flit is opened: control seqs count apart from data seqs, and so do their
wraps (R41). -/
def Link.ctlEpochOf (l : Link) (seq : Nat) : Nat :=
  match l.rxCtl with
  | none => l.rxCtlEpoch
  | some c => epochNear l.rxCtlEpoch c seq

/-- A control flit that verifies, is later than the last one accepted, and holds the subtype: its ack and
credits are applied. Any other one is discarded like a flit that fails its tag, a subtype of 4 or more among them
(R39). -/
def State.controlFlit (s : State) (port : Nat) (f : Flit) (sub : Nat) (act : State → List Byte → State) :
    State :=
  let l := s.link port
  if ! l.trained || l.training then s
  else
    let fresh : Bool := match l.rxCtl with
      | none => true
      | some c => decide (f.seq ≠ c) && seqGe f.seq c
    match (if f.kind = 1 then s.openFlit port f (l.ctlEpochOf f.seq) else none) with
    | none => s.discardFlit port
    | some bs =>
      if ! fresh || decide (4 ≤ leAt bs 0 1) then (s.setLink port (l.advanceKey f.phase)).discardFlit port
      else if leAt bs 0 1 ≠ sub then s
      else
        let l := { l.advanceKey f.phase with
          rxCtl := some f.seq, rxCtlEpoch := l.ctlEpochOf f.seq, discards := 0 }
        let s := ((s.setLink port l).applyAck port f.ack).applyCredits port f.cvc f.ccnt
        act (s.pumpLink port (s.link port).queue.length) bs

/-- IDLE (R39): carries ack and credits. -/
def execIdle (s : State) : Outcome State Fault Refusal :=
  .next (s.controlFlit s.input.who s.input.flit 0 (fun s _ => s))

/-- NACK (R41): every buffered flit from the one after ack is sent again. -/
def execNack (s : State) : Outcome State Fault Refusal :=
  .next (s.controlFlit s.input.who s.input.flit 1 (fun s _ => s.resend s.input.who))

/-- JOIN (R46): the module number and incarnation are reported to the module operating system. -/
def execJoin (s : State) : Outcome State Fault Refusal :=
  .next (s.controlFlit s.input.who s.input.flit 2 (fun s bs =>
    { s with fab := { s.fab with joins := s.fab.joins ++ [(leAt bs 1 2, leAt bs 3 2)] } }))

/-- A retrain starts: the port carries nothing until its exchange is done (R44). -/
def State.startRetrain (s : State) (port : Nat) : State :=
  let l := s.link port
  s.setLink port { l with training := l.trained, due := false }

/-- RETRAIN (R44): the peer asks for a retrain. -/
def execRetrain (s : State) : Outcome State Fault Refusal :=
  .next (s.controlFlit s.input.who s.input.flit 3 (fun s _ => s.startRetrain s.input.who))

/-- REPLAY_TIMEOUT (R41): 2 us without progress in ack while flits are unacknowledged. -/
def execReplayTimeout (s : State) : Outcome State Fault Refusal :=
  let l := s.link s.input.who
  .next (if l.trained && ! l.training && ! l.buf.isEmpty && decide (2000000 ≤ s.time - l.ackAt) then
    s.resend s.input.who else s)

/-- LINK_RETRAIN (R41, R44): sixteen discarded flits in a row, or four transmissions of one flit. -/
def execLinkRetrain (s : State) : Outcome State Fault Refusal :=
  let l := s.link s.input.who
  .next (if l.trained && ! l.training && l.due
    then (s.control s.input.who 3 []).startRetrain s.input.who else s)

/-- The exchange of a retrain has ended well (R44): under the new secret both directions start again at generation
0, phase 0; counters and replay buffers are kept, and each transmitter resends. -/
def State.retrained (s : State) (port : Nat) : State :=
  let l := s.link port
  let l := { l with
    training := false, trained := true,
    secret := Config.ecdh s.freeCtr (Config.ephemeral s.freeCtr),
    txGen := 0, txPhase := 0, rxGen := 0, rxPhase := 0, switching := false, firstNew := none,
    sentUnderKey := 0, discards := 0, due := false, buf := l.buf.map (fun f => { f with txc := 0 }), keyAt := s.time }
  let s := ({ s with freeCtr := s.freeCtr + 1 } : State).setLink port l
  (s.replayAll port).pumpLink port l.queue.length

/-- KEY_SWITCH (R43): after 2^32 flits, after 60 s, or on request (`input.ok`); not while one is under
way. -/
def execKeySwitch (s : State) : Outcome State Fault Refusal :=
  let port := s.input.who
  let l := s.link port
  .next (if l.trained && ! l.training && ! l.switching &&
      (s.input.ok || decide (2 ^ 32 ≤ l.sentUnderKey) || decide (60000000000000 ≤ s.time - l.keyAt)) then
    s.setLink port { l with
      txGen := l.txGen + 1, txPhase := 1 - l.txPhase, switching := true,
      firstNew := none, sentUnderKey := 0, keyAt := s.time, buf := l.buf.map (fun f => { f with txc := 0 }) }
    else s)

/-- LINK_TRAINING (R31): a port trains with its peer at a revision, running the exchange of keys and
starting at key generation 0; 64 credits a channel (R38). A port that does not train stays untrained; port 31 of an
absolute module is unused (R34). -/
def State.trainPort (s : State) (port revision : Nat) (ok : Bool) : State :=
  if s.boot.fenced.contains (port / 8) || decide ((neighbours s.boot.moduleNo).length ≤ port) then s
  else if ok then
    ({ s with freeCtr := s.freeCtr + 1 } : State).setLink port { Link.reset with
      trained := true, revision := revision,
      secret := Config.ecdh s.freeCtr (Config.ephemeral s.freeCtr),
      credits := (List.range 8).map (fun v => (v, 64)), keyAt := s.time, ackAt := s.time }
  else s.setLink port Link.reset

end Sys2Proof.Machine
end

