-- ==== Sys2Proof/Machine/HostOps.lean ====
section
/-! DEFINITION. What the module shows an interface's host: MSI-X messages (R51, R281), completion entries
(R53, R54, R56, R57) and the counts of VISTAT. -/

namespace Sys2Proof.Machine

open Sys2Proof

/-- An interface. -/
def State.ifc (s : State) (n : Nat) : Vi := KV.get Vi.reset s.host.vis n

/-- Replaces an interface. -/
def State.setIfc (s : State) (n : Nat) (v : Vi) : State :=
  { s with host := { s.host with vis := KV.put s.host.vis n v } }

/-- Changes an interface. -/
def State.updIfc (s : State) (n : Nat) (f : Vi → Vi) : State := s.setIfc n (f (s.ifc n))

/-- The message of a vector: its address and data. -/
def Vi.message (v : Vi) (k : Nat) : Nat × Nat := KV.get (0, 0) v.msix k

/-- Sends the message of a vector; a masked one sets its pending bit. -/
def Vi.raise (v : Vi) (k : Nat) : Vi :=
  if v.masked.contains k then
    { v with pending := if v.pending.contains k then v.pending else v.pending ++ [k] }
  else { v with sent := v.sent ++ [k] }

/-- Raises a vector of an interface. -/
def State.raiseVector (s : State) (n k : Nat) : State := s.updIfc n (·.raise k)

def Vi.cqOn (v : Vi) : Bool := bitAt v.cqCtl 31
def Vi.cqVector (v : Vi) : Nat := Nat.min 61 (bitsOf v.cqCtl 14 9)
/-- Entries of the completion area. -/
def Vi.entries (v : Vi) : Nat := 2 ^ (6 + Nat.min 10 (bitsOf v.cqCtl 3 0))
/-- Entries that hold nothing the host has not consumed (R54). -/
def Vi.free (v : Vi) : Nat := v.entries - v.unread

/-- The interface is in service: VICFG.enable, which reads 0 with a reserved view. -/
def State.viOn (s : State) (n : Nat) : Bool :=
  let r := s.hubReg (offVICFG n)
  bitAt r 127 && decide (bitsOf r 126 125 ≠ 3)

/-- The bytes of a completion entry (R56). -/
def entryBytes (kind phase window reason seq task time line : Nat) : List Byte :=
  leBytes 1 kind ++ leBytes 1 phase ++ leBytes 1 window ++ leBytes 1 reason ++ leBytes 4 seq ++
    leBytes 8 task ++ leBytes 8 time ++ leBytes 8 line ++ List.replicate 32 0

/-- Writes a completion entry, advances CQTAIL and raises CQCTL.vector; nothing while the area is not
enabled (R57). The write is a module release of the hub (R190). -/
def State.complete (s : State) (n kind window reason seq task line : Nat) : State :=
  let v := s.ifc n
  if ! v.cqOn then s
  else
    let bs := entryBytes kind (v.pass % 2) window reason (seq % 2 ^ 32) task (s.time / 1000) line
    let tail := (v.cqTail + 1) % v.entries
    let v := { v with cqTail := tail, pass := if tail = 0 then v.pass + 1 else v.pass,
                      unread := v.unread + 1 }
    (({ s with host := { s.host with mem := s.host.mem.writeN ((s.ifc n).cqBase + 64 * (s.ifc n).cqTail) bs } } :
      State).setIfc n (v.raise v.cqVector)).releaseWrite (WriteTag.other 4) 4

/-- A reserved entry is no longer owed. -/
def State.unreserve (s : State) (n : Nat) : State := s.updIfc n (fun v => { v with reserved := v.reserved - 1 })

/-- A launch write is dropped (R54): VISTAT changes, unless its count is saturated, and a change raises vector 63
(R53). -/
def State.dropLaunch (s : State) (n : Nat) : State :=
  s.updIfc n (fun v => if 0xFFFF ≤ v.dropped then v else { v with dropped := v.dropped + 1 }.raise 63)

/-- A memory-window access fails (R55); the same. -/
def State.windowFailed (s : State) (n : Nat) : State :=
  s.updIfc n (fun v => if 0xFFFF ≤ v.failed then v else { v with failed := v.failed + 1 }.raise 63)

end Sys2Proof.Machine
end

