-- ==== Sys2Proof/Machine/Hub.lean ====
section
/-! DEFINITION. Hub register space (R15) as a system core reaches it: the registers by offset, what each
reads as and which event a write of each brings about (R4); and the counters that ADMDAT reads (R97). -/

namespace Sys2Proof.Machine

open Sys2Proof Host

/-- A family of hub registers: base offset, stride, how many, width in bytes, the bits that a plain write
sets, and the bits that a 1 clears. -/
structure HubFam where
  base : Nat
  stride : Nat
  count : Nat
  width : Nat
  rw : Nat
  w1c : Nat
deriving DecidableEq, Repr

/-- Families whose writes follow R4 alone. -/
def plainFams : List HubFam :=
  [{ base := 0x1000000, stride := 16, count := 993, width := 16, rw := 0x00FFFFFFFFFFFFFFFFFFFFFFC0000001, w1c := 0 },
   { base := 0x300, stride := 4, count := 1, width := 4, rw := 0xFFF, w1c := 0 },
   { base := 0x310, stride := 4, count := 1, width := 4, rw := 0xFFFFF, w1c := 0 },
   { base := 0x4000000, stride := 16, count := 256, width := 16, rw := 0xFFFFFFFFFFFF80000000000000000000, w1c := 0 },
   { base := 0x5000000, stride := 16, count := 256, width := 16, rw := 0xBFFFFFFFEFFFFFFFFF00000000000000,
     w1c := 2 ^ 126 },
   { base := 0x400, stride := 4, count := 1, width := 4, rw := 0xFFFF, w1c := 0 },
   { base := 0x408, stride := 8, count := 1, width := 8, rw := 0x000FFFFF80000001, w1c := 0 },
   { base := 0x480, stride := 8, count := 16, width := 8, rw := 0, w1c := 0xFFFFFFFFFFFFFFFF },
   { base := 0x6000000, stride := 8, count := 256, width := 8, rw := 0xFFFFFF, w1c := 0 },
   { base := 0x500, stride := 8, count := 1, width := 8, rw := 0x8000FFFFFF000007, w1c := 0 },
   { base := 0x510, stride := 4, count := 1, width := 4, rw := 0xFFFF, w1c := 2 ^ 31 },
   { base := 0x7004000, stride := 8, count := 256, width := 8, rw := 0xF, w1c := 0 },
   { base := 0xC000000, stride := 8, count := 256, width := 8, rw := 0x000FFFFFFFFFF001, w1c := 0 },
   { base := 0xD000000, stride := 8, count := 1024, width := 8, rw := 0xFFFFFFFFFFF00000, w1c := 0 },
   { base := 0x200, stride := 8, count := 4, width := 4, rw := 0, w1c := 0 },
   { base := 0x508, stride := 4, count := 1, width := 4, rw := 0, w1c := 0 },
   { base := 0x608, stride := 4, count := 1, width := 4, rw := 0, w1c := 0 }]

/-- Families with an event of their own, and that event. -/
def ownFams : List (HubFam × Instr) :=
  [({ base := 0x10000, stride := 4, count := 24, width := 4, rw := 0xFFFFFFFF, w1c := 0 }, .qmodeWrite),
   ({ base := 0x2000000, stride := 16, count := 4096, width := 16, rw := 0xFFFFFFFFFFFFFFFF0000000000000000,
      w1c := 0 }, .gwinWrite),
   ({ base := 0x3000000, stride := 4, count := 993, width := 4, rw := 0xFFFF, w1c := 0 }, .peerincWrite),
   ({ base := 0x410, stride := 8, count := 1, width := 8, rw := 0xFF0FFFFFFFFFFFC0, w1c := 0 }, .chrstGo),
   ({ base := 0x7000000, stride := 8, count := 1792, width := 8, rw := 0x0FFF0FFF, w1c := 0 }, .admqWrite),
   ({ base := 0x8000000, stride := 8, count := 2048, width := 8, rw := 0xFFFFFFFFFFFFFFFF, w1c := 0 },
    .rslotWrite),
   ({ base := 0x9000000, stride := 8, count := 128, width := 8, rw := 0x01FF01FF01FF01FF, w1c := 0 },
    .mptabWrite),
   ({ base := 0xA000000, stride := 8, count := 128, width := 8, rw := 0x1FFF001, w1c := 0 }, .pclusWrite),
   ({ base := 0x520, stride := 4, count := 1, width := 4, rw := 0xFFFF0000, w1c := 0 }, .pwrcfgWrite),
   ({ base := 0xB000000, stride := 8, count := 4, width := 8, rw := 0x000FFFFFFFE00003, w1c := 0 },
    .refcfgSync),
   ({ base := 0x600, stride := 8, count := 1, width := 8, rw := 0x000FFFFFFFFFF01F, w1c := 0 }, .fcbufWrite),
   ({ base := 0x610, stride := 4, count := 1, width := 4, rw := 0xFFFFFFFF, w1c := 0 }, .fcheadWrite),
   ({ base := 0x618, stride := 8, count := 1, width := 8, rw := 0, w1c := 0 }, .fcansRetry)]

/-- The registers of a family that exist: RSLOT, MPTAB and PCLUS leave gaps between dies. -/
def HubFam.has (f : HubFam) (off : Nat) : Bool :=
  decide (f.base ≤ off ∧ off < f.base + f.stride * f.count ∧ (off - f.base) % f.stride < f.width) &&
  (if f.base = 0x8000000 then decide ((off - f.base) % 0x1000 < 0x800) else true) &&
  (if f.base = 0x9000000 ∨ f.base = 0xA000000 then decide ((off - f.base) % 0x100 < 0x80) &&
      decide (off - f.base < 0x400)
   else true)

/-- The offset of the register of a family that an offset lies in. -/
def HubFam.regOf (f : HubFam) (off : Nat) : Nat := f.base + (off - f.base) / f.stride * f.stride

/-- The register that an offset lies in: its family, its offset and its own event if it has one. -/
def hubFind (off : Nat) : Option (HubFam × Nat × Option Instr) :=
  match plainFams.find? (fun f => f.has off) with
  | some f => some (f, f.regOf off, none)
  | none =>
    match ownFams.find? (fun f => f.1.has off) with
    | some (f, i) => some (f, f.regOf off, some i)
    | none => none

/-- A field of a number replaced. -/
def putBits (v hi lo x : Nat) : Nat := v - bitsOf v hi lo * 2 ^ lo + (x % 2 ^ (hi + 1 - lo)) * 2 ^ lo

/-! ### Service instances and their counters (R85, R97) -/

/-- A route-list entry's kind. -/
def entryKind (e : Nat) : Nat := bitsOf e 14 12

/-- The instance of an entry: kind and target, the module field of kind 5 left out. -/
def entryInst (e : Nat) : Nat :=
  if entryKind e = 5 then 5 * 4096 + bitsOf e 1 0 else e % 2 ^ 15

/-- The die of an instance; none for the Bellows and the Chanter. -/
def instDie (k : Nat) : Nat :=
  match entryKind k with
  | 1 => bitsOf k 5 4
  | 2 => bitsOf k 5 4
  | 3 => bitsOf k 1 0
  | 4 => bitsOf k 2 1
  | 5 => bitsOf k 1 0
  | _ => 4

/-- The bits of an instance's target that must be zero. -/
def instReserved (k : Nat) : Nat :=
  match entryKind k with
  | 1 => bitsOf k 11 6
  | 2 => bitsOf k 11 6
  | 3 => bitsOf k 11 2
  | 4 => bitsOf k 11 3
  | 5 => bitsOf k 11 2
  | _ => bitsOf k 11 0

/-- The instance is present on this module (R23). -/
def State.instPresent (s : State) (k : Nat) : Bool :=
  decide (entryKind k ≠ 0) && decide (instReserved k = 0) &&
    (decide (instDie k = 4) || s.present.contains (instDie k))

/-- A cluster. -/
def State.cluster (s : State) (cl : Nat) : Cluster := KV.get Cluster.reset s.power.clusters cl

/-- Changes a cluster. -/
def State.updCluster (s : State) (cl : Nat) (f : Cluster → Cluster) : State :=
  { s with power := { s.power with clusters := KV.put s.power.clusters cl (f (s.cluster cl)) } }

/-- The present frequency of a cluster in MHz (R107). -/
def State.mhz (s : State) (cl : Nat) : Nat :=
  300 + 25 * Nat.min 18 (bitsOf (s.hubReg (offPCLUS cl)) 29 25)

/-- ac that a cluster has counted since reset; the hub has none. -/
def State.acOf (s : State) (cl : Nat) : Nat := (s.cluster cl).ac

/-- The decision cycle of an instance that a time falls in (R84): an ac of its cluster for the special-function and
gather engines, else a cycle of the 1.2 GHz ring or service clock. -/
def State.cycleOf (s : State) (k : Nat) : Nat :=
  if entryKind k = 1 ∨ entryKind k = 2 then s.acOf (k % 64) else s.time * 6 / 5000

/-- An instance in a decision cycle. -/
def Inst.at_ (x : Inst) (cycle : Nat) : Inst :=
  if x.cycle = cycle then x
  else { x with cycle := cycle, begun := false, freed := 0, recent := [], before := [], quotas := [] }

/-- An instance, in the present decision cycle. -/
def State.inst (s : State) (k : Nat) : Inst := (KV.get Inst.empty s.svc.inst k).at_ (s.cycleOf k)

/-- Replaces an instance. -/
def State.setInst (s : State) (k : Nat) (x : Inst) : State :=
  { s with svc := { s.svc with inst := KV.put s.svc.inst k x } }

/-- Counter `n` of an interface at an instance. -/
def Inst.counter (x : Inst) (vi n : Nat) : Nat := KV.get 0 x.count (8 * vi + n)

/-- Counts one event, saturating (R97). -/
def Inst.bump (x : Inst) (vi n : Nat) : Inst :=
  { x with count := KV.put x.count (8 * vi + n) (Nat.min (2 ^ 32 - 1) (x.counter vi n + 1))
           recent := KV.put x.recent (8 * vi + n) (KV.get 0 x.recent (8 * vi + n) + 1)
           before := KV.put x.before (8 * vi + n) (KV.get (x.counter vi n) x.before (8 * vi + n)) }

/-- A snapshot-and-clear of a counter (R97): what it returns, and the instance after it, where the events of the same
decision cycle stay counted. -/
def Inst.snap (x : Inst) (vi n : Nat) : Nat × Inst :=
  let new := KV.get 0 x.recent (8 * vi + n)
  (KV.get (x.counter vi n) x.before (8 * vi + n),
    { x with count := KV.put x.count (8 * vi + n) new, before := KV.put x.before (8 * vi + n) 0 })

/-- The value that ADMDAT reads and the state after the read (R97): the counter that ADMSEL selects, which
a snapshot clears. -/
def State.admdat (s : State) : State × Nat :=
  let sel := s.hubReg offADMSEL
  let e := bitsOf sel 47 33
  let k := entryInst e
  let n := bitsOf sel 2 0
  let vi := bitsOf sel 32 25
  if ! s.instPresent k || decide (6 ≤ n) then (s, 0)
  else
    let x := s.inst k
    if bitAt sel 24 then
      (s, Nat.min (2 ^ 32 - 1) (((List.range 256).map (fun v => x.counter v n)).foldl (· + ·) 0))
    else
      if bitAt sel 63 then (s.setInst k (x.snap vi n).2, (x.snap vi n).1) else (s, x.counter vi n)

/-- The bits of a register that a read of `n` bytes from byte `lo` of it returns. -/
def readBits (lo n : Nat) : Nat := (2 ^ (8 * n) - 1) * 2 ^ (8 * lo)

/-- The value of PCLUS of a cluster, and the state after a read of `n` bytes from byte `lo` of it: of droops and
vrefused, the bits that it returns are cleared (R4). -/
def State.pclusRead (s : State) (cl lo n : Nat) : State × Nat :=
  let v := s.hubReg (offPCLUS cl)
  (s.setHub (offPCLUS cl) (v - (v &&& readBits lo n &&& (2 ^ 64 - 2 ^ 40))), v)

/-- The value of a register that has no effect when read. -/
def State.hubValue (s : State) (r : Nat) : Nat :=
  let v := s.hubReg r
  if r = offPEERINC s.boot.moduleNo then s.boot.incarnation
  else if 0x4000000 ≤ r ∧ r < 0x4001000 ∧ bitsOf v 126 125 = 3 then v % 2 ^ 127
  else if r = offCHRST then v / 2 * 2
  else v

/-- A read of `n` bytes of hub register space by a system core; none where no register stands. DESIGN CHOICE (log entry
110): an access is of the one register that holds its first byte; bytes past that register read zero and are not written. -/
def State.hubRead (s : State) (off n : Nat) : Option (State × Nat) :=
  if 0x100 ≤ off ∧ off + n ≤ 0x180 then
    some (s, ofLeBytes ((s.boot.capability.drop (off - 0x100)).take n))
  else match hubFind off with
    | none => none
    | some (_, r, _) =>
      let (s, v) :=
        if r = 0x508 then s.admdat
        else if 0xA000000 ≤ r ∧ r < 0xA000400 then s.pclusRead ((r - 0xA000000) / 0x100 * 16 + r % 0x100 / 8) (off - r) n
        else (s, s.hubValue r)
      some (s, v / 2 ^ (8 * (off - r)) % 2 ^ (8 * n))

/-- The index of a register within its family, as its event reads it: PCLUS by cluster, the others in
the order of their offsets. -/
def hubIndex (f : HubFam) (r : Nat) : Nat :=
  let i := (r - f.base) / f.stride
  if f.base = 0xA000000 then i / 32 * 16 + i % 32
  else if f.base = 0x9000000 then i / 32 * 16 + i % 32
  else i

/-- The event of a write to a register, with the register's index, its offset and the value. -/
def hubEvent (f : HubFam) (r : Nat) (own : Option Instr) (v : Nat) : Instr × Input :=
  let inp := { Input.none with who := hubIndex f r, sub := r, value := BitVec.ofNat 128 v }
  match own with
  | none => (.registerWrite, inp)
  | some .fcansRetry => (if v % 4 = 1 then .fcansAccess else .fcansRetry, inp)
  | some i => (i, inp)

/-- A write of `n` bytes into hub register space by a system core: the bytes that it does not write keep
their value, and the register's event is the next turn. None where no register stands; a write to the
capability record is ignored (R22). -/
def State.hubWrite (s : State) (off n v : Nat) : Option State :=
  if 0x100 ≤ off ∧ off + n ≤ 0x180 then some s
  else match hubFind off with
    | none => none
    | some (f, r, own) =>
      let sh := 2 ^ (8 * (off - r))
      let cur := s.hubValue r
      let cur := cur &&& (2 ^ 128 - 1 - f.w1c)
      let whole := cur - (cur / sh % 2 ^ (8 * n)) * sh + (v % 2 ^ (8 * n)) * sh
      let (i, inp) := hubEvent f r own whole
      some { s with agenda := { ps := 0, act := .event i inp } :: s.agenda }

/-- What a system core reads in hub register space; where no register stands, a free value (log entry 109). -/
def State.hubGet (s : State) (off n : Nat) : State × Nat :=
  (s.hubRead off n).getD ({ s with freeCtr := s.freeCtr + 1 }, (Config.hubHole s.freeCtr).toNat % 2 ^ (8 * n))

/-- What a system core's write into hub register space brings about: nothing where no register stands (log entry 109). -/
def State.hubPut (s : State) (off n v : Nat) : State := (s.hubWrite off n v).getD s

/-- The cycle of the hub's 1.2 GHz service clock (R84). -/
def State.serviceCycle (s : State) : Nat := s.time * 6 / 5000

/-- An interface's balance of priority tokens as the Chanter finds it: a write of the present service-clock cycle comes
after the Chanter's own changes in it (R81). -/
def State.balance (s : State) (vi : Nat) : Nat :=
  match s.chanter.written.find? (fun x => decide (x.1 = vi ∧ x.2.1 = s.serviceCycle)) with
  | some (_, _, n) => n
  | none => bitsOf (s.hubReg (offCHTOK vi)) 23 0

/-- A balance as the Chanter leaves it. -/
def State.setBalance (s : State) (vi n : Nat) : State :=
  if s.chanter.written.any (fun x => decide (x.1 = vi ∧ x.2.1 = s.serviceCycle)) then
    { s with chanter := { s.chanter with written := KV.put s.chanter.written vi (s.serviceCycle, n) } }
  else s.setHub (offCHTOK vi) n

/-- A register write is of a balance: what it writes over is kept for its service-clock cycle. -/
def State.noteTokens (s : State) (r : Nat) : State :=
  if 0x6000000 ≤ r ∧ r < 0x6000800 then
    let vi := (r - 0x6000000) / 8
    { s with chanter := { s.chanter with written := KV.put s.chanter.written vi (s.serviceCycle, s.balance vi) } }
  else s

/-- Sets the plain fields of a register (R4). -/
def State.plainWrite (s : State) (f : HubFam) (r v : Nat) : State :=
  let s := s.noteTokens r
  let old := s.hubReg r
  s.setHub r (((v &&& f.rw) ||| (old &&& (2 ^ 128 - 1 - f.rw - f.w1c))) ||| (old &&& f.w1c &&& (2 ^ 128 - 1 - v)))

/-- A host's write of BAR0 (R53): CQBASE, whose low 12 bits are ignored, or CQHEAD, which says how many
entries the host has consumed. DESIGN CHOICE (log entry 121): a write is of a whole register, at its first byte; one
elsewhere within a register changes nothing. -/
def Vi.barWrite (v : Vi) (off x : Nat) : Vi :=
  if off = 0x8000 then { v with cqBase := x % 2 ^ 64 / 4096 * 4096 }
  else if off = 0x800C then
    let n := v.entries
    { v with cqHead := x % 2 ^ 32, unread := v.unread - (x % n + n - v.cqHead % n) % n }
  else v

/-- A host's write of the mask bit of an MSI-X vector (R51); a pending message goes out as its mask is
cleared. -/
def Vi.maskVector (v : Vi) (k : Nat) (masked : Bool) : Vi :=
  if masked then { v with masked := if v.masked.contains k then v.masked else v.masked ++ [k] }
  else
    let w := { v with masked := v.masked.filter (· ≠ k), pending := v.pending.filter (· ≠ k) }
    if v.pending.contains k then w.raise k else w

/-- A host's write of the message of an MSI-X vector: the double word `i` of its table entry, of address, upper
address and data (R51). -/
def Vi.putMessage (v : Vi) (k i x : Nat) : Vi :=
  let (a, d) := v.message k
  let m := match i with
    | 0 => (a / 2 ^ 32 * 2 ^ 32 + x % 2 ^ 32, d)
    | 1 => (a % 2 ^ 32 + x % 2 ^ 32 * 2 ^ 32, d)
    | _ => (a, x % 2 ^ 32)
  { v with msix := KV.put v.msix k m }

/-- REGISTER_WRITE (R4): a write of `input.value` to the register at offset `input.sub`, which has no row
of its own: in hub register space; with `input.size` 1 in BAR0 of interface `input.who`, with 2 the mask bit of
a vector of its MSI-X table, with 3 double word `input.third` of the vector's message. -/
def execRegisterWrite (s : State) : Outcome State Fault Refusal :=
  let i := s.input
  .next (
    if i.size = 1 then s.updIfc i.who (·.barWrite i.sub i.value.toNat)
    else if i.size = 2 then s.updIfc i.who (·.maskVector (i.sub % 64) i.ok)
    else if i.size = 3 then s.updIfc i.who (·.putMessage (i.sub % 64) i.third i.value.toNat)
    else match plainFams.find? (fun f => f.has i.sub) with
      | some f => s.plainWrite f (f.regOf i.sub) i.value.toNat
      | none => s)

/-- ADMDAT_READ (R97). -/
def execAdmdatRead (s : State) : Outcome State Fault Refusal := .next s.admdat.1

/-- PCLUS_READ (R4): cluster `input.who`; all of it. -/
def execPclusRead (s : State) : Outcome State Fault Refusal := .next (s.pclusRead s.input.who 0 8).1

end Sys2Proof.Machine
end

