-- ==== Sys2Proof/Machine/Remote.lean ====
section
/-! DEFINITION. The requester's side of remote accesses (R47, R144, R154-R159, R297-R299): request slots,
the sending of requests, responses, tickets and notices; and what an access leaves when its data lands
(R295, R300, R303, R306, R307). -/

namespace Sys2Proof.Machine

open Sys2Proof Host

/-! ### L2 lines (R11, R143, R228)

A slice holds 2 MiB. The spec gives neither the lines of a set nor the set of a line, nor the ordinary order of
replacement: they are free values (log entry 96). -/

/-- Lines of 64 bytes that a slice holds. -/
def l2Lines : Nat := 32768

/-- Lines of a set. -/
def l2Ways : Nat := 2 ^ (Config.l2Ways % 16)

/-- The set of a line. -/
def LineKey.set (k : LineKey) : Nat :=
  (match k.home with | none => Config.l2Set 0 k.line | some (_, peer, _) => Config.l2Set (peer + 1) k.line) %
    (l2Lines / l2Ways)

/-- A line of a cluster's slice. -/
def State.cachedLine (s : State) (cluster : Nat) (k : LineKey) : Option L2Line :=
  s.l2.find? (fun l => decide (l.cluster = cluster ∧ l.key = k))

/-- The other lines of a line's set. -/
def State.setOf (s : State) (cluster : Nat) (k : LineKey) : List L2Line :=
  s.l2.filter (fun l => decide (l.cluster = cluster ∧ l.key ≠ k ∧ l.key.set = k.set))

/-- The lines of a set among which the next to be replaced is: stream lines first, keep lines last (R228). -/
def nextOut (ls : List L2Line) : List L2Line :=
  let of := fun (c : LineClass) => ls.filter (fun l => decide (l.cls = c))
  if ! (of .stream).isEmpty then of .stream else if ! (of .normal).isEmpty then of .normal else of .keep

/-- The lines of all slices with room for one more in its set. -/
def State.l2Room (s : State) (cluster : Nat) (k : LineKey) : List L2Line :=
  let ls := s.setOf cluster k
  if ls.isEmpty || decide (ls.length < l2Ways) then s.l2
  else
    let out := nextOut ls
    match out[Config.l2Victim s.freeCtr % out.length]? with
    | none => s.l2
    | some v => s.l2.erase v

/-- How a line stands in its set after an access under a cache policy: while half the lines of the set are keep
lines, a further keep access acts as normal (R228). -/
def State.classFor (s : State) (cluster : Nat) (k : LineKey) (policy : Nat) : LineClass :=
  let keeps := ((s.setOf cluster k).filter (fun l => decide (l.cls = .keep))).length
  if policy = 1 then .stream
  else if policy = 3 ∧ (keeps = 0 ∨ 2 * keeps < l2Ways) then .keep
  else .normal

/-- Puts a line into a slice under a cache policy; bypass allocates none and leaves a line that is present as it
is (R228). -/
def State.keepLine (s : State) (cluster : Nat) (k : LineKey) (va policy : Nat) (data : List Byte) : State :=
  if policy = 2 then s
  else
    let cls := s.classFor cluster k policy
    match s.cachedLine cluster k with
    | some l =>
      let l' := { l with cls := cls, data := data, vas := if l.vas.contains va then l.vas else va :: l.vas }
      { s with l2 := l' :: s.l2.erase l }
    | none =>
      let l := { cluster := cluster, key := k, vas := [va], cls := cls, data := data }
      { s with l2 := l :: s.l2Room cluster k, freeCtr := s.freeCtr + 1 }

/-- What the accesses of a bank to local memory leave in its cluster's slice under a cache policy (R228); the system
cores stand in no cluster. -/
def State.touchLines (s : State) (b policy : Nat) (pas : List Nat) : State :=
  if isSys b || decide (policy = 2) then s
  else pas.foldl (fun s pa => s.keepLine (clusterOf b) { home := none, line := pa / 64 } 0 policy []) s

/-- The line of a request to a REMOTE_CACHED page. -/
def RemReq.key (tenant : Nat) (r : RemReq) : LineKey := { home := some (tenant, r.peer, r.token), line := r.off / 64 }

/-- Drops REMOTE_CACHED lines. -/
def State.dropLines (s : State) (p : L2Line → Bool) : State :=
  { s with l2 := s.l2.filter (fun l => ! (l.key.home.isSome && p l)) }

/-- The domain acquire of a bank drops every REMOTE_CACHED line of its die (R198). -/
def State.domainAcquire (s : State) (b : Nat) : State :=
  s.dropLines (fun l => decide (l.cluster / 16 = dieOf b))

/-- Drops the lines of a cluster's slice that `n` bytes at an offset in a peer's window touch. -/
def State.dropSpan (s : State) (cluster tenant peer token off n : Nat) : State :=
  s.dropLines (fun l => decide (l.cluster = cluster ∧ l.key.home = some (tenant, peer, token) ∧
    off / 64 ≤ l.key.line ∧ l.key.line ≤ (off + n - 1) / 64))

/-! ### What an access leaves when it is performed -/

/-- A scalar is pending no longer. -/
def Regs.unpend (r : Regs) (n : Nat) : Regs := { r with pend := r.pend.filter (fun m => m ≠ n) }

/-- Ends a pending scalar: writes it with a binding. -/
def Regs.land (r : Regs) (n : Nat) (x : Word) (k : Nat) : Regs := (r.writeBound n x k).unpend n

/-- Fills the load-queue entry of an access (R303). -/
def Queues.fill (q : Queues) (n id : Nat) (data : VecBits) : Queues :=
  { q with lq := KV.put q.lq n ((KV.get [] q.lq n).map (fun e =>
      if e.access = id then { e with data := some data } else e)) }

/-- The sum, swap, logic, minimum or maximum of an atomic (R306) on `n` bits. -/
def amoOp (fn n : Nat) (m x : Nat) : Nat :=
  let sg := fun (v : Nat) => (BitVec.ofNat n v).toInt
  match fn with
  | 0 => x
  | 1 => (m + x) % 2 ^ n
  | 2 => m &&& x
  | 3 => m ||| x
  | 4 => m ^^^ x
  | 5 => if sg m < sg x then m else x
  | 6 => if sg m < sg x then x else m
  | 7 => Nat.min m x
  | _ => Nat.max m x

/-- The descriptors that 16-byte pieces hold (R265, R315). -/
def mqDesc (a b : Nat) : MqDesc :=
  { base := bitsOf a 19 0, rho := bitsOf a 23 20, rowPitch := bitsOf b 19 0, tilePitch := bitsOf b 39 20 }

/-- A stored reference is malformed for a parcel of a length (R170). -/
def refMalformed (w len : Nat) : Bool := decide (w ≠ 0) && decide (2 ^ 40 ≤ w ∨ w < 64 ∨ len ≤ w)

/-- Where the control strand stood at an `ldref`, and what the word has changed, so that a malformed reference traps
there (R166, R173): it goes back to the word, whose base takes back its value unless it has been written since. The
path words that it has passed since are walked again and push nothing anew (log entry 10). -/
def Bank.refBack (B : Bank) (walk : Nat) (m : RefMark) (w : Word) : Bank :=
  let r := if m.base ≠ 0 ∧ B.r.readS m.base = m.new then B.r.writeBound m.base m.old m.bind else B.r
  let t : PendTrap := { strand := .c, code := cRefForm, tval := w, walk := walk, pc := m.pc, deferred := false,
                        arose := B.trap.handler }
  { B with r := r
           wc := { B.wc with pc := m.pc, walk := walk, pfx := m.pfx, stall := .none, pops := m.pushes }
           again := B.again + (B.wc.pops - m.pushes)
           trap := { B.trap with pending := B.trap.pending.filter (fun u => u.deferred || u.strand ≠ .c) ++ [t] } }

/-- What a performed access leaves in its bank, given the bytes it read (all lanes in order). -/
def Bank.landAccess (B : Bank) (a : Access) (bs : List Byte) : Bank :=
  let v := ofLeBytes (bs.take a.size)
  let B := { B with out := { B.out with acc := B.out.acc.filter (fun x => x.id ≠ a.id) } }
  let B := B.moved
  match a.op with
  | .ld => B.onRegs (·.land a.dst ((BitVec.ofNat (8 * a.size) v).signExtend 64) 0)
  | .ldz => B.onRegs (·.land a.dst (BitVec.ofNat 64 v) 0)
  | .ldref len m =>
    if refMalformed v len then (B.onRegs (·.unpend a.dst)).refBack a.walk m (BitVec.ofNat 64 v)
    else B.onRegs (·.land a.dst (BitVec.ofNat 64 v) m.bind)
  | .ldq q => ({ B with q := B.q.fill q a.id (BitVec.ofNat 4096 (ofLeBytes bs)) }).onNow (fun n =>
      { n with filled := a.id :: n.filled })
  | .mpush n => ({ B with q := { B.q with mq := B.q.mq ++ (List.range n).map (fun i =>
      mqDesc (ofLeBytes ((bs.drop (16 * i)).take 8)) (ofLeBytes ((bs.drop (16 * i + 8)).take 8))) } }).notePush qcMq n
  | .amo _ => B.onRegs (·.land a.dst (BitVec.ofNat 64 v) 0)
  | .cas k => (B.onRegs (·.land a.dst (BitVec.ofNat 64 v) 0)).onRegs
      (·.writeP k (decide (v = a.x.toNat % 2 ^ (8 * a.size))))
  | .desc => B.onOut (fun o => { o with dec := .read bs })
  | .st => B
  | .fill => B

/-- An access that is an acquire at domain scope drops the lines of its die when it is performed (R198). -/
def State.landed (s : State) (b : Nat) (a : Access) (bs : List Byte) : State :=
  let s := s.updBank b (·.landAccess a bs)
  if hasAcquire a.ord && decide (a.scope = 5) then s.domainAcquire b else s

/-- What an access that ends with a deferred trap leaves (R156, R295, R297): its scalar takes zero and binding 0, its
load-queue entry zeros. -/
def Bank.landFailed (B : Bank) (a : Access) (code : Nat) : Bank :=
  let B := match a.op with
    | .ldq q => ({ B with q := B.q.fill q a.id 0 }).onNow (fun n => { n with filled := a.id :: n.filled })
    | .st => B
    | .fill => B
    | .desc => B.onOut (fun o => { o with dec := .none })
    | .mpush _ => B
    | _ => B.onRegs (·.land a.dst 0 0)
  B.moved.raiseDeferred code (BitVec.ofNat 64 a.va)

/-- A local access ends with a deferred trap. -/
def State.failAccess (s : State) (b id code : Nat) : State :=
  match (s.bank b).out.acc.find? (fun a => a.id = id) with
  | none => s
  | some a => s.updBank b (fun B => (B.onOut (fun o => { o with acc := o.acc.filter (fun x => x.id ≠ id) })).landFailed a code)

/-- One request of a remote access ends with a deferred trap, and its entry is FREE. The others go on, for what they
leave in L2 alone. -/
def State.failRequest (s : State) (b id : Nat) (r : RemReq) (code : Nat) : State :=
  s.updBank b (fun B =>
    let B := B.onOut (fun o => { o with tkt := o.tkt.filter (fun t => ! decide (t.2.access = id ∧ t.2.req = r)) })
    match B.out.acc.find? (fun a => a.id = id) with
    | none => B
    | some a =>
      if ! (a.reqs ++ a.unsent).contains r then B
      else
      let rest := { a with reqs := a.reqs.erase r, unsent := a.unsent.erase r, op := .fill, dst := 0, ord := 0 }
      let acc := if rest.reqs.isEmpty && rest.unsent.isEmpty then B.out.acc.filter (fun x => x.id ≠ id)
        else B.out.acc.map (fun x => if x.id = id then rest else x)
      (B.onOut (fun o => { o with acc := acc })).landFailed a code)

/-! ### Request slots (R47, R376) -/

/-- The incarnation of a module as this one knows it (R45). -/
def State.peerInc (s : State) (n : Nat) : Nat :=
  if n = s.boot.moduleNo then s.boot.incarnation else s.hubReg (offPEERINC n)

/-- The lower of the free slots that are reserved to a bank. -/
def Core.ownSlot (c : Core) (b : Nat) : Option Nat :=
  [2 * (b % 2), 2 * (b % 2) + 1].find? (fun i => c.slots.all (fun x => decide (x.1 ≠ i)))

/-- The lowest of the free shared slots. -/
def Core.sharedSlot (c : Core) : Option Nat :=
  [4, 5, 6, 7].find? (fun i => c.slots.all (fun x => decide (x.1 ≠ i)))

/-- One shared slot is free. -/
def Core.oneShared (c : Core) : Bool := decide ((c.slots.filter (fun x => decide (4 ≤ x.1))).length = 3)

/-- A slot returns and its generation advances (R47). -/
def Core.returnSlot (c : Core) (i : Nat) : Core :=
  { c with slots := KV.erase c.slots i, gens := KV.put c.gens i ((KV.get 0 c.gens i + 1) % 16) }

/-- Open entries, requests in flight and requests that wait to be sent again of a bank, each counted once (R155). -/
def State.remoteCount (s : State) (b : Nat) : Nat :=
  (s.bank b).out.tkt.length +
    ((s.core (coreOf b)).slots.filter (fun x => decide (x.2.bank = b) && x.2.ticket.isNone)).length +
    (s.fab.retries.filter (fun r => decide (r.bank = b) && r.ticket.isNone)).length

/-- The most of them that a bank may have. -/
def remoteMost : Nat := 16

/-- The control strand of a bank stands for a request slot that only a shared one can be. -/
def State.waitsSlot (s : State) (b : Nat) : Bool :=
  decide ((s.bank b).wc.stall = .slot) && mayIssue s b .c && decide (s.remoteCount b < remoteMost) &&
    ((s.core (coreOf b)).ownSlot b).isNone

/-- Both banks of a core stand for the one shared slot that is free (R376). -/
def State.contested (s : State) (b : Nat) : Bool :=
  (s.core (coreOf b)).oneShared && s.waitsSlot (mate b)

/-- The free slot that a request of a bank takes (R376): the lower of its two reserved ones, else the lowest of the
four shared ones. One for which both banks stand goes to the bank that did not take the last contested one. -/
def State.slotFor (s : State) (b : Nat) : Option Nat :=
  let c := s.core (coreOf b)
  match c.ownSlot b with
  | some i => some i
  | none =>
    if s.contested b && ! (s.waitsSlot b && decide (c.next = b % 2)) then none else c.sharedSlot

/-- A request of a bank takes a slot. -/
def State.takeSlot (s : State) (i : Nat) (sl : Slot) : State :=
  let b := sl.bank
  let won := decide (4 ≤ i) && s.contested b
  s.updCore (coreOf b) (fun c =>
    { c with slots := KV.put c.slots i sl, next := if won then 1 - b % 2 else c.next })

/-- The op of an access's request (R298). -/
def Access.opCode (a : Access) : Nat :=
  match a.op with
  | .st => 2
  | .amo _ => 3
  | .cas _ => 4
  | _ => 1

/-- The fn byte of an access's request: bits [5:0] of an atomic's f field. -/
def Access.fnByte (a : Access) : Nat :=
  let z := if a.size = 4 then 2 else 3
  match a.op with
  | .amo fn => fn * 4 + z
  | .cas k => k * 4 + z
  | _ => 0

/-- The body of a request packet (R298). -/
def requestBody (size fn fill op1 op2 : Nat) (data : List Byte) : List Byte :=
  leBytes 2 size ++ leBytes 1 fn ++ leBytes 1 fill ++ leBytes 4 0 ++ leBytes 8 op1 ++ leBytes 8 op2 ++
    leBytes 8 0 ++ data

/-- Reads whose bytes come from 64-byte lines on a REMOTE_CACHED page (R299). -/
def Access.loads (a : Access) : Bool :=
  match a.op with
  | .st | .amo _ | .cas _ => false
  | _ => true

/-- The request packet of an access in a slot. -/
def State.requestPacket (s : State) (b : Nat) (a : Access) (r : RemReq) (i : Nat) : Packet :=
  { dest := r.peer, source := s.boot.moduleNo, inter := 0x3FF, op := a.opCode,
    tenant := (s.bank b).place.vi, sinc := s.boot.incarnation, tinc := s.peerInc r.peer,
    core := coreOf b, slot := i + 8 * KV.get 0 (s.core (coreOf b)).gens i, rsv := 0, addr := r.off, token := r.token,
    body := requestBody r.size a.fnByte (if r.fill then 1 else 0) a.x.toNat a.y.toNat a.data }

/-- A slot as a request of an access takes it now. -/
def State.slotOf (s : State) (b : Nat) (a : Access) (r : RemReq) (ticket : Option Nat) (held : Bool) : Slot :=
  { bank := b, access := a.id, ticket := ticket, req := r, op := a.opCode, sent := s.time, pos := 0, held := held }

/-- Sends the request in slot `i` of an access, which drops the lines that a write touches first (R143, R299). Without
a path, or to a peer whose incarnation is unknown, the request ends at once with PEER_RESET (R36, R45). -/
def State.sendIn (s : State) (b i : Nat) (a : Access) (r : RemReq) (ticket : Option Nat) : State :=
  let s := if r.cached && ! a.loads then
      s.dropSpan (clusterOf b) (s.bank b).place.vi r.peer r.token r.off r.size else s
  match (if s.peerInc r.peer = 0 then none else s.send (s.requestPacket b a r i)) with
  | none => (s.updCore (coreOf b) (·.returnSlot i)).failRequest b a.id r cPeerReset
  | some s =>
    let s := s.updCore (coreOf b) (fun c => { c with slots := c.slots.map (fun x =>
      if x.1 = i then (x.1, { x.2 with held := false }) else x) })
    let fresh : Ticket := { state := .replay, access := a.id, req := r, owner := r.peer, ownerInc := 0,
                            number := 0, tkind := 0 }
    s.updBank b (fun B => B.onOut (fun o => { o with
      acc := o.acc.map (fun x => if x.id = a.id then
        { x with unsent := x.unsent.erase r, reqs := if ticket.isSome then x.reqs else x.reqs ++ [r] } else x),
      tkt := match ticket with
        | some k => KV.put o.tkt k { KV.get fresh o.tkt k with state := .replay, req := r }
        | none => o.tkt }))

/-- Lines of a request overlap those of another (R156). -/
def RemReq.sameLine (r t : RemReq) : Bool :=
  decide (r.peer = t.peer ∧ r.token / 2 ^ 52 = t.token / 2 ^ 52 ∧ r.off / 64 ≤ (t.off + t.size - 1) / 64 ∧
    t.off / 64 ≤ (r.off + r.size - 1) / 64)

/-- An older remote access of the bank still names a line of a request (R156). -/
def Bank.olderOnLine (B : Bank) (id : Nat) (r : RemReq) : Bool :=
  B.out.acc.any (fun a => decide (a.id < id) && (a.reqs ++ a.unsent).any (fun t => r.sameLine t))

/-- The lowest FREE entry of a ticket table. -/
def Bank.freeTicket (B : Bank) : Nat :=
  ((List.range remoteMost).find? (fun i => B.out.tkt.all (fun t => decide (t.1 ≠ i)))).getD 0

/-- A request is served from its line in L2: no older access of the bank names the line (R299, R159). -/
def State.lineFor (s : State) (b id : Nat) (loads : Bool) (r : RemReq) : Option L2Line :=
  if r.cached && loads && ! (s.bank b).olderOnLine id r then
    s.cachedLine (clusterOf b) (r.key (s.bank b).place.vi)
  else none

/-- The slot that a request not yet sent has taken. -/
def State.heldSlot (s : State) (b id : Nat) (r : RemReq) : Option Nat :=
  ((s.core (coreOf b)).slots.find? (fun x => decide (x.2.bank = b ∧ x.2.access = id ∧ x.2.req = r) && x.2.held)).map
    (·.1)

/-- The request becomes a SHADOW entry: the access is kept and not sent (R156). -/
def State.shadow (s : State) (b id : Nat) (r : RemReq) : State :=
  s.updBank b (fun B => B.onOut (fun o => { o with
    acc := o.acc.map (fun x => if x.id = id then
      { x with unsent := x.unsent.erase r, reqs := x.reqs ++ [r] } else x),
    tkt := KV.put o.tkt B.freeTicket { state := .shadow, access := id, req := r, owner := r.peer,
                                       ownerInc := s.peerInc r.peer, number := 0, tkind := 0 } }))

/-- A request of an access at issue has what it needs of R47, R155 and R156: a line in L2, an older access to wait
for, or a slot. -/
def State.mayTake (s : State) (b id : Nat) (loads : Bool) (r : RemReq) : Bool :=
  (s.lineFor b id loads r).isSome ||
    (decide (s.remoteCount b < remoteMost) && ((s.bank b).olderOnLine id r || (s.slotFor b).isSome))

/-- A request of an access takes at issue what it needs, if it can. -/
def State.takeFor (s : State) (b : Nat) (a : Access) (r : RemReq) : State :=
  if (s.lineFor b a.id a.loads r).isSome || (s.heldSlot b a.id r).isSome || decide (remoteMost ≤ s.remoteCount b) then s
  else if (s.bank b).olderOnLine a.id r then s.shadow b a.id r
  else match s.slotFor b with
    | some i => s.takeSlot i (s.slotOf b a r none true)
    | none => s

/-- The unsent requests of an access take what they need. -/
def State.takeAll (s : State) (b id : Nat) : State :=
  match (s.bank b).out.acc.find? (fun a => a.id = id) with
  | some a => a.unsent.foldl (fun s r => s.takeFor b a r) s
  | none => s

/-- Some request of an access still lacks what it needs: the issuing strand stalls (R47). -/
def State.lacksSlot (s : State) (b id : Nat) : Bool :=
  (s.bank b).out.acc.any (fun a => decide (a.id = id) && a.unsent.any (fun r =>
    (s.lineFor b a.id a.loads r).isNone && (s.heldSlot b id r).isNone))

/-- Where the requests of an access may be sent now as far as its own task goes (R186, R192, R159). One that writes
waits until the module release that it is has been applied at its scope (R190, R191). -/
def State.remoteReady (s : State) (b : Nat) (a : Access) : Bool :=
  s.annotsLet b a && (! hasRelease a.ord || s.earlierCtlAt b a.id a.scope) &&
  (! a.writes || s.markAt b a.id a.scope)

/-- A fence at domain scope whose acquire half has taken effect drops the lines of the die once (R198). -/
def State.settleDrops (s : State) (b id : Nat) : State :=
  if (s.bank b).out.fences.any (fun f => decide (f.id < id) && f.drop) then
    (s.updBank b (fun B => B.onOut (fun o => { o with
      fences := o.fences.map (fun f => if f.id < id then { f with drop := false } else f) }))).domainAcquire b
  else s

/-- The bytes of an access whose requests are all answered, in the order of their addresses. -/
def Access.gathered (a : Access) : List Byte :=
  let first := match a.got with | [] => 0 | g :: rest => rest.foldl (fun m x => Nat.min m x.1) g.1
  let all := (List.range a.got.length).foldl (fun (acc : List Byte) i =>
    acc ++ ((a.got.find? (fun x => decide (x.1 = first + 64 * i))).map (·.2)).getD []) []
  (all.drop (a.va - first)).take (a.size * a.lanes.length)

/-- Serves one request of an access that is not sent yet: as a SHADOW entry, from its line in L2, or by sending it in
its slot (R299, R156, R159, R47). -/
def State.startRequest (s : State) (b : Nat) (a : Access) (r : RemReq) : State :=
  match s.lineFor b a.id a.loads r, s.heldSlot b a.id r with
  | some l, none =>
    let s := s.keepLine (clusterOf b) (r.key (s.bank b).place.vi) r.va r.policy l.data
    s.updBank b (fun B => B.onOut (fun o => { o with acc := o.acc.map (fun x => if x.id = a.id then
      { x with unsent := x.unsent.erase r, got := x.got ++ [(r.va, l.data)] } else x) }))
  | _, some i => s.sendIn b i a r none
  | none, none =>
    let s := s.takeFor b a r
    match s.heldSlot b a.id r with
    | some i => s.sendIn b i a r none
    | none => s

/-- An access whose requests have all been answered lands. -/
def State.finishRemote (s : State) (b id : Nat) : State :=
  match (s.bank b).out.acc.find? (fun a => a.id = id) with
  | some a => if a.remote && a.reqs.isEmpty && a.unsent.isEmpty then s.landed b a a.gathered else s
  | none => s

/-- Starts what can be started of an access's requests. -/
def State.pump (s : State) (b id : Nat) : State :=
  match (s.bank b).out.acc.find? (fun a => a.id = id) with
  | some a =>
    if a.remote && s.remoteReady b a then
      let s := s.settleDrops b id
      let s := a.unsent.foldl (fun s r =>
        match (s.bank b).out.acc.find? (fun x => x.id = id) with
        | some x => s.startRequest b x r
        | none => s) s
      s.finishRemote b id
    else s
  | none => s

/-- Pumps every access of a bank, oldest first. -/
def State.pumpBank (s : State) (b : Nat) : State :=
  ((s.bank b).out.acc.map (·.id)).foldl (fun s id => s.pump b id) s

/-- A slot has returned: what both banks of a core have not sent goes on. -/
def State.pumpCore (s : State) (c : Nat) : State :=
  let first := 2 * c + (s.core c).next
  let second := 2 * c + (1 - (s.core c).next)
  (s.pumpBank first).pumpBank second

/-! ### Responses and notices -/

/-- One request of an access has been answered with its data (R156). -/
def State.answered (s : State) (b id : Nat) (r : RemReq) (ticket : Option Nat) (data : List Byte) : State :=
  let s := s.updBank b (fun B => B.moved.onOut (fun o => { o with
    acc := o.acc.map (fun x => if x.id = id then
      { x with reqs := x.reqs.erase r, got := x.got ++ [(r.va, data)] } else x),
    tkt := match ticket with | some k => KV.erase o.tkt k | none => o.tkt }))
  let s := if r.cached && r.fill then
      s.keepLine (clusterOf b) (r.key (s.bank b).place.vi) r.va r.policy data else s
  s.finishRemote b id

/-- Sends a ticketed or retried request again as soon as a slot is free; else it waits (R156, R154). -/
def State.replay (s : State) (b id : Nat) (r : RemReq) (ticket : Option Nat) : State :=
  match (s.bank b).out.acc.find? (fun a => a.id = id) with
  | none => s
  | some a =>
    match s.slotFor b with
    | some i => (s.takeSlot i (s.slotOf b a r ticket false)).sendIn b i a r ticket
    | none => { s with nextId := s.nextId + 1, fab := { s.fab with retries := s.fab.retries ++
      [{ id := s.nextId, bank := b, access := id, req := r, ticket := ticket, at_ := s.time }] } }

/-- An entry's request is a different one from here on. -/
def State.rename (s : State) (b id : Nat) (r t : RemReq) : State :=
  s.updBank b (fun B => B.onOut (fun o => { o with acc := o.acc.map (fun x => if x.id = id then
    { x with reqs := x.reqs.map (fun u => if u = r then t else u) } else x) }))

/-- A notice for an entry (R156, R157). -/
def State.applyNotice (s : State) (b k : Nat) (body : List Byte) : State :=
  match (s.bank b).out.tkt.find? (fun t => t.1 = k) with
  | none => s
  | some (_, t) =>
    match leAt body 2 1 with
    | 0 => s.replay b t.access t.req (some k)
    | 1 =>
      let home := leAt body 4 2
      if s.peerInc home ≠ leAt body 6 2 then s.failRequest b t.access t.req cPeerReset
      else
        let r := { t.req with peer := home, off := leAt body 8 8 + t.req.off % 4096, token := leAt body 16 8 }
        (s.rename b t.access t.req r).replay b t.access r (some k)
    | 2 => s.failRequest b t.access t.req cAccess
    | _ => s

/-- The entry of a bank that a notice names (R157). -/
def Bank.ticketOf (B : Bank) (owner number : Nat) : Option Nat :=
  (B.out.tkt.find? (fun t => decide (t.2.owner = owner ∧ t.2.number = number ∧ t.2.state = .wait))).map (·.1)

/-- Opens or renews a ticket entry from a response of code 1 or 4 (R154, R156). -/
def State.openTicket (s : State) (b id : Nat) (r : RemReq) (ticket : Option Nat) (p : Packet) : State × Nat :=
  let k := ticket.getD (s.bank b).freeTicket
  if (s.bank b).out.acc.all (fun a => decide (a.id ≠ id)) then (s, k)
  else (s.updBank b (fun B => B.moved.onOut (fun o => { o with
    tkt := KV.put o.tkt k { state := .wait, access := id, req := r, owner := p.source, ownerInc := p.sinc,
                            number := bitsOf p.addr 31 16, tkind := bitsOf p.addr 9 8 } })), k)

/-- The reserved bits of a packet's header are zero (R40, R298). -/
def Packet.headerZero (p : Packet) : Bool := decide (p.rsv = 0 ∧ p.slot < 128)

/-- Ingress keeps a response (R46, R298): its incarnations match and its header is well-formed. -/
def State.responseOk (s : State) (p : Packet) : Bool :=
  decide (p.tinc = s.boot.incarnation) && decide (p.sinc = s.peerInc p.source) && p.headerZero

/-- RESP to a load, store or atomic (R156, R154), of a status code below 5: the slot returns; then by the
code. -/
def State.respAccess (s : State) (c i : Nat) (sl : Slot) (p : Packet) : State :=
  let s := s.updCore c (·.returnSlot i)
  let b := sl.bank
  let s : State := match bitsOf p.addr 7 0 with
    | 0 => s.answered b sl.access sl.req sl.ticket (p.body.take sl.req.size)
    | 1 => (s.openTicket b sl.access sl.req sl.ticket p).1
    | 2 => { s with nextId := s.nextId + 1, fab := { s.fab with retries := s.fab.retries ++
        [{ id := s.nextId, bank := b, access := sl.access, req := sl.req, ticket := sl.ticket,
           at_ := s.time + 1000000 }] } }
    | 3 => s.failRequest b sl.access sl.req cGrant
    | 4 =>
      let (s, k) := s.openTicket b sl.access sl.req sl.ticket p
      s.applyNotice b k p.body
    | _ => s
  s.pumpCore c

/-- The reserved bytes of a notice are zero (R157, R298). -/
def noticeReserved (body : List Byte) : Bool := decide (leAt body 3 1 = 0 ∧ leAt body 24 8 = 0)

/-- RETRY_RESEND (R154): 1 us after a retry answer the request is sent again, once a slot is free. -/
def execRetryResend (s : State) : Outcome State Fault Refusal :=
  .next (match s.fab.retries.find? (fun r => r.id = s.input.sub) with
    | none => s
    | some r =>
      if s.time < r.at_ || (s.slotFor r.bank).isNone then s
      else
        let s := { s with fab := { s.fab with retries := s.fab.retries.filter (fun x => x.id ≠ r.id) } }
        s.replay r.bank r.access r.req r.ticket)

/-- A SHADOW entry may be sent as far as its own task goes: a release or fence before it waits for the entries of older
accesses as it would for the access itself (R159). -/
def State.shadowReady (s : State) (b id : Nat) : Bool :=
  match (s.bank b).out.acc.find? (fun a => a.id = id) with
  | some a => s.remoteReady b a
  | none => true

/-- SHADOW_RELEASE (R156): every older remote access to its line has completed, so the entry's request is
sent and the entry is in REPLAY. -/
def execShadowRelease (s : State) : Outcome State Fault Refusal :=
  let b := s.input.who
  .next (match (s.bank b).out.tkt.find? (fun t => t.1 = s.input.sub) with
    | none => s
    | some (k, t) =>
      if decide (t.state = .shadow) && ! (s.bank b).olderOnLine t.access t.req && s.shadowReady b t.access &&
        (s.slotFor b).isSome then (s.settleDrops b t.access).replay b t.access t.req (some k)
      else s)

end Sys2Proof.Machine
end

