-- ==== Sys2Proof/Machine/Mem.lean ====
section
/-! DEFINITION. MEM words that read and write memory (chapter 15): the checks of R293, the forming of
addresses (R229, R302), loads, stores, queue accesses, atomics, `mpush`, `scop`, hints; and the arrival of
load data (R125). -/

namespace Sys2Proof.Machine

open Sys2Proof Host

/-! ### The word in each strand -/

/-- What a MEM word comes to: X notes an ordering word, V and M skip it, C executes it. -/
def memStep (i : Instr) (ordering : Bool) (rs : List Nat) (body : Annot → Nat → State → Res) (s : State) :
    Outcome State Fault Refusal :=
  let b := s.cur.bank
  match s.cur.strand with
  | .c => .next (finish b .c s (ctlRes i rs (body ((s.bank b).annot .c)) b s))
  | .x =>
    .next (if ordering && hasAcquire ((s.bank b).annot .x).ord then noteOrder b s else skip b .x s)
  | e => .next (skip b e s)

/-! ### Checks (R293) -/

/-- Where a lane of an access goes. -/
inductive Place where
  /-- a physical address -/
  | mem (pa : Nat)
  /-- a peer's window -/
  | rem (peer gi off : Nat) (cached : Bool)
  /-- a scratchpad byte, of the bank's own window (R133) or of another core's -/
  | scr (addr : Nat) (own : Bool)
deriving DecidableEq, Repr

/-- What the checks of a word come to. -/
inductive Checked where
  /-- every check has passed: the lanes' addresses and where they go -/
  | ok (s : State) (vas : List Nat) (places : List Place)
  /-- the word ends here -/
  | bad (r : Res)
deriving DecidableEq, Repr

/-- An address formed from a scalar and a displacement, modulo 2^64. -/
def addTo (x : Nat) (d : Int) : Nat := (((x : Int) + d) % (2 : Int) ^ 64).toNat

/-- The granules that lanes lie in, each once, in order of their first lane: the lane's address. -/
def granulesOf (vas : List Nat) : List Nat :=
  vas.foldl (fun gs va => if gs.any (fun g => decide (g / 4096 = va / 4096)) then gs else gs ++ [va]) []

/-- Translates granules in order, stopping at the first that faults. -/
def xlatAll (b : Nat) (kind : AccKind) : List Nat → State → State × List (Nat × Xlat)
  | [], s => (s, [])
  | va :: rest, s =>
    let (s, x) := s.translate (some b) false (s.bank b).place.vi va kind
    match x with
    | .fault k => (s, [(va, .fault k)])
    | x =>
      let (s, xs) := xlatAll b kind rest s
      (s, (va, x) :: xs)

/-- Where a lane goes, by its granule's translation. -/
def placeOf (xs : List (Nat × Xlat)) (va : Nat) : Place :=
  match xs.find? (fun x => decide (x.1 / 4096 = va / 4096)) with
  | some (g, .phys pa _) => .mem (pa - g % 4096 + va % 4096)
  | some (g, .remote peer gi off c) => .rem peer gi (off - g % 4096 + va % 4096) c
  | _ => .mem 0

/-- What a word does with remote pages (R297, R196). -/
inductive RemRule where
  /-- sends requests -/
  | may
  /-- sends one, if all its bytes lie in one granule -/
  | oneGranule
  /-- traps with ACCESS -/
  | never
  /-- traps with ACCESS, on a page in TRANSIT too -/
  | neverTransit
deriving DecidableEq, Repr

/-- The trap of check 9 on a granule's translation, if any: TRANSIT, a PARCEL page that no OPEN entry
covers, and the word's own refusals. -/
def modeTrap (s : State) (vi : Nat) (rule : RemRule) (va : Nat) : Xlat → Option Nat
  | .transit => some (if rule = .neverTransit then cAccess else cParcelGone)
  | .phys _ m => if m = 4 ∧ s.parcelOpen vi va = false then some cParcelGone else none
  | .remote .. => if rule = .never ∨ rule = .neverTransit then some cAccess else none
  | .fault _ => none

/-- The translation of a lane's granule. -/
def xlatOf (xs : List (Nat × Xlat)) (va : Nat) : Xlat :=
  match xs.find? (fun x => decide (x.1 / 4096 = va / 4096)) with
  | some (_, x) => x
  | none => .fault .form

/-- The first lane that check 9 stops, and with which trap. -/
def modeCheck (s : State) (vi : Nat) (rule : RemRule) (vas : List Nat) (xs : List (Nat × Xlat)) :
    Option (Nat × Nat) :=
  match vas.findSome? (fun va => (modeTrap s vi rule va (xlatOf xs va)).map (fun c => (va, c))) with
  | some r => some r
  | none =>
    if rule = .oneGranule ∧ 1 < xs.length ∧
        xs.any (fun x => match x.2 with | .remote .. => true | _ => false) = true then
      some (vas.headD 0, cAlign)
    else none

/-- Checks 5, 6 and 8 to 11 of R293 on virtual addresses. -/
def vaCheck (b : Nat) (s : State) (kind : AccKind) (size : Nat) (rule : RemRule) (vas : List Nat) :
    Checked :=
  let vi := (s.bank b).place.vi
  let tval := fun (va : Nat) => BitVec.ofNat 64 va
  match vas.find? (fun va => decide (2 ^ 57 ≤ va)) with
  | some va => .bad (.trap cAccess (tval va))
  | none =>
    match vas.find? (fun va => decide (va % size ≠ 0)) with
    | some va => .bad (.trap cAlign (tval va))
    | none =>
      let (t, xs) := xlatAll b kind (granulesOf vas) s
      match xs.find? (fun x => match x.2 with | .fault _ => true | _ => false) with
      | some (va, .fault k) => .bad (.wait (t.localFault b none va k) .fault)
      | some _ => .bad (.stall .fault)
      | none =>
        match modeCheck t vi rule vas xs with
        | some (va, c) => .bad (.trapWith t c (tval va))
        | none =>
          match (if kind.reads then none else vas.findSome? (fun va => s.headerHit vi va size)) with
          | some va => .bad (.trapWith t cRefForm (tval va))
          | none =>
            let places := vas.map (placeOf xs)
            match (vas.zip places).find? (fun x => match x.2 with
              | .rem _ gi _ _ => decide (KV.get 0 (s.bank b).r.g gi = 0)
              | _ => false) with
            | some (va, _) => .bad (.trapWith t cGrant (tval va))
            | none => .ok t vas places

/-- Check 7 in space 1 (R129). -/
def localCheck (b : Nat) (s : State) (size : Nat) (was : List Nat) : Checked :=
  let w := (s.bank b).windowSize
  match was.find? (fun a => decide (w < a + size)) with
  | some a => .bad (.trap cScratchBounds (BitVec.ofNat 64 (Nat.max a w)))
  | none => .ok s was (was.map (fun a => .scr (s.windowBase b + a) true))

/-- The bank that an address in cluster space names (R292). -/
def clusterBank (b a : Nat) : Nat := b / 16 * 16 + 2 * bitsOf a 22 20 + bitsOf a 23 23

/-- A bank holds a task of the requester's group. -/
def State.sameGroup (s : State) (b c : Nat) : Bool :=
  (decide ((s.bank c).status = .live) || decide ((s.bank c).status = .stopped)) &&
    decide ((s.bank c).place.group = (s.bank b).place.group)

/-- Check 7 in space 2 (R292). -/
def clusterCheck (b : Nat) (s : State) (size : Nat) (as_ : List Nat) : Checked :=
  match as_.find? (fun a => decide (2 ^ 24 ≤ a) || ! s.sameGroup b (clusterBank b a)) with
  | some a => .bad (.trap cAccess (BitVec.ofNat 64 a))
  | none =>
    let w := fun (a : Nat) => (s.bank (clusterBank b a)).windowSize
    match as_.find? (fun a => decide (w a < a % 2 ^ 20 + size)) with
    | some a => .bad (.trap cScratchBounds (BitVec.ofNat 64 (Nat.max (a % 2 ^ 20) (w a))))
    | none => .ok s as_ (as_.map (fun a => .scr (s.windowBase (clusterBank b a) + a % 2 ^ 20) false))

/-- Where an address of a system core lies: hub register space at its physical addresses, anything else where the
tables of the module operating system put it, a free value (R290, log entry 6). -/
def sysAddr (va : Nat) : Nat :=
  if hubBase ≤ va ∧ va < 2 ^ 52 then va else Config.sysPage (va / 4096) * 4096 + va % 4096

/-- An address lies in hub register space. -/
def inHub (pa : Nat) : Bool := decide (hubBase ≤ pa ∧ pa < 2 ^ 52)

/-- Checks 5, 6 and 8 of R293 on the addresses of a system core: a translation that leads to an unpopulated range is
refused, with ACCESS (R16). -/
def sysCheck (s : State) (size : Nat) (vas : List Nat) : Checked :=
  match vas.find? (fun va => decide (2 ^ 57 ≤ va)) with
  | some va => .bad (.trap cAccess (BitVec.ofNat 64 va))
  | none =>
    match vas.find? (fun a => decide (a % size ≠ 0)) with
    | some a => .bad (.trap cAlign (BitVec.ofNat 64 a))
    | none =>
      match vas.find? (fun va => ! s.populated (sysAddr va) && ! inHub (sysAddr va)) with
      | some va => .bad (.trap cAccess (BitVec.ofNat 64 va))
      | none => .ok s vas ((vas.map sysAddr).map .mem)

/-- Checks 5 to 11 in space 0 or 3. -/
def globalCheck (b : Nat) (s : State) (kind : AccKind) (size : Nat) (rule : RemRule) (vas : List Nat) : Checked :=
  if isSys b then sysCheck s size vas else vaCheck b s kind size rule vas

/-- The word that stands here has been answered with ACCESS (R148): the address. -/
def Bank.deniedHere (B : Bank) : Option Nat :=
  match B.out.denied with
  | some (va, h) => if h = B.trap.handler then some va else none
  | none => none

/-- A word whose fault has been answered with ACCESS traps; the answer is used up. -/
def deniedTrap (b va : Nat) (s : State) : Res :=
  .trapWith (s.updBank b (fun B => { B with out := { B.out with denied := none } })) cAccess (BitVec.ofNat 64 va)

/-- The checks of R293 on a word whose base is scalar `a` and whose lanes lie at displacements `ds` from
its value. `bound` says that the word needs a bound base. -/
def memCheck (i : Instr) (b : Nat) (s : State) (an : Annot) (kind : AccKind) (a : Nat) (ds : List Int)
    (size : Nat) (bound : Bool) (rule : RemRule) : Checked :=
  let B := s.bank b
  let v := B.r.readS a
  let offs := ds.map (addTo v.toNat)
  let first := BitVec.ofNat 64 (offs.headD 0)
  if isSys b && decide (an.space = 1 ∨ an.space = 2) then .bad (.trap cIllegal (wordVal i))
  else match B.deniedHere with
    | some va => .bad (deniedTrap b va s)
    | none =>
      if an.space = 1 ∨ an.space = 2 then
        match offs.find? (fun o => decide (o % size ≠ 0)) with
        | some o => .bad (.trap cAlign (BitVec.ofNat 64 o))
        | none => if an.space = 1 then localCheck b s size offs else clusterCheck b s size offs
      else if B.r.binding a = 0 then
        if an.space = 3 || bound then .bad (.trap cRefForm v) else globalCheck b s kind size rule offs
      else match s.openEntry b (B.r.binding a - 1) with
        | none => .bad (.trap cParcelGone first)
        | some p =>
          if v = 0 then .bad (.trap cRefForm first)
          else match offs.find? (fun o => decide (p.length < o + size)) with
            | some o => .bad (.trap cRefForm (BitVec.ofNat 64 o))
            | none => globalCheck b s kind size rule (offs.map (p.base + ·))

/-! ### Issuing an access -/

/-- The handles of the OPEN parcels that addresses lie in (R182). -/
def State.touched (s : State) (vi : Nat) (vas : List Nat) : List Nat :=
  (s.parcels.table.filter (fun p => decide (p.state = .opened) && vas.any (fun va => p.covers vi va))).map
    (·.handle)

/-- The requests of a remote access (R297, R299): one of the access's bytes, or one for each 64-byte line
of a cached read. -/
def remoteReqs (s : State) (b : Nat) (an : Annot) (reading : Bool) (bytes va : Nat) :
    Place → List RemReq
  | .rem peer gi off cached =>
    let tok := (KV.get 0 (s.bank b).r.g gi).toNat
    if cached && reading then
      (List.range ((off + bytes - 1) / 64 - off / 64 + 1)).map (fun k =>
        { va := (va / 64 + k) * 64, peer := peer, off := (off / 64 + k) * 64, token := tok, size := 64,
          fill := decide (an.cache ≠ 2), cached := true, policy := an.cache })
    else [{ va := va, peer := peer, off := off, token := tok, size := bytes, fill := false, cached := cached,
            policy := an.cache }]
  | _ => []

/-- A physical, scratchpad or window address of a lane. -/
def Place.addr : Place → Nat
  | .mem pa => pa
  | .rem _ _ off _ => off
  | .scr a _ => a

/-- A lane on a remote page. -/
def Place.isRem : Place → Bool
  | .rem .. => true
  | _ => false

/-- The access of a word: its lanes and requests. -/
def mkAccess (s : State) (b : Nat) (an : Annot) (op : AccOp) (size dst : Nat) (x y : Word)
    (data : List Byte) (vas : List Nat) (places : List Place) : Access :=
  let p := places.headD (.mem 0)
  let reading := match op with | .st | .amo _ | .cas _ => false | _ => true
  { id := s.nextId, walk := (s.bank b).wc.walk, op := op, size := size, lanes := places.map Place.addr,
    scr := (match p with | .scr .. => true | _ => false),
    own := (match p with | .scr _ o => o | _ => false),
    va := vas.headD 0, dst := dst, x := x, y := y, data := data, ord := an.ord, scope := an.scope,
    reqs := [], unsent := remoteReqs s b an reading (size * places.length) (vas.headD 0) p, got := [],
    remote := p.isRem, policy := an.cache, touch := s.touched (s.bank b).place.vi vas }

/-- Puts an access among those outstanding, leaves its lines in the slice (R228) and queues it at the memory ports
(R105), marks its destination pending (R295), and lets its requests take their slots and start (R47). A remote access with a
release half at scope 4 or 5 is a module release (R190). -/
def State.issueAccess (s : State) (b : Nat) (a : Access) : State :=
  let s := ({ s with nextId := s.nextId + 1 } : State).updBank b (fun B =>
    (B.onOut (fun o => { o with acc := o.acc ++ [a] })).onRegs (fun r =>
      if a.dst = 0 then r else { r with pend := a.dst :: r.pend.filter (fun n => n ≠ a.dst) }))
  if a.remote then
    let s := if hasRelease a.ord && decide (4 ≤ a.scope) then
        s.releaseWrite { s.ctlTag b with walk := a.walk, name := some a.id } a.scope else s
    (s.takeAll b a.id).pump b a.id
  else if a.scr then s
  else (s.touchLines b a.policy a.lanes).enqueueAll (s.bank b).place.vi a.id a.lanes

/-- Puts the pieces of a write to memory in flight and queues each at its port (R105). -/
def State.issueQueued (s : State) (tenant : Nat) (t : WriteTag) : List (Nat × List Byte) → State
  | [] => s
  | (a, bs) :: rest => ((s.issueWrite t a bs).enqueue tenant s.nextId a).issueQueued tenant (t.on bs.length) rest

/-- A store of bytes at one place, with the footprint of its whole word where that is wider: writes in flight, one for each line piece (R188), whose granule is
marked in the dirty log (R61). -/
def State.storeAt (s : State) (b : Nat) (an : Annot) (foot : Option (Nat × Nat)) (va : Nat) (p : Place)
    (bytes : List Byte) : State :=
  let vi := (s.bank b).place.vi
  let t : WriteTag :=
    { s.ctlTag b with
      rel := if hasRelease an.ord then some an.scope else none
      acq := if hasAcquire an.ord then some an.scope else none }
  match p with
  | .scr a own => s.issueWrite { t with scr := true, own := own, foot := if own then foot else none } a bytes
  | .mem pa =>
    let s := if isSys b then s else s.markDirty vi va bytes.length
    let t := { t with mark := if isSys b then none else some (vi, va) }
    (s.touchLines b an.cache [pa]).issueQueued vi t (linePieces bytes.length pa bytes)
  | .rem .. => s

/-- A remote access may issue: its first request has what R47, R155 and R156 ask for. -/
def State.remoteRoom (s : State) (b : Nat) (an : Annot) (reading : Bool) (bytes : Nat) (vas : List Nat)
    (places : List Place) : Bool :=
  match remoteReqs s b an reading bytes (vas.headD 0) (places.headD (.mem 0)) with
  | [] => true
  | r :: _ => s.mayTake b s.nextId reading r

/-! ### Forming addresses (R229) -/

/-- The displacement of an Fm word and what its base becomes, by the offset mode. -/
def fmOffset (mode : Nat) (z : BitVec 2) (i : BitVec 10) : Int × Option Int :=
  let sc := i.toInt * (2 : Int) ^ z.toNat
  match mode with
  | 0 => (sc, none)
  | 1 => (i.toInt, none)
  | 2 => (0, some sc)
  | _ => (sc, some sc)

/-- An Fm word that updates its base may not have base s0, nor load into its base (R229). -/
def fmIllegal (mode a : Nat) (t : Option Nat) : Bool :=
  decide (2 ≤ mode) && (decide (a = 0) || decide (t = some a))

/-- Writes an updated base, keeping its binding. -/
def fmBase (b a : Nat) (v : Word) (upd : Option Int) (s : State) : State :=
  match upd with
  | none => s
  | some d => s.onRegs b (fun r => r.writeBound a (BitVec.ofNat 64 (addTo v.toNat d)) (r.binding a))

/-! ### ld, ldz, st, ldref, stref (R300, R301, R310) -/

/-- A load of hub register space by a system core completes at once. -/
def hubLoad (op : AccOp) (size dst pa : Nat) (b : Nat) (s : State) : Res :=
  let (t, v) := s.hubGet (pa - hubBase) size
  let x : Word := match op with
    | .ld => (BitVec.ofNat (8 * size) v).signExtend 64
    | _ => BitVec.ofNat 64 v
  .done (t.onRegs b (·.writeS dst x))

/-- The body of a scalar load. -/
def loadBody (i : Instr) (op : AccOp) (t a : BitVec 6) (z : BitVec 2) (d : BitVec 10) (an : Annot) (b : Nat)
    (s : State) : Res :=
  if fmIllegal an.offset a.toNat (some t.toNat) then .trap cIllegal (wordVal i)
  else
    let size := 2 ^ z.toNat
    let v := s.sreg b a.toNat
    let (off, upd) := fmOffset an.offset z d
    match memCheck i b s an .read a.toNat [off] size false .may with
    | .bad r => r
    | .ok s vas places =>
      let pa := (places.headD (.mem 0)).addr
      if isSys b && inHub pa then hubLoad op size t.toNat pa b (fmBase b a.toNat v upd s)
      else if ! s.remoteRoom b an true size vas places then .stall .slot
      else .done ((fmBase b a.toNat v upd s).issueAccess b
        (mkAccess s b an op size t.toNat 0 0 [] vas places))

/-- `ld` (R300). -/
def execLd (t a : BitVec 6) (z : BitVec 2) (i : BitVec 10) (s : State) :=
  memStep (.ld t a z i) true [t.toNat, a.toNat] (loadBody (.ld t a z i) .ld t a z i) s

/-- `ldz` (R300). -/
def execLdz (t a : BitVec 6) (z : BitVec 2) (i : BitVec 10) (s : State) :=
  memStep (.ldz t a z i) true [t.toNat, a.toNat] (loadBody (.ldz t a z i) .ldz t a z i) s

/-- Sets how far the control strand's request has come. -/
def State.setDec (s : State) (b : Nat) (d : Decision) : State := s.updBank b (·.onOut (fun o => { o with dec := d }))

/-- The length of the parcel that a scalar is bound to, 0 where it is bound to none. -/
def State.boundLength (s : State) (b a : Nat) : Nat :=
  match s.openEntry b ((s.bank b).r.binding a - 1) with
  | some p => p.length
  | none => 0

/-- Where the control strand stands at an `ldref`. -/
def refMark (B : Bank) (a : Nat) (v : Word) (upd : Option Int) : RefMark :=
  { pc := B.wc.pc, pfx := B.wc.pfx, pushes := B.wc.pops, base := match upd with | none => 0 | some _ => a,
    bind := B.r.binding a, old := v, new := match upd with | none => v | some d => BitVec.ofNat 64 (addTo v.toNat d) }

/-- The control strand at `ldref` (R310, R173): a load whose destination takes the base's binding when its word has
arrived. A malformed word traps precisely (R166). -/
def ldrefBody (t a : BitVec 6) (i : BitVec 10) (an : Annot) (b : Nat) (s : State) : Res :=
  if fmIllegal an.offset a.toNat (some t.toNat) || decide (an.space = 1 ∨ an.space = 2) then
    .trap cIllegal (wordVal (.ldref t a i))
  else
    let v := s.sreg b a.toNat
    let (off, upd) := fmOffset an.offset 3 i
    match memCheck (.ldref t a i) b s an .read a.toNat [off] 8 true .never with
    | .bad r => r
    | .ok s vas places =>
      .done ((fmBase b a.toNat v upd s).issueAccess b
        (mkAccess s b an (.ldref (s.boundLength b a.toNat) (refMark (s.bank b) a.toNat v upd)) 8 t.toNat 0 0 [] vas
          places))

/-- `ldref` (R310). -/
def execLdref (t a : BitVec 6) (i : BitVec 10) (s : State) :=
  memStep (.ldref t a i) true [t.toNat, a.toNat] (ldrefBody t a i) s

/-- The store of a scalar once its checks have passed. -/
def storeGo (an : Annot) (size : Nat) (x : Word) (upd : State → State) (vas : List Nat)
    (places : List Place) (b : Nat) (s : State) : Res :=
  let va := vas.headD 0
  let p := places.headD (.mem 0)
  let bytes := leBytes size x.toNat
  if isSys b && inHub p.addr then .done (upd (s.hubPut (p.addr - hubBase) size x.toNat))
  else if ! s.remoteRoom b an false size vas places then .stall .slot
  else if p.isRem then
    let s := upd s
    .done ((s.markDirty (s.bank b).place.vi va size).issueAccess b
      (mkAccess s b an .st size 0 x 0 bytes vas places))
  else .done ((upd s).storeAt b an none va p bytes)

/-- `st` (R300). -/
def execSt (t a : BitVec 6) (z : BitVec 2) (i : BitVec 10) (s : State) :=
  memStep (.st t a z i) true [t.toNat, a.toNat] (fun an b s =>
    if fmIllegal an.offset a.toNat none then .trap cIllegal (wordVal (.st t a z i))
    else
      let v := s.sreg b a.toNat
      let x := s.sreg b t.toNat
      let (off, upd) := fmOffset an.offset z i
      match memCheck (.st t a z i) b s an .write a.toNat [off] (2 ^ z.toNat) false .may with
      | .bad r => r
      | .ok s vas places =>
        storeGo an (2 ^ z.toNat) x (fmBase b a.toNat v upd) vas places b s) s

/-- `stref` (R310, R173): the value must be s0, or bound as the base is and well-formed. -/
def execStref (t a : BitVec 6) (i : BitVec 10) (s : State) :=
  memStep (.stref t a i) true [t.toNat, a.toNat] (fun an b s =>
    if fmIllegal an.offset a.toNat none || decide (an.space = 1 ∨ an.space = 2) then
      .trap cIllegal (wordVal (.stref t a i))
    else
      let r := (s.bank b).r
      let v := r.readS a.toNat
      let x := r.readS t.toNat
      let (off, upd) := fmOffset an.offset 3 i
      match memCheck (.stref t a i) b s an .write a.toNat [off] 8 true .never with
      | .bad r => r
      | .ok s vas places =>
        if t ≠ 0 ∧ r.binding t.toNat ≠ r.binding a.toNat then
          .trapWith s cRefEscape (BitVec.ofNat 64 (vas.headD 0))
        else
          if refMalformed x.toNat (s.boundLength b a.toNat) then .trapWith s cRefForm x
          else storeGo an 8 (x &&& 0xFFFFFFFFFF) (fmBase b a.toNat v upd) vas places b s) s

/-! ### ldq, stq (R302-R305) -/

/-- The lanes of a queue access of 2^z bytes (R302, R323). -/
def queueLanes (B : Bank) (x : BitVec 1) (z : Nat) : Nat :=
  let n := 64 * (bitsOf (B.csrGet csrVSH).toNat 2 0 + 1) / 2 ^ z
  if x = 1 then Nat.min 128 n else n

/-- The displacements of the lanes of a queue access; with x = 1 from an entry of oq. -/
def queueDisps (x : BitVec 1) (z n : Nat) (i : BitVec 12) (entry : VecBits) : List Int :=
  (List.range n).map (fun (l : Nat) =>
    if x = 1 then
      (BitVec.ofNat 32 (entry.toNat / 2 ^ (32 * l))).toInt * (2 : Int) ^ z + i.toInt
    else i.toInt + (l : Int) * (2 : Int) ^ z)

/-- What a queue access does with remote pages (R297). -/
def queueRule (x : BitVec 1) : RemRule := if x = 1 then .never else .oneGranule

/-- Pops the oq entry of a word with x = 1. -/
def popOq (x : BitVec 1) (b : Nat) (s : State) : State :=
  if x = 1 then (s.onQ b (fun q => { q with oq := q.oq.drop 1 })).updBank b (·.notePop qcOq 1) else s

/-- A word with x = 1 finds no head in oq. -/
def Bank.oqEmpty (B : Bank) (x : BitVec 1) : Bool :=
  decide (x = 1) && decide (B.poppable qcOq B.q.oq.length = 0)

/-- The control strand passes a word once every request of its access has taken what it needs; until then it stands
there (R47). -/
def issueRest (b id : Nat) (s : State) : Res :=
  if ! s.lacksSlot b id then .done (s.setDec b .none)
  else
    let t := s.setDec b (.issuing id)
    if (s.bank b).out.dec = .none then .ask t .slot else .wait t .slot

/-- The control strand stands at a word whose access has issued: its requests take what they still lack. -/
def goOnIssuing (b id : Nat) (s : State) : Res := issueRest b id ((s.takeAll b id).pump b id)

/-- `ldq` (R303). -/
def execLdq (q : BitVec 3) (x : BitVec 1) (z : BitVec 2) (a : BitVec 6) (i : BitVec 12) (s : State) :=
  memStep (.ldq q x z a i) true [a.toNat] (fun an b s =>
    let B := s.bank b
    match B.out.dec with
    | .issuing id => goOnIssuing b id s
    | _ =>
    if depthLq ≤ B.filledOf (32 + q.toNat) (KV.get [] B.q.lq q.toNat).length then .stall .queue
    else if B.oqEmpty x then .stall .queue
    else
      let n := queueLanes B x z.toNat
      let ds := queueDisps x z.toNat n i (B.q.oq.headD 0)
      match memCheck (.ldq q x z a i) b s an .read a.toNat ds (2 ^ z.toNat) false (queueRule x) with
      | .bad r => r
      | .ok s vas places =>
        if ! s.remoteRoom b an true (2 ^ z.toNat * n) vas places then .stall .slot
        else
          let acc := mkAccess s b an (.ldq q.toNat) (2 ^ z.toNat) 0 0 0 [] vas places
          let s := ((popOq x b s).onQ b (fun w => { w with
            lq := KV.put w.lq q.toNat (KV.get [] w.lq q.toNat ++ [{ access := acc.id, data := none }]) })).updBank b
              (·.notePush (32 + q.toNat) 1)
          issueRest b acc.id (s.issueAccess b acc)) s

/-- Groups consecutive lanes of a linear store into pieces that lie in one 64-byte line of one granule. -/
def lanePieces (size : Nat) : List (Nat × Place) → List (List Byte) → List (Nat × Place × List Byte)
  | [], _ => []
  | (va, p) :: rest, ds =>
    let me := ds.headD []
    match lanePieces size rest (ds.drop 1) with
    | (va', p', bs) :: more =>
      if va' = va + size ∧ p'.addr = p.addr + size ∧ p'.addr / 64 = p.addr / 64 then
        (va, p, me ++ bs) :: more
      else (va, p, me) :: (va', p', bs) :: more
    | [] => [(va, p, me)]

/-- The bytes of the lanes of a queue entry. -/
def laneBytes (size n : Nat) (entry : VecBits) : List (List Byte) :=
  (List.range n).map (fun l => leBytes size (entry.toNat / 2 ^ (8 * size * l)))

/-- The footprint of the lanes of a word: from the lowest to the highest lane byte (R305). -/
def footOf (size : Nat) (places : List Place) : Option (Nat × Nat) :=
  match places.map Place.addr with
  | [] => none
  | a :: rest => some (rest.foldl Nat.min a, rest.foldl Nat.max a + size - 1)

/-- `stq` (R304): lanes are written in increasing order. -/
def execStq (q : BitVec 3) (x : BitVec 1) (z : BitVec 2) (a : BitVec 6) (i : BitVec 12) (s : State) :=
  memStep (.stq q x z a i) true [a.toNat] (fun an b s =>
    let B := s.bank b
    let k := q.toNat - 4
    match KV.get [] B.q.sq k with
    | [] => .stall .queue
    | head :: more =>
      if B.oqEmpty x || decide (B.poppable (37 + k) (more.length + 1) = 0) then .stall .queue
      else
        let size := 2 ^ z.toNat
        let n := queueLanes B x z.toNat
        let ds := queueDisps x z.toNat n i (B.q.oq.headD 0)
        match memCheck (.stq q x z a i) b s an .write a.toNat ds size false (queueRule x) with
        | .bad r => r
        | .ok s vas places =>
          if ! s.remoteRoom b an false (size * n) vas places then .stall .slot
          else
            let s := ((popOq x b s).onQ b (fun w => { w with sq := KV.put w.sq k more })).updBank b (·.notePop (37 + k) 1)
            let bytes := laneBytes size n head
            if places.any Place.isRem then
              let s := s.markDirty B.place.vi (vas.headD 0) (size * n)
              .done (s.issueAccess b (mkAccess s b an .st size 0 0 0 bytes.flatten vas places))
            else
              let foot := footOf size places
              if x = 1 then
                .done (((vas.zip places).zip bytes).foldl (fun s y => s.storeAt b an foot y.1.1 y.1.2 y.2) s)
              else
                .done ((lanePieces size (vas.zip places) bytes).foldl
                  (fun s y => s.storeAt b an foot y.1 y.2.1 y.2.2) s)) s

/-! ### amo, cas (R306-R308) -/

/-- The new bytes of a read-modify-write, none where a `cas` fails. -/
def rmwNew (a : Access) (old : Nat) : Option Nat :=
  match a.op with
  | .amo fn => some (amoOp fn (8 * a.size) old (a.x.toNat % 2 ^ (8 * a.size)))
  | .cas _ => if old = a.x.toNat % 2 ^ (8 * a.size) then some (a.y.toNat % 2 ^ (8 * a.size)) else none
  | _ => none

/-- A read-modify-write of hub register space by a system core completes at once: the register is read, and written by
the codes of R4. -/
def hubAtomic (a : Access) (pa b : Nat) (s : State) : Res :=
  let (t, v) := s.hubGet (pa - hubBase) a.size
  let t := match rmwNew a v with
    | some n => t.hubPut (pa - hubBase) a.size n
    | none => t
  .done (t.landed b a (leBytes a.size v))

/-- An atomic once its checks have passed. -/
def atomicGo (an : Annot) (op : AccOp) (size dst : Nat) (x y : Word) (vas : List Nat)
    (places : List Place) (b : Nat) (s : State) : Res :=
  let p := places.headD (.mem 0)
  if isSys b && inHub p.addr then hubAtomic (mkAccess s b an op size dst x y [] vas places) p.addr b s
  else if ! s.remoteRoom b an false size vas places then .stall .slot
  else
    let t := if p.isRem then s.markDirty (s.bank b).place.vi (vas.headD 0) size else s
    .done (t.issueAccess b (mkAccess t b an op size dst x y [] vas places))

/-- `amo` (R306). -/
def execAmo (d a c : BitVec 6) (n : BitVec 4) (z : BitVec 2) (s : State) :=
  memStep (.amo d a c n z) true [d.toNat, a.toNat, c.toNat] (fun an b s =>
    match memCheck (.amo d a c n z) b s an .atomic a.toNat [0] (2 ^ z.toNat) false .may with
    | .bad r => r
    | .ok t vas places =>
      atomicGo an (.amo n.toNat) (2 ^ z.toNat) d.toNat (s.sreg b c.toNat) 0 vas places b t) s

/-- `cas` (R307). -/
def execCas (d a c : BitVec 6) (k : BitVec 4) (z : BitVec 2) (s : State) :=
  memStep (.cas d a c k z) true [d.toNat, a.toNat, c.toNat, 64 + k.toNat] (fun an b s =>
    match memCheck (.cas d a c k z) b s an .atomic a.toNat [0] (2 ^ z.toNat) false .may with
    | .bad r => r
    | .ok t vas places =>
      atomicGo an (.cas k.toNat) (2 ^ z.toNat) d.toNat (s.sreg b d.toNat) (s.sreg b c.toNat) vas places b t) s

/-! ### mpush (R315) -/

/-- `mpush` (R315): it stalls until mq has its free entries and an earlier one has pushed its own; space 2 and remote pages trap with ACCESS. -/
def execMpush (a : BitVec 6) (n : BitVec 3) (s : State) :=
  memStep (.mpush a n) true [a.toNat] (fun an b s =>
    let k := n.toNat + 1
    if (s.bank b).mpushOut || decide (depthMq < (s.bank b).filledOf qcMq (s.bank b).q.mq.length + k) then .stall .queue
    else if an.space = 2 then
      .trap (if (s.sreg b a.toNat).toNat % 16 = 0 then cAccess else cAlign) (s.sreg b a.toNat)
    else match memCheck (.mpush a n) b s an .read a.toNat ((List.range k).map (fun (j : Nat) => 16 * (j : Int)))
        16 false .never with
      | .bad r => r
      | .ok s vas places =>
        .done (s.issueAccess b (mkAccess s b an (.mpush k) 16 0 0 0 [] vas places))) s

/-! ### scop (R309, R196) -/

/-- A `scop` waits for its wheel position; a later one waits for an earlier one. -/
def scopBody (i : Instr) (o : Nat) (kind : AccKind) (d a : BitVec 6) (x : Word) (z : BitVec 2) (an : Annot)
    (b : Nat) (s : State) : Res :=
  if an.space = 1 ∨ an.space = 2 then .trap cIllegal (wordVal i)
  else if (s.bank b).out.scop.isSome then .stall .order
  else match memCheck i b s an kind a.toNat [0] (2 ^ z.toNat) false .neverTransit with
    | .bad r => r
    | .ok t vas places =>
      let p := places.headD (.mem 0)
      let rec_ : ScopRec := { id := t.nextId, walk := (t.bank b).wc.walk, op := o, size := 2 ^ z.toNat,
                              pa := p.addr, va := vas.headD 0, dst := d.toNat, x := x, ready := none }
      let t := t.touchLines b an.cache [p.addr]
      .done (({ t with nextId := t.nextId + 1 } : State).updBank b (fun B =>
        (B.onOut (fun u => { u with scop := some rec_ })).onRegs (fun r =>
          if o = 1 ∨ d = 0 then r else { r with pend := d.toNat :: r.pend })))

/-- A `scop` word: X notes it, since no later access is performed before it (R196). -/
def scopStep (i : Instr) (rs : List Nat) (body : Annot → Nat → State → Res) (s : State) :
    Outcome State Fault Refusal :=
  if s.cur.strand = .x then .next (noteOrder s.cur.bank s) else memStep i false rs body s

/-- `scop.ld` (R309). -/
def execScopLd (d a : BitVec 6) (z : BitVec 2) (s : State) :=
  scopStep (.scopLd d a z) [d.toNat, a.toNat] (scopBody (.scopLd d a z) 0 .scopRead d a 0 z) s

/-- `scop.st` (R309). -/
def execScopSt (a c : BitVec 6) (z : BitVec 2) (s : State) :=
  scopStep (.scopSt a c z) [a.toNat, c.toNat] (fun an b s =>
    scopBody (.scopSt a c z) 1 .write 0 a (s.sreg b c.toNat) z an b s) s

/-- `scop` read-modify-writes (R309). -/
def execScopRmw (d a c : BitVec 6) (o : BitVec 4) (z : BitVec 2) (s : State) :=
  scopStep (.scopRmw d a c o z) [d.toNat, a.toNat, c.toNat] (fun an b s =>
    scopBody (.scopRmw d a c o z) o.toNat .atomic d a (s.sreg b c.toNat) z an b s) s

/-- The bank holds the wheel position (R70). -/
def wheelHolds (b count pos : Nat) : Bool :=
  (List.range (Nat.max 1 count)).any (fun j => decide (b + 1024 * j = pos))

/-- The tick of the 600 MHz reference that a time falls in: one tick is 5,000 ÷ 3 ps (R195). -/
def wheelTick (ps : Nat) : Nat := ps * 3 / 5000

/-- The first picosecond of a tick. -/
def tickStart (t : Nat) : Nat := (t * 5000 + 2) / 3

/-- The first tick after `t` whose position a bank of wheel count `count` holds. -/
def nextHeld (b count t : Nat) : Nat :=
  (((List.range 4096).map (t + 1 + ·)).find? (fun k => wheelHolds b count (k % 4096))).getD (t + 4096)

/-- A `scop` is ready (R196). -/
def State.scopReady (s : State) (b : Nat) (r : ScopRec) : Bool := s.earlierAllAt b r.id r.walk 4

/-- The present tick is that in which every `scop` that is ready now, and has not been before, became so. -/
def State.noteReady (s : State) : State :=
  s.banks.foldl (fun s x =>
    match x.2.out.scop with
    | some r =>
      if r.ready.isNone && s.scopReady x.1 r then
        s.updBank x.1 (·.onOut (fun o => { o with scop := some { r with ready := some (wheelTick s.time) } }))
      else s
    | none => s) s

/-- The tick in which a bank's `scop` is performed: that of the first position held after it is ready. -/
def State.scopDue (s : State) (b : Nat) : Option Nat :=
  match (s.bank b).out.scop with
  | some r => r.ready.map (fun t => nextHeld b (s.bank b).place.wheel t)
  | none => none

/-- A write that is applied on every die at once, serialised and stamped as a module release of its die. -/
def State.writeAll (s : State) (t : WriteTag) (pa : Nat) (bytes : List Byte) : State :=
  let n := (s.clock t.die t.die + 1) % 2 ^ 32
  let vc := s.allDies.foldl (fun m e => KV.put m (5 * e + t.die) n) (KV.put s.vc (5 * t.die + t.die) n)
  ({ s with vc := vc, nextOrd := s.nextOrd + 1 } : State).pokeBytes pa bytes

/-- A byte reads as poison: its granule has been declared free (R117), or its window's link is down (R52). -/
def State.poisonAt (s : State) (pa : Nat) : Bool :=
  s.freeGranule pa || (decide (packageEnd ≤ pa ∧ pa < hubBase) && ! s.populated pa)

/-- A bank's `scop` ends, with the value it read. -/
def Bank.endScop (B : Bank) (r : ScopRec) (old : Nat) : Bank :=
  let B := (B.onOut (fun o => { o with scop := none })).moved
  if r.op = 1 then B else B.onRegs (·.land r.dst (BitVec.ofNat 64 old) 0)

/-! ### pfetch, cache (R316, R317) -/

/-- The 64-byte lines of a hint's span, as virtual addresses (R316). -/
def spanLines (va z : Nat) : List Nat :=
  let n := 64 * 4 ^ z
  (List.range ((va + n - 1) / 64 - va / 64 + 1)).map (fun k => (va / 64 + k) * 64)

/-- The address of a hint: as for other words, but every check that fails skips the word. -/
def hintSpan (an : Annot) (a : BitVec 6) (z : BitVec 2) (d : BitVec 10) (b : Nat) (s : State) :
    Option (List Nat) :=
  let (off, _) := fmOffset an.offset z d
  let v := (s.sreg b a.toNat).toNat
  if an.space = 1 ∨ an.space = 2 then none
  else
    let va := addTo v off
    let lines := fun (base : Nat) => spanLines (base + va) z.toNat
    if isSys b then some (lines 0)
    else match (s.bank b).r.binding a.toNat with
      | 0 => if an.space = 3 then none else some (lines 0)
      | k + 1 => match s.openEntry b k with
        | none => none
        | some p => if v = 0 ∨ p.length < va + 64 * 4 ^ z.toNat then none else some (lines p.base)

/-- The places of the lines of a hint's span; none where any of them fails a check. -/
def hintPlaces (b : Nat) (lines : List Nat) (s : State) : Option (List Place) :=
  if isSys b then
    (if (lines.map sysAddr).all s.populated then some (lines.map (fun va => .mem (sysAddr va))) else none)
  else
    let (_, xs) := xlatAll b .read (granulesOf lines) s
    if lines.any (fun va => decide (2 ^ 57 ≤ va)) ||
      xs.any (fun x => match x.2 with
        | .remote _ gi _ _ => decide (KV.get 0 (s.bank b).r.g gi = 0)
        | .fault _ => true
        | .transit => true
        | .phys _ 4 => ! s.parcelOpen (s.bank b).place.vi x.1
        | _ => false) then none
    else some (lines.map (placeOf xs))

/-- A hint: its base is updated as an Fm word's is, and its lines, where no check fails, are acted on. -/
def hintBody (i : Instr) (f : Annot → Nat → Place → State → State) (a : BitVec 6) (z : BitVec 2)
    (d : BitVec 10) (an : Annot) (b : Nat) (s : State) : Res :=
  if fmIllegal an.offset a.toNat none then .trap cIllegal (wordVal i)
  else if isSys b && decide (an.space = 1 ∨ an.space = 2) then .trap cIllegal (wordVal i)
  else
    let (_, upd) := fmOffset an.offset z d
    let t := fmBase b a.toNat (s.sreg b a.toNat) upd s
    match hintSpan an a z d b s with
    | none => .done t
    | some lines =>
      match hintPlaces b lines s with
      | none => .done t
      | some ps => .done (ps.foldl (fun s p => f an b p s) t)

/-- `pfetch` (R316): lines of local pages come into the slice. -/
def execPfetch (a : BitVec 6) (z : BitVec 2) (i : BitVec 10) (s : State) :=
  memStep (.pfetch a z i) false [a.toNat] (hintBody (.pfetch a z i) (fun an b p s =>
    match p with
    | .mem pa => if pa < hubBase then s.touchLines b an.cache [pa] else s
    | _ => s) a z i) s

/-- The line in which a place lies. -/
def Place.key (s : State) (b : Nat) : Place → Option LineKey
  | .mem pa => some { home := none, line := pa / 64 }
  | .rem peer gi off _ =>
    some { home := some ((s.bank b).place.vi, peer, (KV.get 0 (s.bank b).r.g gi).toNat), line := off / 64 }
  | .scr .. => none

/-- `cache.drop` (R317). -/
def execCacheDrop (a : BitVec 6) (z : BitVec 2) (i : BitVec 10) (s : State) :=
  memStep (.cacheDrop a z i) false [a.toNat] (hintBody (.cacheDrop a z i) (fun _ b p s =>
    match Place.key s b p with
    | some k => s.dropLines (fun l => decide (l.cluster = clusterOf b ∧ l.key = k))
    | none => s) a z i) s

/-- `cache.demote` (R317): the lines are the first of their set to be replaced. -/
def execCacheDemote (a : BitVec 6) (z : BitVec 2) (i : BitVec 10) (s : State) :=
  memStep (.cacheDemote a z i) false [a.toNat] (hintBody (.cacheDemote a z i) (fun _ b p s =>
    { s with l2 := s.l2.map (fun l =>
        if decide (l.cluster = clusterOf b) && decide (Place.key s b p = some l.key) then { l with cls := .stream } else l) })
    a z i) s

/-! ### Load data arrives (R125, R194, R306) -/

/-- No earlier control-strand access of the bank to the same bytes is still to be performed (R187). -/
def State.sameBytesDone (s : State) (b : Nat) (a : Access) : Bool :=
  (s.bank b).out.acc.all (fun x => decide (a.id ≤ x.id) || decide (x.scr ≠ a.scr) || x.remote ||
    (a.scr && ! a.own) ||
    ! a.lanes.any (fun l => x.lanes.any (fun m => decide (l < m + x.size ∧ m < l + a.size))))

/-- An `mpush` pushes after an earlier one (R315). -/
def State.mpushTurn (s : State) (b : Nat) (a : Access) : Bool :=
  match a.op with
  | .mpush _ => (s.bank b).out.acc.all (fun x => decide (a.id ≤ x.id) || (match x.op with | .mpush _ => false | _ => true))
  | _ => true

/-- A local access may be performed now. -/
def State.accReady (s : State) (b : Nat) (a : Access) : Bool :=
  let rmw := match a.op with | .amo _ | .cas _ => true | _ => false
  ! a.remote && ! s.queued a.id && s.annotsLet b a &&
    (! hasRelease a.ord || s.earlierCtlAt b a.id a.scope) && s.sameBytesDone b a && s.mpushTurn b a &&
    (a.scr || s.seenLets b a.id (fun p n => a.lanes.any (fun l => decide (l < p + n ∧ p < l + a.size)))) &&
    (! a.own || s.released b a.walk a.id (s.rangesOf b a)) &&
    (! rmw || a.scr || s.writes.all (fun w => decide (w.writer ≠ .ctl b) || decide (a.id ≤ w.id) || w.scr ||
      w.ord.isSome || ! a.lanes.any (fun l => decide (l < w.addr + w.bytes.length ∧ w.addr < l + a.size))))

/-- The bytes that an access reads, all lanes in order. -/
def State.accBytes (s : State) (b : Nat) (a : Access) : List Byte :=
  (a.lanes.map (fun l =>
    if a.scr then s.scr.readN l a.size else s.see (some (.ctl b, a.id)) (dieOf b) l a.size)).flatten

/-- The bytes that an access of a system core reads where some lane lies in hub register space, all lanes in order. -/
def State.hubBytes (s : State) (b : Nat) (a : Access) : State × List Byte :=
  a.lanes.foldl (fun x l =>
    if inHub l then
      let (t, v) := x.1.hubGet (l - hubBase) a.size
      (t, x.2 ++ leBytes a.size v)
    else (x.1, x.2 ++ x.1.see (some (.ctl b, a.id)) (dieOf b) l a.size)) (s, [])

/-- Performs a read-modify-write in memory where its bytes are serialised (R194), answering what it read;
none while that die cannot apply it yet. -/
def State.rmwAt (s : State) (t : WriteTag) (pa size : Nat) (f : Nat → Option Nat) :
    Option (State × Nat) :=
  let home := s.homeDie pa
  let old := ofLeBytes (s.latest pa size)
  let w := { t.make s.nextId pa (leBytes size ((f old).getD 0)) with home := some home }
  if ! s.coherent w home then none
  else match f old with
    | none => some (s, old)
    | some _ =>
      if s.clockLets w home then
        some (({ s with nextId := s.nextId + 1, writes := s.writes ++ [w] } : State).applyAt w home, old)
      else none

/-- An access reaches poison (R117, R52). -/
def State.poisoned (s : State) (a : Access) : Bool := ! a.scr && a.lanes.any (fun l => s.poisonAt l)

/-- What a performed access leaves: its data, and with a release half at scope 4 or 5 that no write of its own
carries, a module release (R190). -/
def State.landedRel (s : State) (b : Nat) (a : Access) (wrote : Bool) (bs : List Byte) : State :=
  let s := s.landed b a bs
  if hasRelease a.ord && decide (4 ≤ a.scope) && ! wrote && ! a.scr then
    s.releaseWrite { s.ctlTag b with walk := a.walk, name := some a.id } a.scope
  else s

/-- Performs a local access. -/
def State.perform (s : State) (b : Nat) (a : Access) : State :=
  if s.poisoned a then s.failAccess b a.id cMachine
  else match a.op with
    | .amo _ | .cas _ =>
      let pa := a.lanes.headD 0
      let vi := (s.bank b).place.vi
      if a.scr then
        let old := ofLeBytes (s.scr.readN pa a.size)
        let t := match rmwNew a old with
          | some n => { s with scr := s.scr.writeN pa (leBytes a.size n) }
          | none => s
        t.landed b a (leBytes a.size old)
      else
        let tag : WriteTag :=
          { s.ctlTag b with
            walk := a.walk
            rel := if hasRelease a.ord then some a.scope else none
            acq := if hasAcquire a.ord then some a.scope else none
            mark := if isSys b then none else some (vi, a.va)
            name := some a.id }
        match s.rmwAt tag pa a.size (rmwNew a) with
        | none => s
        | some (t, old) =>
          let t := if isSys b then t else t.markDirty vi a.va a.size
          (t.noteSeen b a pa).landedRel b a (rmwNew a old).isSome (leBytes a.size old)
    | _ =>
      if isSys b && a.lanes.any inHub then
        let (t, bs) := s.hubBytes b a
        t.landedRel b a false bs
      else s.landedRel b a false (s.accBytes b a)

/-- LOAD_DATA_ARRIVAL (R125): access `input.sub` of bank `input.who` is performed and its data lands; a
remote access starts the requests it still can. An uncorrectable read (`input.check` fails) raises a
deferred MACHINE (R166). -/
def execLoadDataArrival (s : State) : Outcome State Fault Refusal :=
  let b := s.input.who
  .next (match (s.bank b).out.acc.find? (fun a => a.id = s.input.sub) with
    | none => s
    | some a =>
      if a.remote then s.pump b a.id
      else if ! s.accReady b a then s
      else if s.input.check = .fail then s.failAccess b a.id cMachine
      else s.perform b a)

end Sys2Proof.Machine
end

