-- ==== Sys2Proof/Machine/Ingress.lean ====
section
/-! DEFINITION. Grant windows, tokens and the checks of ingress (R46, R48-R50), and the spans of a
receive pool (R180). -/

namespace Sys2Proof.Machine

open Sys2Proof Host

/-! ### Windows and tokens -/

def gwinValid (w : Nat) : Bool := bitAt w 127 && decide (12 ≤ bitsOf w 114 109 ∧ bitsOf w 114 109 ≤ 36)
def gwinRights (w : Nat) : Nat := bitsOf w 126 123
def gwinTenant (w : Nat) : Nat := bitsOf w 122 115
def gwinSize (w : Nat) : Nat := 2 ^ bitsOf w 114 109
def gwinBase (w : Nat) : Nat := bitsOf w 108 64 * 4096

/-- The 16-byte message that a token's code authenticates (R48). -/
def tokenMessage (top reqModule reqTenant tinc target : Nat) : List Byte :=
  leBytes 4 top ++ leBytes 2 reqModule ++ leBytes 1 reqTenant ++ [0] ++ leBytes 2 tinc ++ leBytes 2 target ++
    leBytes 4 0

/-- The 36-bit code of a token (R48). -/
def State.tokenCode (s : State) (top reqModule reqTenant : Nat) : Nat :=
  ofLeBytes ((Config.cmac s.boot.ingressKey
    (tokenMessage top reqModule reqTenant s.boot.incarnation s.boot.moduleNo)).take 5) % 2 ^ 36

/-- The first check of R49 that a request fails, from 1 to 5, or 0: `right` is the number of its right (0
read, 1 write, 2 atomic, 3 parcel delivery). -/
def State.grantCheck (s : State) (token source tenant right addr size : Nat) : Nat :=
  let w := s.hubReg (offGWIN (bitsOf token 63 52))
  if ! gwinValid w then 1
  else if s.tokenCode (bitsOf token 63 36) source tenant ≠ bitsOf token 35 0 then 2
  else if 2048 ≤ (bitsOf token 47 36 + 4096 - bitsOf (s.hubReg offGEPOCH) 11 0) % 4096 then 3
  else if ! (bitAt token (48 + right) && bitAt (gwinRights w) right) then 4
  else if gwinSize w < addr + size then 5
  else 0

/-- The reserved bytes of a request (R298). -/
def Packet.reservedZero (p : Packet) : Bool :=
  decide (leAt p.body 4 4 = 0 ∧ leAt p.body 24 8 = 0)

/-- Ingress keeps a request (R46, R298). -/
def State.requestOk (s : State) (p : Packet) : Bool :=
  decide (p.tinc = s.boot.incarnation) && decide (p.sinc = s.peerInc p.source) && p.headerZero && p.reservedZero

/-- The response to a request: back to its slot, with a status and data (R154, R298). -/
def State.reply (s : State) (op : Nat) (p : Packet) (status : Nat) (data : List Byte) : State :=
  (s.send { dest := p.source, source := s.boot.moduleNo, inter := 0x3FF, op := op, tenant := p.tenant,
            sinc := s.boot.incarnation, tinc := p.sinc, core := p.core, slot := p.slot, rsv := 0, addr := status,
            token := 0, body := data }).getD s

/-! ### Spans of a receive pool (R180) -/

def poolValid (r : Nat) : Bool := bitAt r 63
def poolWindow (r : Nat) : Nat := bitsOf r 62 51
def poolMap (r : Nat) : Nat := bitsOf r 50 20 * 2 ^ 21

/-- Bit `i` of a bitmap. -/
def State.mapBit (s : State) (base i : Nat) : Bool :=
  ((s.seeByte none 4 (base + i / 8)).toNat / 2 ^ (i % 8)) % 2 = 1

/-- The lowest run of `need` clear bits: `n` bits are left, the next is `i`, and the last `run` were
clear. -/
def State.findSpan (s : State) (base need : Nat) : Nat → Nat → Nat → Option Nat
  | 0, _, _ => none
  | n + 1, i, run =>
    if s.mapBit base i then s.findSpan base need n (i + 1) 0
    else if run + 1 = need then some (i + 1 - need)
    else s.findSpan base need n (i + 1) (run + 1)

/-- Sets or clears a bit of a bitmap. -/
def State.putMapBit (s : State) (base i : Nat) (x : Bool) : State :=
  let a := base + i / 8
  let old := (s.seeByte none 4 a).toNat
  let off := old - old / 2 ^ (i % 8) % 2 * 2 ^ (i % 8)
  s.pokeBytes a [BitVec.ofNat 8 (if x then off + 2 ^ (i % 8) else off)]

/-- Sets or clears the bits of a span. -/
def State.putSpan (s : State) (base first count : Nat) (x : Bool) : State :=
  (List.range count).foldl (fun s k => s.putMapBit base (first + k) x) s

/-- The span that a pool has for a length, for a token's window (R177, R180); `w` is the window as the checks of
ingress found it (R50). -/
def State.poolSpan (s : State) (die tenant window w length : Nat) : Option (Nat × Nat) :=
  let r := s.hubReg (offPRPOOL die tenant)
  if poolValid r && decide (poolWindow r = window) && gwinValid w && bitAt (gwinRights w) 3 &&
      decide (gwinTenant w = tenant) then
    (s.findSpan (poolMap r) (length / 4096) (gwinSize w / 4096) 0 0).map (fun i => (r, i))
  else none

/-- Releases the span of a parcel. -/
def State.releaseSpan (s : State) (p : Parcel) : State :=
  match p.span with
  | some (r, first) => s.putSpan (poolMap r) first (p.length / 4096) false
  | none => s

/-- Replaces an entry of the parcel table. -/
def State.putParcel (s : State) (p : Parcel) : State :=
  { s with parcels := { s.parcels with table := s.parcels.table.map (fun q => if q.id = p.id then p else q) } }

/-- Removes an entry of the parcel table. -/
def State.dropParcel (s : State) (id : Nat) : State :=
  { s with parcels := { s.parcels with table := s.parcels.table.filter (fun q => q.id ≠ id) } }

/-- Adds an entry to the parcel table, under a fresh name. -/
def State.addParcel (s : State) (p : Parcel) : State :=
  { s with nextId := s.nextId + 1,
           parcels := { s.parcels with table := s.parcels.table ++ [{ p with id := s.nextId }] } }

end Sys2Proof.Machine
end

