-- ==== Sys2Proof/Machine/Services.lean ====
section
/-! DEFINITION. Services (chapter 06): places, tries, hold lists and counters (R82-R99), and the events by
which an instance decides. -/

namespace Sys2Proof.Machine

open Sys2Proof Host

/-! ### The table of R82 -/

/-- Places of a kind. -/
def svcPlaces (kind : Nat) : Nat :=
  match kind with
  | 1 => 3
  | 2 => 6
  | 3 => 4
  | 4 => 8
  | 5 => 16
  | 6 => 2048
  | 7 => 16
  | _ => 0

/-- Reserve of a kind. -/
def svcReserve (kind : Nat) : Nat :=
  match kind with
  | 1 => 1
  | 2 => 2
  | 3 => 1
  | 4 => 2
  | 5 => 4
  | _ => 0

def instBellows : Nat := 6 * 4096
def instChanter : Nat := 7 * 4096
def instPRU (die : Nat) : Nat := 5 * 4096 + die

/-- The request timeout in microseconds (R47). -/
def State.timeoutUs (s : State) : Nat := Nat.max 1 (bitsOf (s.hubReg offFTMO) 19 0)

/-- A job has run for its E (R82, R83). -/
def State.jobOverdue (s : State) (key : Nat) (j : Job) : Bool :=
  let us := fun (n : Nat) => decide (n * 1000000 ≤ s.time - j.since)
  let ac := fun (n : Nat) => decide (n ≤ s.acOf (key % 64) - j.sinceAc)
  match entryKind key with
  | 1 => ac 4096
  | 2 => ac 12288
  | 3 => us 86
  | 4 => us (s.timeoutUs + 16)
  | 5 => us (50 + 10 * ((j.va + 2 ^ 20 - 1) / 2 ^ 20))
  | 6 => us 4000
  | _ => us 20

/-! ### Who asks -/

/-- Two askers are one requester; a peer's are told apart by module and requester number. -/
def Asker.same : Asker → Asker → Bool
  | .bank b, .bank c => decide (b = c)
  | .window v w, .window v' w' => decide (v = v' ∧ w = w')
  | .peer m c _, .peer m' c' _ => decide (m = m' ∧ c = c')
  | _, _ => false

/-- A requester number (R89). -/
def State.reqNumber (s : State) : Asker → Nat
  | .bank b => s.boot.moduleNo * 1024 + b
  | .window _ _ => 0
  | .peer m n _ => m * 1024 + n

/-- The bank of this module that asks, if one does. -/
def State.askerBank (s : State) : Asker → Option Nat
  | .bank b => some b
  | .window _ _ => none
  | .peer m n _ => if m = s.boot.moduleNo then some n else none

/-- Replaces the 4-bit field of a register at bit `lo`. -/
def putNibble (w : Word) (lo v : Nat) : Word := BitVec.ofNat 64 (putBits w.toNat (lo + 3) lo v)

/-- The count of consecutive refusals of a bank (R91): 0-7 a route list, 8 `launch`, 9 `pwr.acq`. -/
def Bank.refusals (B : Bank) (list : Nat) : Nat :=
  if list < 8 then bitsOf (B.csrGet (csrRL0 + list)).toNat 63 60
  else if list = 8 then bitsOf (B.csrGet csrADMST).toNat 7 4
  else bitsOf (B.csrGet csrADMST).toNat 3 0

/-- Sets a count of consecutive refusals of a bank. -/
def Bank.setRefusals (B : Bank) (list n : Nat) : Bank :=
  let put := fun (r lo : Nat) => B.csrUpdate r (putNibble 0 lo 15) (putNibble 0 lo n)
  if list < 8 then put (csrRL0 + list) 60 else if list = 8 then put csrADMST 4 else put csrADMST 0

/-- The count of consecutive refusals of a requester; a peer keeps its own. -/
def State.refusals (s : State) (a : Asker) (list : Nat) : Nat :=
  match a, s.askerBank a with
  | .window v w, _ => KV.get 0 (s.ifc v).refusals w
  | _, some b => (s.bank b).refusals list
  | _, none => 0

/-- Sets the count of consecutive refusals of a requester. -/
def State.setRefusals (s : State) (a : Asker) (list n : Nat) : State :=
  match a, s.askerBank a with
  | .window v w, _ => s.updIfc v (fun x => { x with refusals := KV.put x.refusals w n })
  | _, some b => s.updBank b (·.setRefusals list n)
  | _, none => s

/-! ### Places -/

/-- Places occupied. -/
def Inst.used (x : Inst) : Nat := ((x.jobs.filter (·.occupies)).map (·.k)).foldl (· + ·) 0

/-- Places held. -/
def Inst.held (x : Inst) : Nat := (x.holds.map (·.held)).foldl (· + ·) 0

/-- Places that are free, those freed in the present decision cycle left out (R84). -/
def Inst.freePlaces (x : Inst) (kind : Nat) : Nat := svcPlaces kind - x.used - x.held - x.freed

/-- Places that a tenant uses (R88). -/
def Inst.usedBy (x : Inst) (m : Nat) : Nat :=
  ((x.jobs.filter (fun j => j.occupies && decide (j.tenant = m))).map (·.k)).foldl (· + ·) 0 +
    ((x.holds.filter (fun h => decide (h.tenant = m))).map (·.held)).foldl (· + ·) 0

/-- The holder that is a requester's. -/
def Inst.holder (x : Inst) (a : Asker) : Option Holder := x.holds.find? (fun h => h.asker.same a)

/-- Places offered to a requester. -/
def Inst.offered (x : Inst) (a : Asker) : Nat :=
  match x.holder a with
  | some h => if h.offered then h.held else 0
  | none => 0

/-- Removes a requester's entry; the places held for it are freed. -/
def Inst.unrecord (x : Inst) (a : Asker) : Inst :=
  match x.holder a with
  | some h => { x with holds := x.holds.filter (fun g => ! g.asker.same a), freed := x.freed + h.held }
  | none => x

/-- A job leaves its place: a collective member that shares it keeps it (R271), else it is freed. -/
def Inst.vacate (x : Inst) (n : Nat) : Inst :=
  match x.jobs.find? (fun j => decide (j.number = n) && j.occupies) with
  | none => x
  | some j =>
    match x.jobs.find? (fun i => decide (i.share = some n)) with
    | some heir =>
      { x with jobs := x.jobs.map (fun i =>
          if i.number = n then { i with occupies := false }
          else if i.number = heir.number then { i with occupies := true, share := none }
          else if i.share = some n then { i with share := some heir.number } else i) }
    | none =>
      { x with freed := x.freed + j.k
               jobs := x.jobs.map (fun i => if i.number = n then { i with occupies := false } else i) }

/-- A job is gone. -/
def Inst.dropJob (x : Inst) (n : Nat) : Inst :=
  let x := x.vacate n
  { x with jobs := x.jobs.filter (fun j => j.number ≠ n) }

/-- Replaces a job. -/
def Inst.putJob (x : Inst) (j : Job) : Inst :=
  { x with jobs := x.jobs.map (fun i => if i.number = j.number then j else i) }

/-- The quota of a tenant: min and max (R96). -/
def State.quota (s : State) (kind tenant : Nat) : Nat × Nat :=
  let r := s.hubReg (offADMQ kind tenant)
  (bitsOf r 27 16, bitsOf r 11 0)

/-- The quota of a tenant that is in force at an instance: one written in the present decision cycle is not yet (R90). -/
def State.quotaAt (s : State) (x : Inst) (kind tenant : Nat) : Nat × Nat :=
  match x.quotas.find? (fun q => q.1 = tenant) with
  | some (_, r) => (bitsOf r 27 16, bitsOf r 11 0)
  | none => s.quota kind tenant

/-- The instances of a kind that the module can have (R82, R85). -/
def instsOf (kind : Nat) : List Nat :=
  (List.range (match kind with | 1 => 64 | 2 => 64 | 3 => 4 | 4 => 8 | 5 => 4 | 6 => 1 | _ => 1)).map (kind * 4096 + ·)

/-- An instance keeps a tenant's quota as it stands for the rest of its decision cycle. -/
def State.holdQuota (s : State) (kind tenant key : Nat) : State :=
  let x := s.inst key
  if x.quotas.any (fun q => q.1 = tenant) then s
  else s.setInst key { x with quotas := KV.put x.quotas tenant (s.hubReg (offADMQ kind tenant)) }

/-- A live bank lies within an instance's reach (R88). -/
def inReach (key b : Nat) : Bool :=
  match entryKind key with
  | 1 => decide (clusterOf b = key % 64)
  | 2 => decide (clusterOf b = key % 64)
  | 6 => true
  | 7 => true
  | _ => decide (dieOf b = instDie key)

/-- The tenants active at an instance, each once (R88). -/
def State.activeAt (s : State) (key : Nat) : List Nat :=
  s.banks.foldl (fun vs x =>
    if (decide (x.2.status = .live) || decide (x.2.status = .stopped)) && ! isSys x.1 && inReach key x.1 &&
        ! vs.contains x.2.place.vi then vs ++ [x.2.place.vi] else vs) []

/-- The decision of R88, once no offered place serves the try. -/
def State.admits (s : State) (key : Nat) (x : Inst) (tenant k pos : Nat) : Bool :=
  let kind := entryKind key
  let (_, qmax) := s.quotaAt x kind tenant
  if qmax ≠ 0 ∧ qmax < x.usedBy tenant + k then false
  else
    let prot := (((s.activeAt key).filter (· ≠ tenant)).map (fun m =>
      (s.quotaAt x kind m).1 - x.usedBy m)).foldl (· + ·) 0
    let need := if pos = 0 then k else k + svcReserve kind
    decide (need + prot ≤ x.freePlaces kind)

/-! ### Offers (R92, R93) -/

/-- ac of a requester's cluster, in which its hold window is counted. -/
def State.holderAc (s : State) (a : Asker) : Nat :=
  match s.askerBank a with
  | some b => s.acOf (clusterOf b)
  | none => 0

/-- Holds one more place for the oldest holder that lacks one. -/
def State.giveOne (s : State) : List Holder → Option (List Holder)
  | [] => none
  | h :: rest =>
    if h.held < h.k then
      let full := decide (h.held + 1 = h.k)
      some ({ h with held := h.held + 1, offered := full,
                     since := if full then s.time else h.since,
                     sinceAc := if full then s.holderAc h.asker else h.sinceAc } :: rest)
    else (s.giveOne rest).map (h :: ·)

/-- Gives free places to holders while there are both; the fuel is the number of places. -/
def State.giveAll (s : State) (kind : Nat) : Nat → Inst → Inst
  | 0, x => x
  | n + 1, x =>
    if 0 < x.freePlaces kind then
      match s.giveOne x.holds with
      | some hs => s.giveAll kind n { x with holds := hs }
      | none => x
    else x

/-- The decision cycle of an instance begins, unless it has: what earlier ones freed counts as free, and free places
go to holders (R84, R89 step 1). -/
def State.beginCycle (s : State) (key : Nat) : State :=
  let x := s.inst key
  let kind := entryKind key
  if x.begun then s else s.setInst key { s.giveAll kind (svcPlaces kind) x with begun := true }

/-- OFFER_STEP (R93): at the instance `input.who`. -/
def execOfferStep (s : State) : Outcome State Fault Refusal := .next (s.beginCycle s.input.who)

/-- HOLD ac of a bank's windows (R92). -/
def Bank.holdAc (B : Bank) : Nat :=
  let h := bitsOf (B.csrGet csrHOLD).toNat 12 0
  if h < 256 then 256 else if 4096 < h then 4096 else h

/-- 256 ac at 750 MHz, in ps: no hold window is shorter (R92, R107). -/
def leastHold : Nat := 341333

/-- 4,096 ac at 300 MHz, in ps: no hold window is longer (R92, R107). -/
def mostHold : Nat := 13653334

/-- A hold window has ended (R92). HOLD of another module's task is not known here: its window has ended when that module
says so, `told`, between the least and the most that R92 allows (log entry 40). -/
def State.windowEnded (s : State) (told : Bool) (h : Holder) : Bool :=
  h.offered && (match h.asker, s.askerBank h.asker with
    | .window .., _ => decide (6830000 ≤ s.time - h.since)
    | _, some b => decide ((s.bank b).holdAc ≤ s.acOf (clusterOf b) - h.sinceAc)
    | _, none => (told && decide (leastHold ≤ s.time - h.since)) || decide (mostHold ≤ s.time - h.since))

/-- An offer lapses (R92): the entry goes, its places are freed, and the count is cleared. -/
def State.lapse (s : State) (key : Nat) (h : Holder) : State :=
  (s.setInst key (((s.inst key).unrecord h.asker).bump h.tenant 5)).setRefusals h.asker h.list 0

/-- HOLD_WINDOW_EXPIRY (R92): every hold window at the instance `input.who` that has ended; with `input.ok` that of the
requester of number `input.sub`, of another module, among them. -/
def execHoldWindowExpiry (s : State) : Outcome State Fault Refusal :=
  let key := s.input.who
  let told := fun (h : Holder) => s.input.ok && decide (s.reqNumber h.asker = s.input.sub)
  .next (((s.inst key).holds.filter (fun h => s.windowEnded (told h) h)).foldl (fun s h => s.lapse key h) s)

/-! ### Requests as a whole (R87, R91) -/

/-- A request is refused at every entry (R91): its count rises, and where that reaches ESC the requester is
recorded at its first choice, if it reached an instance there. -/
def State.requestRefused (s : State) (a : Asker) (list esc : Nat) (first : Option Nat) (tenant k : Nat) :
    State :=
  let n := Nat.min 15 (s.refusals a list + 1)
  let s := s.setRefusals a list n
  match first with
  | none => s
  | some key =>
    let x := s.inst key
    if n < Nat.max 1 esc ∨ 32 ≤ x.holds.length ∨ (x.holder a).isSome = true then s
    else s.setInst key (({ x with holds := x.holds ++
      [{ asker := a, tenant := tenant, k := k, held := 0, offered := false, list := list, since := 0,
         sinceAc := 0 }] } : Inst).bump tenant 4)

/-- A request is admitted: its count is cleared, and its entry at its first choice is removed (R91, R92). -/
def State.requestAdmitted (s : State) (a : Asker) (list first : Nat) : State :=
  let s := s.setRefusals a list 0
  s.setInst first ((s.inst first).unrecord a)

/-- Sets the decision that a bank's word waits for. -/
def State.decide_ (s : State) (b : Nat) (d : Decision) : State :=
  s.updBank b (fun B => (B.onOut (fun o => { o with dec := d })).moved)

/-- A job handle (R272). -/
def jobHandle (number : Nat) (held : Bool) (pos entry : Nat) : Nat :=
  number * 2 ^ 32 + (if held then 2 ^ 17 else 0) + pos * 2 ^ 15 + entry

/-- Places needed for a level under a cap of `fmax` MHz (R111). -/
def levelUnits (level fmax : Nat) : Nat := (level * fmax + 599) / 600

/-- PCLUS.fmax of a cluster in MHz; step codes above 18 act as 18 (R107). -/
def State.fmaxOf (s : State) (cl : Nat) : Nat :=
  300 + 25 * Nat.min 18 (bitsOf (s.hubReg (offPCLUS cl)) 24 20)

/-- The places that a try asks for as it is decided: a region's level stands in `va` (R111). -/
def State.tryPlaces (s : State) (key : Nat) (t : Try) : Nat :=
  match entryKind key, t.asker with
  | 6, .bank b => levelUnits t.va (s.fmaxOf (clusterOf b))
  | _, _ => t.k

/-- Sets the level and units that PWRST shows; `exp` where a region has ended at E. -/
def Bank.setRegion (B : Bank) (level units : Nat) (exp : Bool) : Bank :=
  let v := BitVec.ofNat 64 (putBits (putBits 0 15 8 units) 2 0 level)
  B.csrUpdate csrPWRST (if exp then 0xFF87 else 0xFF07) (if exp then v ||| 0x80 else v)

/-- The new job of a try. -/
def State.jobOf (s : State) (key : Nat) (x : Inst) (t : Try) (k : Nat) : Job :=
  { number := x.next, asker := t.asker, tenant := t.tenant, k := k, occupies := true, share := none,
    since := s.time, sinceAc := s.acOf (key % 64), id := t.id, walk := t.walk, desc := t.desc, va := t.va,
    done := 0, ending := 0, stage := 0, ids := [], flags := 0, fault := none, denied := false, work := JobWork.none,
    fmax := (match t.asker with | .bank b => s.fmaxOf (clusterOf b) | _ => 0), level := t.va }

/-- An instance with a new job. -/
def Inst.addJob (x : Inst) (j : Job) : Inst :=
  { x with jobs := x.jobs ++ [j], next := (x.next + 1) % 2 ^ 16 }

/-- Ends the region that a bank holds (R111). -/
def State.endRegion (s : State) (b : Nat) (exp : Bool) : State :=
  let x := s.inst instBellows
  match x.jobs.find? (fun j => j.asker.same (.bank b)) with
  | none => s
  | some j => (s.setInst instBellows (x.dropJob j.number)).updBank b (·.setRegion 0 0 exp)

/-! ### Parcel receive units (R177, R98) -/

/-- What a PTRY asks: the packet of a try at a parcel receive unit, as it stands in the try. -/
def tryHandle (t : Try) : Nat := ofLeBytes (t.desc.take 8)
def tryToken (t : Try) : Nat := ofLeBytes ((t.desc.drop 8).take 8)

/-- Entries of the parcel table (R168). -/
def parcelMost : Nat := 16384

/-- The unit's own conditions on a try: room in the parcel table (R168), prulmax (R98), the check that failed, and a span (R180). A try
whose token failed a later check than 2 asks for no span (its `id` holds 1). -/
def State.pruSpan (s : State) (key : Nat) (t : Try) : Option (Nat × Nat) :=
  let cap := bitsOf (s.hubReg offADMCFG) 15 0
  let cap := (if cap = 0 then 65536 else cap) * 2 ^ 20
  if t.id = 1 ∨ cap < t.va ∨ parcelMost ≤ s.parcels.table.length then none
  else s.poolSpan (instDie key) t.tenant (bitsOf (tryToken t) 63 52) t.gwin t.va

/-- An admitted delivery (R177): the span is reserved, and an entry stands in ARRIVED-pending. -/
def State.admitDelivery (s : State) (key number : Nat) (t : Try) (sp : Nat × Nat) : State :=
  let die := instDie key
  let (r, first) := sp
  let s := s.putSpan (poolMap r) first (t.va / 4096) true
  let entry := s.nextId
  let s := s.addParcel { id := 0, handle := tryHandle t, tenant := t.tenant,
                         base := gwinBase t.gwin + first * 4096, length := t.va, state := .pending, die := die,
                         order := 0, since := 0, peer := s.boot.moduleNo, span := some sp }
  let peer := match t.asker with | .peer m _ _ => m | _ => s.boot.moduleNo
  { s with parcels := { s.parcels with deliveries := s.parcels.deliveries ++
      [{ entry := entry, handle := tryHandle t, sender := none, peer := peer, inc := s.peerInc peer,
         token := tryToken t, die := die, off := first * 4096, length := t.va, done := 0, vi := t.ptry.tenant, core := t.ptry.core,
         read := none, queue := [], at_ := s.time, job := number, waiting := false, held := [] }] } }

/-- The data of the answer to a PTRY (log entry 41): bit 0 admitted, bit 1 in a held place, from bit 12 the
span's first granule. -/
def tryAnswer (admitted held : Bool) (first : Nat) : List Byte :=
  leBytes 8 ((if admitted then 1 else 0) + (if held then 2 else 0) + first * 4096)

/-- Answers a peer's PTRY (R40). -/
def State.answerTry (s : State) (t : Try) (data : List Byte) : State :=
  match t.asker with
  | .peer .. => s.reply 0x81 t.ptry 0 data
  | _ => s

/-! ### The decision of one try (R88, R89) -/

/-- The step of R89 in which a try is decided. -/
def Inst.tryStep (x : Inst) (t : Try) : Nat :=
  if 0 < x.offered t.asker then 0 else if t.pos = 0 then 1 else 2

/-- The interface of a launch's requester, and its place within the interface (R67). -/
def Try.launchRank (t : Try) : Nat :=
  match t.asker with
  | .window _ w => w
  | .bank b => 65536 + b
  | .peer .. => 2 ^ 20

/-- `t` is decided before `u` within one step: by R67 at the Chanter, else by the rotating pointer. -/
def State.tryFirst (s : State) (key : Nat) (x : Inst) (t u : Try) : Bool :=
  if key = instChanter then
    let prio := fun (v : Try) => leAt v.desc 24 1
    let vi := fun (v : Try) => (v.tenant + 256 - s.chanter.pointer) % 256
    if prio t ≠ prio u then prio u < prio t
    else if vi t ≠ vi u then vi t < vi u
    else t.launchRank < u.launchRank
  else
    let n := fun (v : Try) => (s.reqNumber v.asker + 2 ^ 20 - x.pointer) % 2 ^ 20
    n t < n u

/-- The tries that may be decided: those that arrived in an earlier decision cycle, at the Chanter in an earlier ac of
600 MHz, two of its cycles (R67); and of the launches of one window
the first, after the decision of the one before (R54). -/
def State.openTries (s : State) (key : Nat) (x : Inst) : List Try :=
  let per := if key = instChanter then 2 else 1
  (x.tries.zipIdx.filter (fun t => decide (t.1.cycle / per < x.cycle / per) && (x.tries.take t.2).all (fun u => ! u.asker.same t.1.asker) &&
    s.chanter.queue.all (fun l => ! l.asker.same t.1.asker))).map (·.1)

/-- The try that an instance decides next (R89). -/
def State.nextTry (s : State) (key : Nat) (x : Inst) : Option Try :=
  match s.openTries key x with
  | [] => none
  | t :: rest => some (rest.foldl (fun best u =>
      let a := x.tryStep u
      let b := x.tryStep best
      if a < b then u else if b < a then best else if s.tryFirst key x u best then u else best) t)

/-- A try is refused at its entry. -/
def State.tryRefused (s : State) (key : Nat) (t : Try) : State :=
  let x := s.inst key
  let s := s.setInst key (x.bump t.tenant (if t.pos = 0 then 1 else 3))
  match t.asker with
  | .bank b => s.decide_ b (.declined t.pos)
  | .window v w =>
    let s := s.requestRefused t.asker t.list 4 (some t.first) t.tenant t.k
    s.complete v 2 w 7 t.id 0 (leAt t.desc 36 8)
  | .peer .. =>
    let x := s.inst key
    let s := if t.pos = 0 ∧ s.askerBank t.asker = none then
        s.setInst key { x with declined := t :: x.declined.filter (fun u => ! u.asker.same t.asker) }
      else s
    s.answerTry t (tryAnswer false false 0)

/-- A launch waits for its decision in its place (R386); one by a task has no launch write (R56). -/
def State.queueLaunch (s : State) (t : Try) (number : Nat) : State :=
  let (v, w) := match t.asker with | .window v w => (v, w) | _ => (t.tenant, 0xFF)
  { s with chanter := { s.chanter with queue := s.chanter.queue ++
      [{ asker := t.asker, vi := v, window := w, seq := if w = 0xFF then 0xFFFFFFFF else t.id, record := t.desc, job := number,
         ac := t.cycle / 2 }] } }

/-- A launch that takes the places held for its requester clears the requester's count (R92); its decision goes on. -/
def State.heldCount (s : State) (t : Try) (held : Bool) : State :=
  if held then s.setRefusals t.asker t.list 0 else s

/-- A try is admitted with `k` places; `held` says that they were held for it. -/
def State.tryAdmitted (s : State) (key : Nat) (x : Inst) (t : Try) (k : Nat) (held : Bool)
    (sp : Nat × Nat) : State :=
  let x := { x with pointer := (s.reqNumber t.asker + 1) % 2 ^ 20 }.bump t.tenant (if t.pos = 0 then 0 else 2)
  let j := s.jobOf key x t k
  let region : Option Job := if entryKind key = 6 then x.jobs.find? (fun i => i.asker.same t.asker) else none
  let x := match region with | some i => x.dropJob i.number | none => x
  let s := (s.setInst key (x.addJob j))
  match t.asker with
  | .peer .. =>
    let s := s.admitDelivery key j.number t sp
    (s.setInst key ((s.inst key).unrecord t.asker)).answerTry t (tryAnswer true held sp.2)
  | .window .. => (s.heldCount t held).queueLaunch t j.number
  | .bank b =>
    match entryKind key with
    | 6 =>
      ((s.requestAdmitted t.asker 9 key).updBank b (·.setRegion t.va k false)).decide_ b (.admitted 0)
    | 7 => (s.heldCount t held).queueLaunch t j.number
    | _ =>
      let entry := bitsOf ((s.bank b).csrGet (csrRL0 + t.list)).toNat (15 * t.pos + 14) (15 * t.pos)
      (s.requestAdmitted t.asker t.list t.first).decide_ b
        (.admitted (BitVec.ofNat 64 (jobHandle j.number held t.pos entry)))

/-- The collective that a try's key names at an instance (R271 step 4). -/
def Inst.collective (x : Inst) (t : Try) : Option Job :=
  x.jobs.find? (fun j => j.occupies && decide (leAt j.desc 40 4 = leAt t.desc 40 4))

/-- A member joins a collective in its place, which is no held one; places held for it are freed (R271). One whose members, count, op or parm differ ends with
MISMATCH (R275). -/
def State.joinCollective (s : State) (key : Nat) (x : Inst) (t : Try) (lead : Job) (b : Nat) : State :=
  let same := decide (leAt lead.desc 44 2 = leAt t.desc 44 2 ∧ leAt lead.desc 4 4 = leAt t.desc 4 4 ∧
    leAt lead.desc 0 1 = leAt t.desc 0 1 ∧ leAt lead.desc 2 1 = leAt t.desc 2 1)
  let x := { x with pointer := (s.reqNumber t.asker + 1) % 2 ^ 20 }.bump t.tenant (if t.pos = 0 then 0 else 2)
  let x := x.unrecord t.asker
  let j := { s.jobOf key x t 1 with occupies := false, share := some lead.number,
                                    ending := if same then 0 else 7 }
  let j := if same then j else { j with share := none }
  let entry := bitsOf ((s.bank b).csrGet (csrRL0 + t.list)).toNat (15 * t.pos + 14) (15 * t.pos)
  ((s.setInst key (x.addJob j)).requestAdmitted t.asker t.list t.first).decide_ b
    (.admitted (BitVec.ofNat 64 (jobHandle j.number false t.pos entry)))

/-- Decides a try (R88). An offered requester that asks for more places than it is offered frees them and is decided like
any other; DESIGN CHOICE (log entry 116): it keeps its entry, waiting at its old place with its old k, since R92 has no
row for this. -/
def State.decideTry (s : State) (key : Nat) (t : Try) : State :=
  let x := s.inst key
  let k := s.tryPlaces key t
  let joined := if entryKind key = 3 then x.collective t else none
  match joined, t.asker with
  | some lead, .bank b => s.joinCollective key x t lead b
  | _, _ =>
    let off := x.offered t.asker
    let span := if entryKind key = 5 then s.pruSpan key t else some (0, 0)
    if 0 < off ∧ k ≤ off then
      match span with
      | some sp => s.tryAdmitted key
          { x.unrecord t.asker with freed := x.freed + (off - k) } t k true sp
      | none => s.tryRefused key t
    else
      let x := if 0 < off then
          { x with freed := x.freed + off
                   holds := x.holds.map (fun h => if h.asker.same t.asker then
                     { h with held := 0, offered := false } else h) }
        else x
      let s := s.setInst key x
      match span with
      | some sp => if s.admits key x t.tenant k t.pos then s.tryAdmitted key x t k false sp
                   else s.tryRefused key t
      | none => s.tryRefused key t

/-- A request of another module's requester whose first choice is a parcel receive unit here has been refused as a
whole, and its count calls for the recording (R91): the unit learns it by a way that the spec does not give (log
entry 40). -/
def State.recordPeer (s : State) (key n : Nat) : State :=
  let x := s.inst key
  match x.declined.find? (fun t => decide (s.reqNumber t.asker = n)) with
  | none => s
  | some t => (s.setInst key { x with declined := x.declined.erase t }).requestRefused t.asker 0 0 (some key) t.tenant t.k

/-- Another module's requester has no use for its entry any more (R92, R277): the same. -/
def State.forgetPeer (s : State) (key n : Nat) : State :=
  let x := s.inst key
  match x.holds.find? (fun h => (s.askerBank h.asker).isNone && decide (s.reqNumber h.asker = n)) with
  | none => s
  | some h => s.setInst key (x.unrecord h.asker)

/-- SERVICE_TRY (R88, R89): the instance `input.who` decides the try that is first in the order of R89. With
`input.size` 1 and 2 the environment brings what another module's requester, of number `input.sub`, has come to: its
request is refused as a whole, or its entry has no use any more. -/
def execServiceTry (s : State) : Outcome State Fault Refusal :=
  let key := s.input.who
  .next (
    if s.input.size = 1 then s.recordPeer key s.input.sub
    else if s.input.size = 2 then s.forgetPeer key s.input.sub
    else
      let s := s.beginCycle key
      let x := s.inst key
      match s.nextTry key x with
      | none => s
      | some t => (s.setInst key { x with tries := x.tries.erase t }).decideTry key t)

/-- Puts a try before an instance. -/
def State.addTry (s : State) (key : Nat) (t : Try) : State :=
  let x := s.inst key
  s.setInst key { x with tries := x.tries ++ [{ t with cycle := x.cycle }] }

/-! ### A requester is gone (R92, R99) -/

/-- Removes a bank's tries and hold-list entries everywhere. -/
def State.dropRequester (s : State) (b : Nat) : State :=
  let own := Asker.peer s.boot.moduleNo b 0
  { s with svc := { s.svc with inst := s.svc.inst.map (fun kx =>
      let x := s.inst kx.1
      (kx.1, ((({ x with tries := x.tries.filter (fun t => ! t.asker.same (.bank b)) } : Inst).unrecord
        (.bank b)).unrecord own))) } }

/-- A bank's task has a job that has not ended (R276, R99). -/
def State.hasJob (s : State) (b : Nat) : Bool :=
  s.svc.inst.any (fun kx => decide (1 ≤ entryKind kx.1 ∧ entryKind kx.1 ≤ 4) &&
    kx.2.jobs.any (fun j => j.asker.same (.bank b)))

/-! ### Quotas (R96) -/

/-- ADMQ_WRITE (R96, R90): register `input.who` of ADMQ takes `input.value`, or keeps its value and sets
ADMCFG.qrej. -/
def execAdmqWrite (s : State) : Outcome State Fault Refusal :=
  let i := s.input.who
  let kind := i / 256 + 1
  let tenant := i % 256
  let v := s.input.value.toNat &&& 0x0FFF0FFF
  let mn := bitsOf v 27 16
  let mx := bitsOf v 11 0
  let sum := ((List.range 256).map (fun n => if n = tenant then mn else (s.quota kind n).1)).foldl (· + ·) 0
  let p := svcPlaces kind
  .next (if p - svcReserve kind < sum ∨ p < mn ∨ p < mx ∨ (mx ≠ 0 ∧ mx < mn) then
      s.setHub offADMCFG (s.hubReg offADMCFG ||| 2 ^ 31)
    else ((instsOf kind).foldl (fun s key => s.holdQuota kind tenant key) s).setHub (offADMQ kind tenant) v)

end Sys2Proof.Machine
end

