-- ==== Sys2Proof/Machine/Yield.lean ====
section
/-! DEFINITION. Yield points (R73, R74, R280) and header words (R136). -/

namespace Sys2Proof.Machine

open Sys2Proof Host

/-! ### Yield points (R73, R74) -/

/-- The group of a bank is pending checkpoint. -/
def State.checkpointPending (s : State) (b : Nat) : Bool :=
  (s.chanter.groups.any (fun g => decide (g.1 = (s.bank b).place.group) && decide (g.2.leave = .checkpoint) &&
    ! g.2.closed))

/-- A task stops for a checkpoint: its tries and its entries in hold lists are gone, and a region that it holds ends
(R92, R99). A word whose request had not been decided asks again when the task goes on. -/
def State.stopTask (s : State) (b : Nat) : State :=
  ((s.endRegion b false).dropRequester b).updBank b (fun B => { B.onOut (fun o => { o with
    dec := match o.dec with | .asked _ | .declined _ | .claiming .. | .marking _ => .none | d => d }) with status := .stopped })

/-- The control strand stalls at a blocking `bar`: the task stops only once the instance completes (R269). -/
def Bank.atBar (B : Bank) : Bool := B.out.splits.any (fun x => x.2 = 16)

/-- A task that stands at a yield point may stop there: it is live, does not stand at a blocking `bar`, and has no trap
that it still has to take (log entry 111). -/
def Bank.mayStop (B : Bank) : Bool := decide (B.status = .live) && ! B.atBar && B.trap.pending.isEmpty

/-- A task reaches a yield point: its watchdog count restarts, and it stops there if its group is pending
checkpoint. -/
def State.yieldPoint (s : State) (b : Nat) : State :=
  let s := s.updBank b (fun B => { B with n := { B.n with watchdog := 0 } })
  if s.checkpointPending b && (s.bank b).mayStop then s.stopTask b else s

/-- `yield` (R280); on a system core it has no effect (R290). -/
def execYield (s : State) :=
  ctlWord .yield [] (fun b s => .done (if isSys b then s else s.yieldPoint b)) s

/-! ### Header words (R136) -/

/-- A strand passes a header word of a mask that waits on flag `k`. Where the flag counts a completed barrier of the
split form, that is the departure: an acquire fence at the barrier's scope (R269). -/
def State.passHeader (s : State) (b : Nat) (e : Strand) (m : BitVec 4) (k : Nat) : State :=
  let B := s.bank b
  let named := maskNames m .c
  let s := (B.out.departs.filter (fun x => decide (x.1 = k))).foldl
    (fun s x => s.putFence b (B.walker e).walk 1 x.2 (named && decide (e ≠ .c)) none) s
  let s := if named && decide (e ≠ .c) then s
    else s.updBank b (·.onOut (fun o => { o with departs := o.departs.filter (fun x => decide (x.1 ≠ k)) }))
  s.updBank b (·.pass e)

/-- A strand at a header word: named in the mask it waits for the condition, and the task is at a yield
point while it does; else, or in handler mode (R164), it skips it. On a system core it raises ILLEGAL
(R290). -/
def headerStep (m f : BitVec 4) (c : BitVec 1) (v : BitVec 20) (s : State) : State :=
  let b := s.cur.bank
  let e := s.cur.strand
  let B := s.bank b
  if isSys b then finish b e s (.trap cIllegal (wordVal (.hwait m f c v)))
  else if B.trap.handler || ! maskNames m e then skip b e s
  else if headerHolds (B.flagAt f.toNat) c v then s.passHeader b e m f.toNat
  else (s.updBank b (·.stand e .header)).yieldPoint b

/-- `hwait` (R136). -/
def execHwait (m f : BitVec 4) (c : BitVec 1) (v : BitVec 20) (s : State) :
    Outcome State Fault Refusal :=
  .next (headerStep m f c v s)

/-- HEADER_PASS (R136): strand `input.strand` of bank `input.who` waits at a header word whose condition
holds, and passes it. -/
def execHeaderPass (s : State) : Outcome State Fault Refusal :=
  let b := s.input.who
  let e := s.input.strand
  let B := s.bank b
  .next (
    if mayIssue s b e && decide ((B.walker e).stall = .header) then
      match decodeWord (B.wordAt (B.walker e).pc) with
      | some (.hwait m f c v) =>
        if maskNames m e && headerHolds (B.flagAt f.toNat) c v then s.passHeader b e m f.toNat else s
      | _ => s
    else s)

end Sys2Proof.Machine
end

