-- ==== Sys2Proof/Machine/Requests.lean ====
section
/-! DEFINITION. CTL words that ask a service, the Chanter or a barrier (R268-R279, R283), and the events
that let them go on: a barrier's completion, a rendezvous, an interrupt's message. -/

namespace Sys2Proof.Machine

open Sys2Proof Host

/-! ### Route lists (R85, R86) -/

/-- Entry `p` of a route list. -/
def listEntry (v p : Nat) : Nat := bitsOf v (15 * p + 14) (15 * p)

/-- An entry that a rule of R86 refuses, for a bank and the kinds that its word accepts. -/
def State.entryBad (s : State) (b : Nat) (kinds : List Nat) (e : Nat) : Bool :=
  let device := s.deviceDies (s.viewOf (s.bank b).place.vi) (dieOf b)
  ! kinds.contains (entryKind e) ||
    (match entryKind e with
     | 1 => decide (instReserved e ≠ 0) || decide (instDie e ≠ dieOf b)
     | 2 => decide (instReserved e ≠ 0) || decide (instDie e ≠ dieOf b)
     | 5 => decide (992 < bitsOf e 11 2)
     | _ => decide (instReserved e ≠ 0) || ! device.contains (instDie e))

/-- The entries of a route list before the first empty one. -/
def listEntries (v : Nat) : List Nat :=
  ((List.range 4).map (listEntry v)).takeWhile (fun e => decide (entryKind e ≠ 0))

/-- A route list that R86 refuses. -/
def State.listBad (s : State) (b : Nat) (kinds : List Nat) (v : Nat) : Bool :=
  let es := listEntries v
  es.isEmpty || ((List.range 4).map (listEntry v)).any (fun e => decide (entryKind e ≠ 0) &&
    s.entryBad b kinds e) ||
    decide (((List.range 4).filter (fun p => decide (entryKind (listEntry v p) ≠ 0))).length ≠ es.length)

/-- Route list `k` of a bank. -/
def Bank.routeList (B : Bank) (k : Nat) : Nat := (B.csrGet (csrRL0 + k)).toNat

/-! ### Job descriptors (R273, R274) -/

def tagF16 := 0x0A
def tagBF16 := 0x0B
def tagF32 := 0x0C

/-- A format that a sum, minimum or maximum of a collective takes. -/
def colFormat (t : Nat) : Bool := decide (t = 5 ∨ t = 7 ∨ t = tagF16 ∨ t = tagBF16 ∨ t = tagF32)

/-- A descriptor that R273 and R274 accept for a kind. -/
def descOk (kind : Nat) (d : List Byte) : Bool :=
  let op := leAt d 0 1
  let flag := leAt d 1 1
  let parm := leAt d 2 1
  let cscope := leAt d 3 1
  let counter := leAt d 32 8
  bitsOf flag 6 4 = 0 && (bitAt flag 7 || decide (bitsOf flag 3 0 = 0)) && decide (1 ≤ leAt d 4 4) &&
  decide (leAt d 56 8 = 0) &&
  (if counter = 0 then decide (cscope = 0)
   else decide (counter % 8 = 0 ∧ 1 ≤ cscope ∧ cscope ≤ 5)) &&
  (if kind = 3 then decide (2 ≤ leAt d 44 2 ∧ leAt d 46 2 < leAt d 44 2) else decide (leAt d 40 8 = 0)) &&
  (kind = 2 || decide (leAt d 24 8 = 0)) &&
  (match kind with
   | 1 => decide (op ≤ 5 ∧ (parm = tagF16 ∨ parm = tagBF16 ∨ parm = tagF32))
   | 2 => decide (op ≤ 1 ∧ parm ≤ 12)
   | 3 => (decide (op ≤ 2) && colFormat parm) || (decide (op = 3 ∧ parm ≠ 0 ∧ parm < 64) && ! tagReserved parm)
   | _ => decide (op ≤ 1 ∧ parm = 0))

/-! ### Reading a descriptor or a launch record -/

/-- The annotation of a relaxed access in global space. -/
def Annot.plain : Annot := { ord := 0, scope := 0, space := 0, cache := 0, offset := 0 }

/-- The control strand reads the 64 bytes that a word names, as a relaxed control-strand load. -/
def askDesc (i : Instr) (a : Nat) (b : Nat) (s : State) : Res :=
  match memCheck i b s Annot.plain .read a [0] 64 false .may with
  | .bad r => r
  | .ok s vas places =>
    if ! s.remoteRoom b Annot.plain true 64 vas places then .stall .slot
    else
      let acc := mkAccess s b Annot.plain .desc 64 0 0 0 [] vas places
      let s := s.updBank b (·.onOut (fun o => { o with dec := .reading }))
      .ask (s.issueAccess b acc) .memory

/-- The address that a word names: of a bound scalar, the VA that R172 forms. -/
def State.namedVa (s : State) (b a : Nat) : Nat :=
  let r := (s.bank b).r
  let base := if r.binding a = 0 then 0
    else match s.openEntry b (r.binding a - 1) with | some p => p.base | none => 0
  addTo (base + (r.readS a).toNat) 0

/-- Ends a request's word: the busy predicate, the result scalar, nothing in hand. -/
def endRequest (b d r : Nat) (busy : Bool) (x : Word) (s : State) : Res :=
  .done ((s.updBank b (·.onOut (fun o => { o with dec := .none }))).onRegs b
    (fun g => (g.writeP d busy).writeS r x))

/-- ESC of a bank; 0 acts as 1 (R91). -/
def Bank.esc (B : Bank) : Nat := bitsOf (B.csrGet csrESC).toNat 3 0

/-- What a strand comes to that waits at its word for a decision: where nothing of the word has been done before, it
issues the word with it. -/
def Decision.waits (d : Decision) (s : State) : Res := if d = .none then .ask s .decision else .wait s .decision

/-- Puts a bank's try before the instance of its entry `p` and waits. -/
def askTry (b key first p list k : Nat) (desc : List Byte) (va : Nat) (s : State) : Res :=
  let B := s.bank b
  let t : Try := { asker := .bank b, tenant := B.place.vi, k := k, pos := p, first := first, list := list,
                   desc := desc, va := va, id := s.nextId, walk := B.wc.walk, cycle := 0, ptry := Packet.zero, gwin := 0 }
  B.out.dec.waits (({ s with nextId := s.nextId + 1 } : State).addTry key t |>.updBank b
    (·.onOut (fun o => { o with dec := .asked p })))

/-- `engreq` (R271). -/
def engreqBody (d a r : BitVec 6) (k : BitVec 3) (b : Nat) (s : State) : Res :=
  let i := Instr.engreq d a r k
  let B := s.bank b
  let v := B.routeList k.toNat
  let es := listEntries v
  let kind := entryKind (es.headD 0)
  let bad := Res.trap cEngine (k.setWidth 64)
  if s.listBad b [1, 2, 3, 4] v || es.any (fun e => decide (entryKind e ≠ kind)) then bad
  else match B.out.dec with
    | .reading => .stall .memory
    | .read bs =>
      if ! descOk kind bs then
        .trapWith (s.updBank b (·.onOut (fun o => { o with dec := .none }))) cEngine (k.setWidth 64)
      else
        askTry b (entryInst (es.headD 0)) (entryInst (es.headD 0)) 0 k.toNat 1 bs (s.namedVa b a.toNat)
          (s.updBank b (·.onOut (fun o => { o with desc := bs })))
    | .asked _ => .stall .decision
    | .declined p =>
      match es.drop (p + 1) with
      | e :: _ => askTry b (entryInst e) (entryInst (es.headD 0)) (p + 1) k.toNat 1 B.out.desc
          (s.namedVa b a.toNat) s
      | [] => endRequest b d.toNat r.toNat true 0
          (s.requestRefused (.bank b) k.toNat B.esc (some (entryInst (es.headD 0))) B.place.vi 1)
    | .admitted h => endRequest b d.toNat r.toNat false h s
    | .refused x => endRequest b d.toNat r.toNat true x s
    | _ => askDesc i a.toNat b s

/-- `engreq` (R271). -/
def execEngreq (d a b : BitVec 6) (k : BitVec 3) (s : State) :=
  ctlWord (.engreq d a b k) [a.toNat, b.toNat, 64 + d.toNat] (engreqBody d a b k) s

/-! ### engctl (R277) -/

/-- The running job of a bank that a handle names. -/
def State.handleJob (s : State) (b : Nat) (h : Word) : Option (Nat × Job) :=
  let key := entryInst (bitsOf h.toNat 14 0)
  if 1 ≤ entryKind key ∧ entryKind key ≤ 4 then
    ((s.inst key).jobs.find? (fun j => decide (j.number = bitsOf h.toNat 47 32) && j.asker.same (.bank b))).map
      (fun j => (key, j))
  else none

/-- `engctl.query`. -/
def execEngctlQuery (d a : BitVec 6) (s : State) :=
  ctlWord (.engctlQuery d a) [d.toNat, a.toNat] (fun b s =>
    .done (s.onRegs b (·.writeS d.toNat
      (if (s.handleJob b (s.sreg b a.toNat)).isSome then 0 else 0xFF)))) s

/-- `engctl.abandon`: a running job is stopped, with status ABANDONED. -/
def execEngctlAbandon (d a : BitVec 6) (s : State) :=
  ctlWord (.engctlAbandon d a) [d.toNat, a.toNat] (fun b s =>
    match s.handleJob b (s.sreg b a.toNat) with
    | none => .done (s.onRegs b (·.writeS d.toNat 0xFF))
    | some (key, j) =>
      let s := if j.ending = 0 then s.setInst key ((s.inst key).putJob { j with ending := 4, fault := none, denied := false }) else s
      .done (s.onRegs b (·.writeS d.toNat 0))) s

/-- The first-choice instance that `engctl.unhold` names, of a route list, of `launch`, of `pwr.acq`, and who is
recorded there for a bank; none for a parcel receive unit of another module. -/
def State.unholdAt (s : State) (b n : Nat) : Option (Nat × Asker) :=
  if n = 8 then some (instChanter, .bank b)
  else if n = 9 then some (instBellows, .bank b)
  else
    let e := listEntry ((s.bank b).routeList n) 0
    if entryKind e ≠ 5 then some (entryInst e, .bank b)
    else if bitsOf e 11 2 = s.boot.moduleNo then some (instPRU (bitsOf e 1 0), .peer s.boot.moduleNo b 0)
    else none

/-- The control strand at `engctl.unhold`. At another module's parcel receive unit the task has an entry where its
count of refusals has reached ESC, as far as this module knows; the unit learns of it by a way that the spec does not
give (log entry 40). -/
def unholdBody (n : Nat) (c : Nat) (s : State) : Res :=
  match s.unholdAt c n with
  | none =>
    .done (if (s.bank c).refusals n < Nat.max 1 (s.bank c).esc then s else s.setRefusals (.bank c) n 0)
  | some (key, a) =>
    if ((s.inst key).holder a).isNone then .done s
    else .done ((s.setInst key ((s.inst key).unrecord a)).setRefusals (.bank c) n 0)

/-- `engctl.unhold`. -/
def execEngctlUnhold (b : BitVec 6) (s : State) := ctlWord (.engctlUnhold b) [] (unholdBody b.toNat) s

/-! ### pwr (R278, R111) -/

/-- The control strand at `pwr.acq`. -/
def pwrAcqBody (d : BitVec 6) (l : BitVec 3) (b : Nat) (s : State) : Res :=
  let B := s.bank b
  match B.out.dec with
  | .asked _ => .stall .decision
  | .admitted _ => endRequest b d.toNat 0 false 0 s
  | .declined _ => endRequest b d.toNat 0 true 0
      (s.requestRefused (.bank b) 9 B.esc (some instBellows) B.place.vi
        (levelUnits l.toNat (s.fmaxOf (clusterOf b))))
  | _ => askTry b instBellows instBellows 0 9 0 [] l.toNat s

/-- `pwr.acq`. -/
def execPwrAcq (d : BitVec 6) (l : BitVec 3) (s : State) :=
  rendezvousWord (.pwrAcq d l) [64 + d.toNat] (pwrAcqBody d l) s

/-- `pwr.rel`. -/
def execPwrRel (s : State) :=
  rendezvousWord .pwrRel [] (fun b s => .done (s.endRegion b false)) s

/-! ### launch (R279) -/

/-- A word that is a release at scope 4 or 5 issues the module release that it is (R190); it goes on once that has been
applied on the dies of its scope, so that who acquires from it sees what the task has seen (R191). -/
def State.markRelease (s : State) (b scope : Nat) : State :=
  (s.releaseWrite (s.ctlTag b) scope).setDec b (.marking s.nextId)

/-- The control strand at `launch`: as a release at module scope it waits for its task's earlier accesses,
then asks the Chanter. -/
def launchBody (d a r : BitVec 6) (b : Nat) (s : State) : Res :=
  let B := s.bank b
  match B.out.dec with
  | .reading => .stall .memory
  | .read bs =>
    if ! s.earlierCtlAt b s.nextId 4 then .stall .order
    else .wait ((s.markRelease b 4).updBank b (·.onOut (fun o => { o with desc := bs }))) .order
  | .marking id =>
    if s.markAt b id 4 then askTry b instChanter instChanter 0 8 1 B.out.desc id s else .stall .order
  | .asked _ => .stall .decision
  | .declined _ => endRequest b d.toNat r.toNat true 7
      (s.requestRefused (.bank b) 8 B.esc (some instChanter) B.place.vi 1)
  | .admitted g => endRequest b d.toNat r.toNat false g s
  | .refused x => endRequest b d.toNat r.toNat true x s
  | _ => askDesc (.launch d a r) a.toNat b s

/-- `launch` (R279). -/
def execLaunch (d a b : BitVec 6) (s : State) :=
  ctlWord (.launch d a b) [a.toNat, b.toNat, 64 + d.toNat] (launchBody d a b) s

/-! ### Barriers (R268, R269, R193) -/

/-- The banks that a scope instance of a bank holds (R183). -/
def inScope (b scope c : Nat) : Bool :=
  match scope with
  | 1 => decide (coreOf b = coreOf c)
  | 2 => decide (clusterOf b = clusterOf c)
  | 3 => decide (dieOf b = dieOf c)
  | _ => true

/-- A group by its identifier. -/
def State.group (s : State) (id : Nat) : Option Group := (s.chanter.groups.find? (fun g => g.1 = id)).map (·.2)

/-- The members of a barrier of scope `scope` that holds a bank's task. -/
def State.members (s : State) (b scope : Nat) : List Nat :=
  match s.group (s.bank b).place.group with
  | some g => g.members.filter (inScope b scope)
  | none => [b]

/-- Arrivals of a member at a barrier. -/
def Bank.arrivals (B : Bank) (key : Nat) : Nat := KV.get 0 B.out.arrive key

/-- A member arrives: its arrival acts as a release fence (R193); `flag` is 16 for the blocking form. -/
def State.arrive (s : State) (b key scope flag : Nat) : State :=
  let s := s.addFence b 2 scope
  s.updBank b (fun B => B.onOut (fun o => { o with
    arrive := KV.put o.arrive key (KV.get 0 o.arrive key + 1)
    arriveAt := KV.put o.arriveAt key (s.nextId, B.wc.walk)
    splits := o.splits ++ [(key, flag)] }))

/-- The control strand at `bar`: `flag` is 16 for the blocking form. -/
def barBody (id scope flag : Nat) (b : Nat) (s : State) : Res :=
  let key := 8 * id + scope
  let B := s.bank b
  match B.out.dec with
  | .asked _ => .stall .decision
  | .admitted _ =>
    .done ((s.updBank b (·.onOut (fun o => { o with dec := .none }))).addFence b 1 scope)
  | _ =>
    if B.out.splits.any (fun x => x.1 = key) then .stall .decision
    else if ! B.histDone then .stall .order
    else
      let s := s.arrive b key scope flag
      if flag = 16 then .ask (s.updBank b (·.onOut (fun o => { o with dec := .asked 0 }))) .decision
      else .done s

/-- `bar` (R268). -/
def execBar (i : BitVec 4) (sc : BitVec 3) (s : State) :=
  orderWord (.bar i sc) [] (barBody i.toNat sc.toNat 16) s

/-- `bar.split` (R268). -/
def execBarSplit (d : BitVec 6) (i : BitVec 4) (sc : BitVec 3) (s : State) :=
  orderWord (.barSplit d i sc) [] (barBody i.toNat sc.toNat d.toNat) s

/-- What a member has before its last arrival at a barrier is performed at the barrier's scope, and the module release
that the arrival is has been applied there (R193). -/
def State.arrivalDone (s : State) (c key scope : Nat) : Bool :=
  let (id, walk) := KV.get (0, 0) (s.bank c).out.arriveAt key
  s.earlierAllAt c id walk scope &&
    (s.bank c).out.fences.all (fun f => decide (f.id + 1 ≠ id) || s.fenceMarked c f)

/-- A barrier completes for one member that waits at it: a blocked control strand goes on, a split form's
flag rises, which a header wait then counts (R269). -/
def State.depart (s : State) (c key : Nat) : State :=
  match (s.bank c).out.splits.find? (fun x => x.1 = key) with
  | none => s
  | some (_, flag) =>
    let s := s.updBank c (fun B => ((B.onOut (fun o => { o with
      splits := o.splits.filter (fun x => x.1 ≠ key)
      dec := if flag = 16 then .admitted 0 else o.dec })).onTrap (fun t => { t with
      dec := if flag = 17 then .admitted 0 else t.dec })).moved)
    if 16 ≤ flag then s
    else
      (s.updBank c (·.onOut (fun o => { o with departs := o.departs ++ [(flag, key % 8)] }))).incFlag c flag

/-- BARRIER_COMPLETE (R268): the instance of barrier `input.sub` (8 id + scope) at which bank `input.who`
waits completes once every member has arrived as often as it, and every arrival's release has taken
effect (R193). -/
def execBarrierComplete (s : State) : Outcome State Fault Refusal :=
  let b := s.input.who
  let key := s.input.sub
  let n := (s.bank b).arrivals key
  let ms := s.members b (key % 8)
  let waits := fun (c : Nat) => (s.bank c).out.splits.any (fun x => x.1 = key)
  .next (if waits b && ms.all (fun c => decide ((s.bank c).place.group = (s.bank b).place.group) &&
      decide (n ≤ (s.bank c).arrivals key) && s.arrivalDone c key (key % 8)) then
      (ms.filter (fun c => decide ((s.bank c).arrivals key = n) && waits c)).foldl (fun s c => s.depart c key) s
    else s)

/-! ### Overflow counters (R283) -/

/-- Reads an overflow counter of the task's interface, clearing it if `snap`. -/
def ovfBody (d a : BitVec 6) (snap : Bool) (b : Nat) (s : State) : Res :=
  if ! (s.bank b).histDone then .stall .order
  else
    let v := (s.sreg b a.toNat).toNat
    let key := entryInst (bitsOf v 14 0)
    let n := bitsOf v 17 15
    let vi := (s.bank b).place.vi
    if ! s.instPresent key || decide (6 ≤ n) then .done (s.onRegs b (·.writeS d.toNat 0))
    else
      let x := s.inst key
      let (v, x') := if snap then x.snap vi n else (x.counter vi n, x)
      .done ((if snap then s.setInst key x' else s).onRegs b (·.writeS d.toNat (BitVec.ofNat 64 v)))

/-- `cnt.ovf` (R283). -/
def execCntOvf (d a : BitVec 6) (s : State) :=
  ctlWord (.cntOvf d a) [d.toNat, a.toNat] (ovfBody d a false) s

/-- `cnt.ovf.snap` (R283). -/
def execCntOvfSnap (d a : BitVec 6) (s : State) :=
  ctlWord (.cntOvfSnap d a) [d.toNat, a.toNat] (ovfBody d a true) s

/-! ### Rendezvous and interrupts -/

/-- RENDEZVOUS (R249): the four strands of bank `input.who` stand at a rendezvous word, and the control
strand executes it. -/
def execRendezvous (s : State) : Outcome State Fault Refusal :=
  let b := s.input.who
  let B := s.bank b
  if mayIssue s b .c && B.allHere && decide ((B.walker .c).stall = .rendezvous ∨ B.wc.stall = .none) then
    let s := { s with cur := { bank := b, strand := .c } }
    match decodeWord (B.wordAt B.wc.pc) with
    | some (.pwrAcq d l) => execPwrAcq d l s
    | some .pwrRel => execPwrRel s
    | some (.csr d a i) => if csrMeets a.toNat i.toNat then execCsr d a i s else .next s
    | _ => .next s
  else .next s

/-- The tasks of an interface that wait to send the message of a vector, each with the name and walk index of the
word that it is ordered after. -/
def State.intrsOf (s : State) (vi v : Nat) : List (Nat × Nat × Nat) :=
  s.banks.flatMap (fun x =>
    if x.2.place.vi = vi then (x.2.out.intrs.filter (fun i => i.1 = v)).map (fun i => (x.1, i.2)) else [])

/-- INTERRUPT_MESSAGE (R281): the message of vector `input.sub` of the interface of bank `input.who` goes out, one for
all the requests that wait to be sent, once every access and command before each of them is performed at module
scope. -/
def execInterruptMessage (s : State) : Outcome State Fault Refusal :=
  let vi := (s.bank s.input.who).place.vi
  let v := s.input.sub
  let ws := s.intrsOf vi v
  .next (
    if ws.isEmpty || ! ws.all (fun w => s.earlierAllAt w.1 w.2.1 w.2.2 4) then s
    else
      (ws.foldl (fun s w => s.updBank w.1 (·.onOut (fun o => { o with intrs := o.intrs.filter (fun x => x.1 ≠ v) })))
        s).raiseVector vi v)

end Sys2Proof.Machine
end

