-- ==== Sys2Proof/Machine/Parcels.lean ====
section
/-! DEFINITION. Parcels (chapter 10, R311-R314): `pmake`, `post`, `pclaim`, `pctl`, and deliveries at
their sender and their receiver (R177-R182). -/

namespace Sys2Proof.Machine

open Sys2Proof Host

/-! ### Bytes of a parcel, as the hub reaches them -/

/-- The physical address of a tenant's byte, as the hub's walker finds it in a page of this module, for an access. -/
def State.hubXlat (s : State) (tenant va : Nat) (k : AccKind) : Except FaultKind Nat :=
  match s.walk (s.present.headD 0) tenant va k with
  | .fault k => .error k
  | .leaf level e =>
    match useLeaf e (pageSize level e) va k with
    | .phys pa _ => .ok pa
    | .fault k => .error k
    | _ => .error .form

/-- Writes header bytes that hardware writes (R169), marked in the dirty log. On a page that does not take a write now
they are held, and the fault is collected (R162). -/
def State.putBytes (s : State) (h : HeldHeader) : State :=
  match s.hubXlat h.tenant h.va .write with
  | .ok pa =>
    let bs := if h.bump then leBytes 2 (Nat.min 0xFFFF (ofLeBytes (s.mem.readN pa 2) + 1)) else h.bytes
    (s.markDirty h.tenant h.va bs.length).pokeBytes pa bs
  | .error k =>
    ({ s with parcels := { s.parcels with headers := s.parcels.headers ++ [h] } } : State).collect 4 h.tenant h.va k.bit
      (some (.header h.id))

/-- Writes bytes of a parcel's header. -/
def State.putHeader (s : State) (p : Parcel) (off : Nat) (bs : List Byte) : State :=
  ({ s with nextId := s.nextId + 1 } : State).putBytes { id := s.nextId, tenant := p.tenant, va := p.base + off, bytes := bs,
                                                            bump := false }

/-- Adds 1 to the bounces that a parcel's header counts. -/
def State.countBounce (s : State) (p : Parcel) : State :=
  ({ s with nextId := s.nextId + 1 } : State).putBytes { id := s.nextId, tenant := p.tenant, va := p.base + 18, bytes := [],
                                                            bump := true }

/-- A fault of held header bytes is answered: they are written, or with ACCESS dropped. -/
def State.answerHeader (s : State) (id : Nat) (access : Bool) : State :=
  match s.parcels.headers.find? (fun h => h.id = id) with
  | none => s
  | some h =>
    let s := { s with parcels := { s.parcels with headers := s.parcels.headers.erase h } }
    if access then s else s.putBytes h

/-! ### pmake (R311) -/

/-- The header of a new parcel (R169). -/
def headerBytes (handle length : Nat) : List Byte :=
  leBytes 8 handle ++ leBytes 8 length ++ leBytes 2 0x3FF ++ List.replicate 46 0

/-- A granule that `pmake` may cover. -/
def pmakePage : Xlat → Bool
  | .phys _ m => decide (m = 4)
  | _ => false

/-- A translation that faults, and how. -/
def Xlat.faultKind : Xlat → Option FaultKind
  | .fault k => some k
  | _ => none

/-- The control strand at `pmake` (R176, R311). DESIGN CHOICE (log entry 127): each granule of its range is translated as for
a write. -/
def pmakeBody (k a c : BitVec 6) (p : BitVec 4) (b : Nat) (s : State) : Res :=
  let base := (s.sreg b a.toNat).toNat
  let len := (s.sreg b c.toNat).toNat
  let vi := (s.bank b).place.vi
  match (s.bank b).deniedHere with
  | some va => deniedTrap b va s
  | none =>
  if base % 4096 ≠ 0 then .trap cAlign (s.sreg b a.toNat)
  else if len % 4096 ≠ 0 ∨ len < 4096 ∨ 2 ^ 36 < len then .trap cRefForm (s.sreg b c.toNat)
  else if 2 ^ 57 ≤ base then .trap cAccess (s.sreg b a.toNat)
  else if 2 ^ 57 < base + len then .trap cAccess (BitVec.ofNat 64 (2 ^ 57))
  else
    let (t, xs) := xlatAll b .write ((List.range (len / 4096)).map (fun g => base + 4096 * g)) s
    match xs.findSome? (fun x => x.2.faultKind.map (fun f => (x.1, f))) with
    | some (va, f) => .wait (t.localFault b none va f) .fault
    | none =>
      if ! xs.all (fun x => pmakePage x.2) || s.parcels.table.any (fun q =>
          decide (q.tenant = vi ∧ q.base < base + len ∧ base < q.base + q.length)) then
        .trapWith t cRefForm (s.sreg b a.toNat)
      else if parcelMost ≤ t.parcels.table.length then .done (t.onRegs b (·.writeP p.toNat true))
      else
        let handle := t.boot.moduleNo * 2 ^ 54 + t.parcels.nextSerial * 2 ^ 16
        let t := { t with parcels := { t.parcels with nextSerial := t.parcels.nextSerial + 1 } }
        let t := t.addParcel { id := 0, handle := handle, tenant := vi, base := base, length := len,
                               state := .opened, die := 4, order := 0, since := 0, peer := t.boot.moduleNo, span := none }
        let t := t.storeAt b Annot.plain none base (placeOf xs base) (headerBytes handle len)
        .done (t.onRegs b (fun r => { r.writeP p.toNat false with
          h := KV.put r.h k.toNat (BitVec.ofNat 64 handle) }))

/-- `pmake` (R311). -/
def execPmake (k a b : BitVec 6) (p : BitVec 4) (s : State) :=
  memStep (.pmake k a b p) false [a.toNat, b.toNat, 64 + p.toNat] (fun _ c s => pmakeBody k a b p c s) s

/-! ### Waiting for accesses to a parcel (R182) -/

/-- An access that has passed its state check for a parcel has not completed yet. -/
def State.parcelBusy (s : State) (p : Parcel) : Bool :=
  s.banks.any (fun x => x.2.out.acc.any (fun a => a.touch.contains p.handle) ||
    (match x.2.out.scop with | some r => p.covers x.2.place.vi r.va | none => false) ||
    (decide (x.2.place.vi = p.tenant) && x.2.xfer.window.any (fun c => ! c.flight.isEmpty))) ||
  s.writes.any (fun w => match w.mark with
    | some (t, va) => decide (t = p.tenant ∧ p.base ≤ va / 4096 * 4096 + 4095 ∧ va < p.base + p.length)
    | none => false)

/-! ### Deliveries at the sender (R177, R178) -/

/-- The PDATA packets of a granule: eight of 512 bytes. -/
def dataPackets (s : State) (d : Delivery) (vi off : Nat) (bytes : List Byte) : List Packet :=
  (List.range 8).map (fun i =>
    { dest := d.peer, source := s.boot.moduleNo, inter := 0x3FF, op := 6, tenant := vi,
      sinc := s.boot.incarnation, tinc := d.inc, core := d.core, slot := 0, rsv := 0,
      addr := d.off + off + 512 * i, token := d.token,
      body := requestBody 512 0 0 d.handle 0 ((bytes.drop (512 * i)).take 512) })

/-- Replaces a delivery. -/
def State.putDelivery (s : State) (d : Delivery) : State :=
  { s with parcels := { s.parcels with deliveries := s.parcels.deliveries.map (fun e =>
      if e.entry = d.entry then d else e) } }

/-- Forgets deliveries. -/
def State.dropDeliveries (s : State) (p : Delivery → Bool) : State :=
  { s with parcels := { s.parcels with deliveries := s.parcels.deliveries.filter (fun e => ! p e) } }

/-- A BOUNCED entry is to be OPEN again: its event follows. -/
def State.reopen (s : State) (entry : Nat) : State := s.schedule .bounceReopen { Input.none with sub := entry, ok := true }

/-- A delivery has failed: the sender's entry is BOUNCED, until the destination has released its span or has a new
incarnation (R176); `released` says that it has. -/
def State.senderBounced (s : State) (entry : Nat) (released : Bool) : State :=
  match s.parcels.table.find? (fun p => decide (p.id = entry ∧ p.state = .inTransit)) with
  | some p =>
    let s := s.putParcel { p with state := .bounced }
    if released then s.reopen entry else s
  | none => s

/-- Forgets a delivery at its receiver and frees its place. -/
def State.endReceive (s : State) (d : Delivery) : State :=
  let key := instPRU d.die
  let s := s.setInst key ((s.inst key).dropJob d.job)
  s.dropDeliveries (fun e => e.sender.isNone && decide (e.entry = d.entry))

/-- The receiver of a delivery that bounces frees its span and removes its entry (R179). -/
def State.freeSpan (s : State) (d : Delivery) : State :=
  let t : State := match s.parcels.table.find? (fun p => p.id = d.entry) with
    | some p => (s.releaseSpan p).dropParcel p.id
    | none => s
  t.endReceive d

/-- Two records are of one delivery within this module. -/
def State.sameDelivery (s : State) (d e : Delivery) : Bool :=
  decide (e.handle = d.handle ∧ e.peer = s.boot.moduleNo ∧ d.peer = s.boot.moduleNo ∧ e.off = d.off ∧ e.die = d.die) &&
    (d.sender.isSome != e.sender.isSome)

/-- A delivery bounces at the receiver (R179): its span is free, its entry removed; a sender on this module
has BOUNCED. -/
def State.bounce (s : State) (d : Delivery) : State :=
  let s := s.freeSpan d
  match s.parcels.deliveries.find? (s.sameDelivery d) with
  | some e => s.senderBounced e.entry true
  | none => s

/-- A delivery fails at the sender (R179): a source page denied, no path, a request ended with PEER_RESET. A receiver
on this module frees its span; that of another module ends the delivery by itself. -/
def State.failSending (s : State) (d : Delivery) : State :=
  match s.parcels.deliveries.find? (s.sameDelivery d) with
  | some e => (s.freeSpan e).senderBounced d.entry true
  | none => s.senderBounced d.entry (decide (d.peer = s.boot.moduleNo))

/-- An entry is IN_TRANSIT. -/
def State.sending (s : State) (entry : Nat) : Bool :=
  s.parcels.table.any (fun p => decide (p.id = entry ∧ p.state = .inTransit))

/-- A delivery whose task is killed is abandoned (R99): its sender streams no more of it, and it bounces; one whose bytes
have all been sent to another module, or have all been written here, ends as it would (log entry 118). -/
def State.abandonDelivery (s : State) (d : Delivery) : State :=
  if d.peer = s.boot.moduleNo then
    (if (s.parcels.deliveries.find? (s.sameDelivery d)).isSome then s.failSending d else s)
  else if d.length ≤ d.done then s
  else s.senderBounced d.entry false

/-- Translates the next granule of a delivery of parcel `p`, and queues its read at the memory ports (R105). A source page
that does not translate is a fault of the delivery, which goes on when it is answered. -/
def State.askGranule (s : State) (die : Nat) (p : Parcel) (d : Delivery) : State :=
  match s.hubXlat p.tenant (p.base + d.done) .read with
  | .error k =>
    (s.putDelivery { d with waiting := true }).collect die p.tenant (p.base + d.done) k.bit (some (.delivery d.entry))
  | .ok pa =>
    let id := s.nextId
    (({ s with nextId := id + 1 } : State).enqueueAll p.tenant id (spanLines64 [(pa, 4096)])).putDelivery
      { d with read := some (id, pa), waiting := false }

/-- Sends the granule that a delivery has read; where it has been declared free, or no path is left, the delivery fails
(R117, R179; log entry 123). -/
def State.sendParcelGranule (s : State) (die : Nat) (p : Parcel) (d : Delivery) (pa : Nat) : State :=
  match (if s.freeGranule pa then none
      else (dataPackets s d p.tenant d.done (s.see none die pa 4096)).foldlM (fun s x => s.send x) s) with
  | none => s.failSending d
  | some t => t.putDelivery { d with done := d.done + 4096, at_ := s.time, read := none }

/-- Streams a delivery on, granule by granule, as far as the memory ports have served its reads; the fuel is twice the
number of its granules. -/
def State.stream (s : State) (entry : Nat) : Nat → State
  | 0 => s
  | n + 1 =>
    match s.parcels.deliveries.find? (fun d => d.entry = entry), s.parcels.table.find? (fun p => p.id = entry) with
    | some d, some p =>
      let die := match d.sender with | some (b, _) => dieOf b | none => d.die
      if d.length ≤ d.done ∨ d.waiting = true ∨ p.state ≠ .inTransit then s
      else match d.read with
        | none => (s.askGranule die p d).stream entry n
        | some (id, pa) =>
          if s.queued id then s.schedule .pdata { Input.none with ok := true, size := 1, third := entry }
          else (s.sendParcelGranule die p d pa).stream entry n
    | _, _ => s

/-- The steps that streaming the delivery of an entry can take. -/
def parcelFuel (s : State) (entry : Nat) : Nat :=
  match s.parcels.deliveries.find? (fun d => d.entry = entry) with
  | some d => d.length / 2048
  | none => 0

/-- A post is admitted: the entry is IN_TRANSIT and its bytes are streamed. A receiver on this module that has ended
the delivery in the meantime bounces it. -/
def State.startDelivery (s : State) (b flag : Nat) (p : Parcel) (peer die off token : Nat) : State :=
  let s := s.putParcel { p with state := .inTransit, peer := peer }
  let s := s.putHeader p 16 (leBytes 2 s.boot.moduleNo)
  let d : Delivery :=
    { entry := p.id, handle := p.handle, sender := some (b, flag), peer := peer, inc := s.peerInc peer,
      token := token, die := die, off := off, length := p.length, done := 0, vi := p.tenant, core := coreOf b,
      read := none, queue := [], at_ := s.time, job := 0, waiting := false, held := [] }
  let s := { s with parcels := { s.parcels with deliveries := s.parcels.deliveries ++ [d] } }
  if decide (peer = s.boot.moduleNo) && (s.parcels.deliveries.find? (s.sameDelivery d)).isNone then s.failSending d
  else s.stream p.id (p.length / 2048)

/-! ### post (R312) -/

/-- The token that entry `p` carries. -/
def postToken (B : Bank) (g p : Nat) : Nat := (KV.get 0 B.r.g ((g + p) % 8)).toNat

/-- An entry of `post` reaches no instance (R87). -/
def State.noTry (s : State) (B : Bank) (g p e : Nat) : Bool :=
  decide (postToken B g p = 0) || decide (s.peerInc (bitsOf e 11 2) = 0)

/-- The PTRY of an entry; its size field holds 1 + die + 4 position (log entry 41). -/
def tryPacket (s : State) (b vi slot pos e token : Nat) (p : Parcel) : Packet :=
  { dest := bitsOf e 11 2, source := s.boot.moduleNo, inter := 0x3FF, op := 5, tenant := vi,
    sinc := s.boot.incarnation, tinc := s.peerInc (bitsOf e 11 2), core := coreOf b, slot := slot, rsv := 0, addr := 0,
    token := token, body := requestBody (1 + bitsOf e 1 0 + 4 * pos) 0 0 p.handle p.length [] }

/-- Tries the entries of a route list from position `p` on; none where no more is left. -/
def State.postFrom (s : State) (b g : Nat) (q : Parcel) : Nat → List Nat → Option Res
  | _, [] => none
  | p, e :: rest =>
    let B := s.bank b
    if s.noTry B g p e then s.postFrom b g q (p + 1) rest
    else
      let c := s.core (coreOf b)
      match s.slotFor b with
      | none => some (.wait (s.updBank b (·.onOut (fun o => { o with
          dec := if p = 0 then o.dec else .declined (p - 1) }))) .slot)
      | some i =>
        match s.send (tryPacket s b B.place.vi (i + 8 * KV.get 0 c.gens i) p e (postToken B g p) q) with
        | none => s.postFrom b g q (p + 1) rest
        | some t =>
          let req : RemReq := { va := 0, peer := bitsOf e 11 2, off := 0, token := postToken B g p, size := 0,
                                fill := false, cached := false, policy := 0 }
          let t := t.takeSlot i { bank := b, access := 0, ticket := none, req := req, op := 5, sent := s.time,
                                  pos := p, held := false }
          some (.wait (t.updBank b (·.onOut (fun o => { o with dec := .asked p }))) .decision)

/-- The unit of this module at which a refused `post` is recorded: that of its first choice, where it
reached one and its token passed checks 1 and 2 (R88, R91); and the tenant of its try. -/
def State.postFirst (s : State) (b g e length : Nat) : Option Nat × Nat :=
  let B := s.bank b
  let tok := postToken B g 0
  let w := s.hubReg (offGWIN (bitsOf tok 63 52))
  let c := s.grantCheck tok s.boot.moduleNo B.place.vi 3 0 length
  if bitsOf e 11 2 = s.boot.moduleNo ∧ ¬ s.noTry B g 0 e ∧ c ≠ 1 ∧ c ≠ 2 then
    (some (instPRU (bitsOf e 1 0)), gwinTenant w)
  else (none, 0)

/-- The control strand at `post` (R312). -/
def postBody (d : BitVec 6) (g k j : BitVec 3) (p f : BitVec 4) (b : Nat) (s : State) : Res :=
  let B := s.bank b
  let v := B.routeList j.toNat
  let es := listEntries v
  let e0 := es.headD 0
  match s.openEntry b k.toNat with
  | none => .trap cParcelGone (KV.get 0 B.r.h k.toNat)
  | some q =>
    let refused := fun (s : State) =>
      let (first, tenant) := s.postFirst b g.toNat e0 q.length
      match first with
      | some key => s.requestRefused (.peer s.boot.moduleNo b 0) j.toNat B.esc (some key) tenant 1
      | none => s.requestRefused (.bank b) j.toNat B.esc none 0 1
    if s.listBad b [5] v then .trap cEngine (j.setWidth 64)
    else match B.out.dec with
      | .asked _ => .stall .decision
      | .admitted h =>
        if s.parcelBusy q then .stall .order
        else
          let pos := bitsOf h.toNat 16 15
          let e := bitsOf h.toNat 14 0
          let s := s.setRefusals (.bank b) j.toNat 0
          let key := instPRU (bitsOf e0 1 0)
          let s := if bitsOf e0 11 2 = s.boot.moduleNo then
              s.setInst key ((s.inst key).unrecord (.peer s.boot.moduleNo b 0))
            else s
          let s := s.startDelivery b f.toNat q (bitsOf e 11 2) (bitsOf e 1 0)
            (h.toNat / 2 ^ 18 * 4096) (postToken B g.toNat pos)
          endRequest b p.toNat d.toNat false (h &&& 0x3FFFF) s
      | .declined n =>
        match s.postFrom b g.toNat q (n + 1) (es.drop (n + 1)) with
        | some r => r
        | none => endRequest b p.toNat d.toNat true 0 (refused s)
      | .marking id =>
        if ! s.markAt b id 5 then .stall .order
        else match s.postFrom b g.toNat q 0 es with
          | some r => r
          | none => endRequest b p.toNat d.toNat true 0 (refused s)
      | _ => if ! s.earlierCtlAt b s.nextId 5 then .stall .order else .ask (s.markRelease b 5) .order

/-- `post` (R312). -/
def execPost (d : BitVec 6) (g k j : BitVec 3) (p f : BitVec 4) (s : State) :=
  memStep (.post d g k j p f) false [d.toNat, 64 + p.toNat] (fun _ b s => postBody d g k j p f b s) s

/-! ### pclaim (R313, R181) -/

/-- The oldest entry among some. -/
def oldestParcel : List Parcel → Option Parcel
  | [] => none
  | p :: rest => some (rest.foldl (fun m q => if q.order < m.order then q else m) p)

/-- The module time at which the present ac of a cluster began. -/
def State.acStart (s : State) (cl : Nat) : Nat := s.time - (s.cluster cl).frac / s.mhz cl

/-- The parcel that a claim finds in the table as it stands at the start of the present ac (R377). -/
def State.claimed (s : State) (b a : Nat) : Option Parcel :=
  let vi := (s.bank b).place.vi
  let arrived := s.parcels.table.filter (fun p => decide (p.tenant = vi ∧ p.state = .arrived ∧
    p.since ≤ s.acStart (clusterOf b)))
  if a = 0 then oldestParcel (arrived.filter (fun p => decide (p.die = dieOf b)))
  else arrived.find? (fun p => decide (p.handle = (s.sreg b a).toNat))

/-- A handle with the next generation (R167). -/
def nextGeneration (h : Nat) : Nat := h / 65536 * 65536 + (h % 65536 + 1) % 65536

/-- A claim that has reached the parcel table. -/
structure Claim where
  bank : Nat
  ac : Nat
  at_ : Nat
  parcel : Parcel
deriving DecidableEq, Repr

/-- The claims that have reached the parcel table and that an ARRIVED parcel answers, in the order of the requester
numbers. -/
def State.claims (s : State) : List Claim :=
  s.banks.filterMap (fun x => match x.2.out.dec with
    | .claiming ac t a => (s.claimed x.1 a).map (fun q => { bank := x.1, ac := ac, at_ := t, parcel := q })
    | _ => none)

/-- Two claims have reached the table in the same ac: of one cluster, or for two clusters of 600 MHz (log entry 46). -/
def Claim.sameAc (c d : Claim) : Bool :=
  if clusterOf c.bank = clusterOf d.bank then decide (c.ac = d.ac) else decide (c.at_ * 3 / 5000 = d.at_ * 3 / 5000)

/-- The claims of one parcel that are decided together with a claim: those of its ac. -/
def State.rivals (s : State) (c : Claim) : List Claim :=
  s.claims.filter (fun d => decide (d.parcel.id = c.parcel.id) && c.sameAc d)

/-- An older claim of the same parcel is not decided yet. -/
def State.claimAhead (s : State) (c : Claim) : Bool :=
  s.claims.any (fun d => decide (d.parcel.id = c.parcel.id ∧ d.at_ < c.at_) && ! c.sameAc d)

/-- Decides the claims of one parcel and ac (R181): the lowest requester number wins the parcel, whose generation
rises; every other is refused. -/
def State.decideClaims (s : State) (c : Claim) : State :=
  let rs := s.rivals c
  let h := nextGeneration c.parcel.handle
  let first := rs.foldl (fun m d => Nat.min m d.bank) c.bank
  let s := (s.putParcel { c.parcel with handle := h, state := .opened }).putHeader c.parcel 0 (leBytes 8 h)
  rs.foldl (fun s d => s.setDec d.bank (if d.bank = first then .admitted (BitVec.ofNat 64 h) else .refused 0)) s

/-- The control strand at `pclaim` (R313): a successful claim is an acquire at domain scope. -/
def pclaimBody (k : BitVec 3) (a : BitVec 6) (p : BitVec 4) (b : Nat) (s : State) : Res :=
  let lose := fun (s : State) => Res.done ((s.setDec b .none).onRegs b (·.writeP p.toNat true))
  let win := fun (h : Word) (s : State) => Res.done (((s.setDec b .none).addFence b 1 5).onRegs b (fun r =>
    { r.writeP p.toNat false with h := KV.put r.h k.toNat h }))
  match (s.bank b).out.dec with
  | .admitted h => win h s
  | .refused _ => lose s
  | .claiming ac t _ =>
    if s.acOf (clusterOf b) = ac then .stall .decision
    else match s.claimed b a.toNat with
      | none => lose s
      | some q =>
        let c : Claim := { bank := b, ac := ac, at_ := t, parcel := q }
        if s.claimAhead c then .stall .decision
        else
          let s := s.decideClaims c
          match (s.bank b).out.dec with
          | .admitted h => win h s
          | _ => lose s
  | _ => .ask (s.setDec b (.claiming (s.acOf (clusterOf b)) s.time a.toNat)) .decision

/-- `pclaim` (R313). -/
def execPclaim (k : BitVec 3) (a : BitVec 6) (p : BitVec 4) (s : State) :=
  scopStep (.pclaim k a p) [a.toNat, 64 + p.toNat] (fun _ b s => pclaimBody k a p b s) s

/-! ### pctl (R314) -/

/-- The state code of R175. -/
def ParcelState.code : ParcelState → Nat
  | .opened => 1
  | .inTransit => 2
  | .pending => 3
  | .arrived => 3
  | .bounced => 4

/-- `pctl.query`. -/
def execPctlQuery (d : BitVec 6) (k : BitVec 3) (s : State) :=
  memStep (.pctlQuery d k) false [d.toNat] (fun _ b s =>
    let B := s.bank b
    let c := match s.parcel B.place.vi (KV.get 0 B.r.h k.toNat).toNat with
      | some p => p.state.code
      | none => 0
    .done (s.onRegs b (·.writeS d.toNat (BitVec.ofNat 64 c)))) s

/-- `pctl.free`: it waits as `post` does (R182). -/
def execPctlFree (k : BitVec 3) (s : State) :=
  memStep (.pctlFree k) false [] (fun _ b s =>
    match s.openEntry b k.toNat with
    | none => .trap cParcelGone (KV.get 0 (s.bank b).r.h k.toNat)
    | some p =>
      if s.parcelBusy p then .stall .order
      else .done (((s.releaseSpan p).dropParcel p.id).onRegs b (fun r => { r with h := KV.put r.h k.toNat 0 }))) s

/-- `pctl.set`. -/
def execPctlSet (a : BitVec 6) (k : BitVec 3) (s : State) :=
  memStep (.pctlSet a k) false [a.toNat] (fun _ b s =>
    .done (s.onRegs b (fun r => { r with h := KV.put r.h k.toNat (r.readS a.toNat) }))) s

/-- `pctl.get`. -/
def execPctlGet (d : BitVec 6) (k : BitVec 3) (s : State) :=
  memStep (.pctlGet d k) false [d.toNat] (fun _ b s =>
    .done (s.onRegs b (fun r => r.writeS d.toNat (KV.get 0 r.h k.toNat)))) s

/-! ### Deliveries at their receiver (R178, R179) -/

/-- The receiver's record of a delivery. -/
def State.receiving (s : State) (p : Delivery → Bool) : Option Delivery :=
  s.parcels.deliveries.find? (fun d => d.sender.isNone && p d)

/-- Every byte of a delivery has been written: the entry has ARRIVED, and the sender is told (R178). -/
def State.deliveryDone (s : State) (d : Delivery) : State :=
  match s.parcels.table.find? (fun p => p.id = d.entry) with
  | none => s
  | some p =>
    let n := s.parcels.nextOrder
    let s := s.putParcel { p with state := .arrived, order := n, since := s.time + 1 }
    let s := { s with parcels := { s.parcels with nextOrder := n + 1 } }
    let s := s.putHeader p 0 (leBytes 8 d.handle ++ leBytes 8 d.length ++ leBytes 2 d.peer)
    let s := s.endReceive d
    (s.send { dest := d.peer, source := s.boot.moduleNo, inter := 0x3FF, op := 0x83, tenant := d.vi,
              sinc := s.boot.incarnation, tinc := d.inc, core := d.core, slot := 0, rsv := 0, addr := 0, token := 0,
              body := leBytes 8 d.handle }).getD s

/-- BOUNCE_REOPEN (R176): the destination of entry `input.sub` has released its span, or its incarnation
has changed: the entry is OPEN again with bounces + 1, and the flag rises. For a delivery to another module the
environment brings it, first when the delivery has failed there, which makes the entry BOUNCED, and again when the span
is released; with `input.ok` only a BOUNCED entry is meant. -/
def execBounceReopen (s : State) : Outcome State Fault Refusal :=
  let entry := s.input.sub
  .next (match s.parcels.table.find? (fun p => p.id = entry) with
    | some p =>
      if p.state = .inTransit ∧ p.peer ≠ s.boot.moduleNo ∧ s.input.ok = false then s.senderBounced entry false
      else if p.state = .bounced then
        let t := (s.putParcel { p with state := .opened }).countBounce p
        let t := t.dropDeliveries (fun e => e.sender.isSome && decide (e.entry = entry))
        match (s.parcels.deliveries.find? (fun d => d.sender.isSome && decide (d.entry = entry))).bind (·.sender) with
        | some (b, f) => if f < 16 then t.incFlag b f else t
        | none => t
      else s
    | none => s)

/-- PDONE (R178): the sender removes its entry, and then the flag rises. A pool parcel's span returns to its
pool. -/
def execPdone (s : State) : Outcome State Fault Refusal :=
  let q := s.input.packet
  let handle := leAt q.body 0 8
  .next (
    if ! s.responseOk q then s
    else match s.parcels.deliveries.find? (fun d => d.sender.isSome && decide (d.handle = handle ∧ d.peer = q.source)) with
      | none => s
      | some d =>
        match s.parcels.table.find? (fun p => p.id = d.entry) with
        | none => s
        | some p =>
          let s := (s.releaseSpan p).dropParcel p.id
          let s := s.dropDeliveries (fun e => e.sender.isSome && decide (e.entry = d.entry))
          match d.sender with
          | some (b, f) => if f < 16 then s.incFlag b f else s
          | none => s)

/-- A bank has a delivery in flight that it posted (R312). -/
def State.hasDelivery (s : State) (b : Nat) : Bool :=
  s.parcels.deliveries.any (fun d => match d.sender with | some (c, f) => decide (c = b ∧ f < 16) | none => false)

end Sys2Proof.Machine
end

