-- ==== Sys2Proof/Machine/Priv.lean ====
section
/-! DEFINITION. MEM words on the ticket table, grant tokens, translations and the dirty log (R318-R321). -/

namespace Sys2Proof.Machine

open Sys2Proof Host

/-! ### tkt (R318) -/

/-- `tkt.cnt`. -/
def execTktCnt (d : BitVec 6) (s : State) :=
  memStep (.tktCnt d) false [d.toNat] (fun _ b s =>
    .done (s.onRegs b (·.writeS d.toNat (BitVec.ofNat 64 (s.bank b).out.tkt.length)))) s

/-- `tkt.wait`. -/
def execTktWait (s : State) :=
  memStep .tktWait false [] (fun _ b s => if (s.bank b).out.tkt.isEmpty then .done s else .stall .slot) s

/-- The destination of an access's data: 0 none, 1 a load-queue entry, 2 a scalar. -/
def Access.destination (a : Access) : Nat :=
  match a.op with
  | .ldq _ => 1
  | .st => 0
  | .fill => 0
  | .desc => 0
  | .mpush _ => 0
  | _ => if a.dst = 0 then 0 else 2

/-- The code of a ticket entry's state. -/
def TktState.code : TktState → Nat
  | .wait => 1
  | .replay => 2
  | .shadow => 3

/-- The status of a ticket entry. -/
def Bank.ticketStatus (B : Bank) (k : Nat) : Nat :=
  match B.out.tkt.find? (fun t => t.1 = k) with
  | none => 0
  | some (_, t) =>
    let dest := match B.out.acc.find? (fun a => a.id = t.access) with
      | some a => a.destination
      | none => 0
    t.owner * 2 ^ 54 + t.ownerInc * 2 ^ 38 + t.number * 2 ^ 22 + dest * 2 ^ 20 + t.tkind % 2 * 2 ^ 19 +
      t.state.code

/-- `tkt.rd`. -/
def execTktRd (d a : BitVec 6) (s : State) :=
  memStep (.tktRd d a) false [d.toNat, a.toNat] (fun _ b s =>
    let k := (s.sreg b a.toNat).toNat % 16
    .done (s.onRegs b (·.writeS d.toNat (BitVec.ofNat 64 ((s.bank b).ticketStatus k))))) s

/-! ### grant (R319) -/

/-- `grant.mint`; a system core skips the tenant check (R322). -/
def execGrantMint (d a c : BitVec 6) (s : State) :=
  memStep (.grantMint d a c) false [d.toNat, a.toNat, c.toNat] (fun _ b s =>
    let x := (s.sreg b a.toNat).toNat
    let y := (s.sreg b c.toNat).toNat
    let w := s.hubReg (offGWIN (bitsOf x 63 52))
    let rights := bitsOf x 51 48
    if ! gwinValid w || (! isSys b && decide (gwinTenant w ≠ (s.bank b).place.vi)) ||
        decide (rights &&& gwinRights w ≠ rights) || decide (992 < bitsOf y 9 0) then
      .trap cGrant (s.sreg b a.toNat)
    else
      let code := s.tokenCode (bitsOf x 63 36) (bitsOf y 9 0) (bitsOf y 17 10)
      .done (s.onRegs b (·.writeS d.toNat (BitVec.ofNat 64 (bitsOf x 63 36 * 2 ^ 36 + code))))) s

/-- `grant.set`. -/
def execGrantSet (a : BitVec 6) (k : BitVec 3) (s : State) :=
  memStep (.grantSet a k) false [a.toNat] (fun _ b s =>
    .done (s.onRegs b (fun r => { r with g := KV.put r.g k.toNat (r.readS a.toNat) }))) s

/-- `grant.get`. -/
def execGrantGet (d : BitVec 6) (k : BitVec 3) (s : State) :=
  memStep (.grantGet d k) false [d.toNat] (fun _ b s =>
    .done (s.onRegs b (fun r => r.writeS d.toNat (KV.get 0 r.g k.toNat)))) s

/-! ### tlbop (R320, R146) -/

/-- What an invalidation names: a tenant, or every one, and a range of addresses. -/
structure Inval where
  tenant : Option Nat
  lo : Nat
  hi : Nat
deriving DecidableEq, Repr

/-- An invalidation names a translation. -/
def Inval.has (v : Inval) (t : TlbEntry) : Bool :=
  (match v.tenant with | some n => decide (t.tenant = n) | none => true) &&
    decide (v.lo < t.va + t.size ∧ t.va < v.hi)

/-- An invalidation names a tenant. -/
def Inval.names (v : Inval) (n : Nat) : Bool := match v.tenant with | some m => decide (m = n) | none => true

/-- An invalidation names an address of a tenant. -/
def Inval.at_ (v : Inval) (n va : Nat) : Bool := v.names n && decide (v.lo ≤ va ∧ va < v.hi)

/-- An invalidation names a held pointer entry: its table covers an address of the range. -/
def Inval.hasTable (v : Inval) (w : WalkEntry) : Bool :=
  v.names w.tenant && decide (v.lo < w.va + tableSpan w.level ∧ w.va < v.hi)

/-- A REMOTE_CACHED line has been read under an address that an invalidation names (R143). -/
def Inval.hasLine (v : Inval) (l : L2Line) : Bool :=
  match l.key.home with
  | some (n, _) => l.vas.any (fun va => v.at_ n (va / 4096 * 4096))
  | none => false

/-- A request in flight whose line an invalidation names keeps nothing when its data comes. -/
def Inval.unkeep (v : Inval) (n : Nat) (r : RemReq) : RemReq :=
  if v.at_ n (r.va / 4096 * 4096) then { r with fill := false } else r

/-- The requests in flight of a bank keep no line that an invalidation names. -/
def Bank.unkeep (B : Bank) (v : Inval) : Bank :=
  let f := v.unkeep B.place.vi
  B.onOut (fun o => { o with
    acc := o.acc.map (fun a => { a with reqs := a.reqs.map f, unsent := a.unsent.map f })
    tkt := o.tkt.map (fun t => (t.1, { t.2 with req := f t.2.req })) })

/-- Drops the translations and pointer entries that an invalidation names, and the REMOTE_CACHED lines in their pages,
those on their way too (R143, R146). -/
def State.invalidate (s : State) (v : Inval) : State :=
  let f := fun (b : Nat) => v.unkeep (s.bank b).place.vi
  { s.dropLines v.hasLine with
    tlb := s.tlb.filter (fun t => ! v.has t)
    walks := s.walks.filter (fun w => ! v.hasTable w)
    banks := s.banks.map (fun x => (x.1, x.2.unkeep v))
    cores := s.cores.map (fun c => (c.1, { c.2 with slots := c.2.slots.map (fun x =>
      (x.1, { x.2 with req := f x.2.bank x.2.req })) }))
    fab := { s.fab with retries := s.fab.retries.map (fun r => { r with req := f r.bank r.req }) } }

/-- A fabric copy's request has been sent through the translations it was made with, or is to be sent again through
them; one that holds an open ticket holds none (R146). -/
def Job.copyOut (j : Job) : Bool :=
  match j.work.copy with
  | some c => decide (c.state ≠ .ticket)
  | none => false

/-- An access made through a translation of a tenant that an invalidation names has not completed (R146):
an access, granule, write or request in flight, or one that waits to be sent again; an access that holds an open
ticket holds no translation. The model waits for those of the whole tenant. -/
def State.invalBusy (s : State) (v : Inval) : Bool :=
  s.banks.any (fun x => ! isSys x.1 && v.names x.2.place.vi &&
    (x.2.out.acc.any (fun a => ! a.remote || ! a.unsent.isEmpty) || x.2.out.scop.isSome ||
      x.2.xfer.window.any (fun c => ! c.flight.isEmpty || c.count.isSome))) ||
  s.writes.any (fun w => match w.mark with | some (n, _) => v.names n | none => false) ||
  s.cores.any (fun c => c.2.slots.any (fun x => v.names (s.bank x.2.bank).place.vi)) ||
  s.fab.retries.any (fun r => r.ticket.isNone && v.names (s.bank r.bank).place.vi) ||
  s.fab.inbox.any (fun q => v.names q.tenant) ||
  s.svc.inst.any (fun x => x.2.jobs.any (fun j => v.names j.tenant && (j.copyOut || j.work.read.isSome))) ||
  s.parcels.deliveries.any (fun d => (d.read.isSome || ! d.queue.isEmpty) &&
    s.parcels.table.any (fun p => decide (p.id = d.entry) && v.names p.tenant)) ||
  s.chanter.groups.any (fun g => v.names g.2.vi && g.2.reading.isSome) ||
  s.host.vis.any (fun x => v.names x.1 && (match x.2.waits with | .reading .. :: _ => true | _ => false))

/-- The control strand of a system core at `tlbop`; a task traps with PRIV (R230). -/
def tlbopBody (i : Instr) (f : State → Nat → Option Inval) (b : Nat) (s : State) : Res :=
  if ! isSys b then .trap cPriv (wordVal i)
  else match f s b with
    | none => .done s
    | some v =>
      let t := s.invalidate v
      if t.invalBusy v then .wait t .memory else .done t

/-- The tenant that the scalar of `tlbop` names. -/
def State.tenantOf (s : State) (b d : Nat) : Nat := (s.sreg b d).toNat % 256

/-- `tlbop.rng`. -/
def execTlbopRng (d a c : BitVec 6) (s : State) :=
  memStep (.tlbopRng d a c) false [d.toNat, a.toNat, c.toNat] (fun _ b s =>
    tlbopBody (.tlbopRng d a c) (fun s b =>
      let x := (s.sreg b a.toNat).toNat
      let n := (s.sreg b c.toNat).toNat
      if n = 0 then none
      else some { tenant := some (s.tenantOf b d.toNat), lo := x / 4096 * 4096,
                  hi := (x + n + 4095) / 4096 * 4096 }) b s) s

/-- `tlbop.ten`. -/
def execTlbopTen (d : BitVec 6) (s : State) :=
  memStep (.tlbopTen d) false [d.toNat] (fun _ b s =>
    tlbopBody (.tlbopTen d) (fun s b => some { tenant := some (s.tenantOf b d.toNat), lo := 0, hi := 2 ^ 57 }) b s) s

/-- `tlbop.all`. -/
def execTlbopAll (s : State) :=
  memStep .tlbopAll false [] (fun _ b s =>
    tlbopBody .tlbopAll (fun _ _ => some { tenant := none, lo := 0, hi := 2 ^ 57 }) b s) s

/-! ### dirty (R321, R62) -/

/-- The physical address of word `w` of a tenant's bitmap, none past its end. -/
def State.dirtyWord (s : State) (tenant w : Nat) : Option Nat :=
  let r := s.hubReg (offDLOG tenant)
  if 2 ^ bitsOf r 125 120 / 2 ^ 18 ≤ w then none else some (bitsOf r 91 56 * 2 ^ 16 + 8 * w)

/-- Some of `n` bytes from a virtual address on lie in a granule of word `w` of a tenant's bitmap. -/
def State.inDirtyWord (s : State) (tenant w va n : Nat) : Bool :=
  let base := bitsOf (s.hubReg (offDLOG tenant)) 119 93 * 2 ^ 30
  decide (base + w * 2 ^ 18 < va + n ∧ va < base + (w + 1) * 2 ^ 18)

/-- A fabric copy's write to a peer, whose granule is marked as it is asked for, has not been answered: the virtual
address and the length of its destination. -/
def Job.copyWrite (j : Job) : Option (Nat × Nat) :=
  match j.work.copy with
  | some c => if leAt j.desc 0 1 = 0 then some (leAt j.desc 16 8 + j.done, c.size) else none
  | none => none

/-- A write whose bit word `w` holds is not visible at module scope yet (R62). -/
def State.dirtyBusy (s : State) (tenant w : Nat) : Bool :=
  s.writes.any (fun x => match x.mark with
    | some (n, va) => decide (n = tenant) && s.inDirtyWord tenant w va x.bytes.length
    | none => false) ||
  s.banks.any (fun x => decide (x.2.place.vi = tenant) &&
    x.2.out.acc.any (fun a => a.remote && s.inDirtyWord tenant w a.va (a.size * a.lanes.length) &&
      (match a.op with | .st | .amo _ | .cas _ => true | _ => false))) ||
  s.svc.inst.any (fun x => x.2.jobs.any (fun j => decide (j.tenant = tenant) &&
    j.copyWrite.any (fun y => s.inDirtyWord tenant w y.1 y.2)))

/-- A snapshot-and-clear of a bitmap word; none while a write whose bit it returns is not visible. -/
def State.snapDirty (s : State) (tenant w : Nat) : Option (State × Nat) :=
  match s.dirtyWord tenant w with
  | none => some (s, 0)
  | some pa =>
    if s.dirtyBusy tenant w then none
    else some (s.pokeBytes pa (List.replicate 8 0), ofLeBytes (s.mem.readN pa 8))

/-- `dirty.snap`. -/
def execDirtySnap (d a c : BitVec 6) (s : State) :=
  memStep (.dirtySnap d a c) false [d.toNat, a.toNat, c.toNat] (fun _ b s =>
    if ! isSys b then .trap cPriv (wordVal (.dirtySnap d a c))
    else match s.snapDirty ((s.sreg b c.toNat).toNat % 256) (s.sreg b a.toNat).toNat with
      | none => .stall .order
      | some (t, x) => .done (t.onRegs b (·.writeS d.toNat (BitVec.ofNat 64 x)))) s

/-- `dirty.rd`. -/
def execDirtyRd (d a c : BitVec 6) (s : State) :=
  memStep (.dirtyRd d a c) false [d.toNat, a.toNat, c.toNat] (fun _ b s =>
    if ! isSys b then .trap cPriv (wordVal (.dirtyRd d a c))
    else
      let x := match s.dirtyWord ((s.sreg b c.toNat).toNat % 256) (s.sreg b a.toNat).toNat with
        | none => 0
        | some pa => ofLeBytes (s.mem.readN pa 8)
      .done (s.onRegs b (·.writeS d.toNat (BitVec.ofNat 64 x)))) s

end Sys2Proof.Machine
end

