-- ==== Sys2Proof/Machine/Groups.lean ====
section
/-! DEFINITION. Groups and their banks (chapter 05): launch records (R65), placing (R69, R70), freeing and
scrubbing a bank (R77), the end of a group (R73, R76) and kills. -/

namespace Sys2Proof.Machine

open Sys2Proof Host

/-! ### Launch records (R65) -/

def recText (r : List Byte) : Nat := leAt r 0 8
def recWords (r : List Byte) : Nat := leAt r 8 4
def recArgs (r : List Byte) : Nat := leAt r 12 8
def recT (r : List Byte) : Nat := leAt r 20 1
def recC (r : List Byte) : Nat := leAt r 21 1
def recL (r : List Byte) : Nat := leAt r 22 1
def recD (r : List Byte) : Nat := leAt r 23 1
def recPrio (r : List Byte) : Nat := leAt r 24 1
def recTokens (r : List Byte) : Nat := leAt r 25 1
def recCkpt (r : List Byte) : Bool := bitAt (leAt r 26 2) 0
def recKill (r : List Byte) : Bool := bitAt (leAt r 26 2) 1
def recEta (r : List Byte) : Nat := leAt r 28 8
def recLine (r : List Byte) : Nat := leAt r 36 8
def recWheel (r : List Byte) : Nat := Nat.max 1 (bitsOf (leAt r 44 2) 2 0)
def recSplit (r : List Byte) : Nat := bitsOf (leAt r 46 2) 5 0
def recCores (r : List Byte) : Nat := recC r * recL r * recD r
def recTasks (r : List Byte) : Nat := recT r * recCores r

/-- Every field is within its limits and every reserved bit is zero; `dies` is the number of dies of the
launching device. -/
def recordOk (r : List Byte) (dies : Nat) : Bool :=
  decide (recText r % 4 = 0) && decide (1 ≤ recWords r ∧ recWords r ≤ 32768) &&
  decide (1 ≤ recT r ∧ recT r ≤ 2) && decide (1 ≤ recC r ∧ recC r ≤ 8) &&
  decide (1 ≤ recL r ∧ recL r ≤ 16) && decide (1 ≤ recD r ∧ recD r ≤ dies) && decide (recPrio r ≤ 7) &&
  decide (leAt r 26 2 < 4) && decide (recLine r % 64 = 0) && decide (leAt r 44 2 ≤ 4) &&
  decide (1 ≤ leAt r 46 2 ∧ leAt r 46 2 ≤ (if recT r = 2 then 24 else 48)) && decide (leAt r 48 16 = 0)

/-! ### The Chanter's records -/

/-- Replaces a group. -/
def State.putGroup (s : State) (g : Group) : State :=
  { s with chanter := { s.chanter with groups := KV.put s.chanter.groups g.id g } }

/-- Forgets a group. -/
def State.dropGroup (s : State) (id : Nat) : State :=
  { s with chanter := { s.chanter with groups := KV.erase s.chanter.groups id } }

/-- The banks that hold a group's tasks now. -/
def State.held (s : State) (g : Group) : List Nat :=
  g.members.filter (fun b => ! g.kept.contains b && decide ((s.bank b).place.group = g.id) &&
    (match (s.bank b).status with
     | .placed => true
     | .filled => true
     | .live => true
     | .stopped => true
     | _ => false))

/-- The groups for which a bank is kept until it is freed (R72). -/
def State.keepers (s : State) (b : Nat) : List Group :=
  (s.chanter.groups.filter (fun g => ! g.2.closed && g.2.kept.contains b)).map (·.2)

/-- The one of them that the bank goes to: the one admitted first. -/
def State.keeper (s : State) (b : Nat) : Option Group :=
  match s.keepers b with
  | [] => none
  | g :: rest => some (rest.foldl (fun m h => if h.id % 2 ^ 46 < m.id % 2 ^ 46 then h else m) g)

/-- The banks of a group whose tasks have not ended: those that hold them, and those kept for them. -/
def State.open_ (s : State) (g : Group) : List Nat := s.held g ++ g.kept

/-- The cores of some banks, each once. -/
def coresOf (bs : List Nat) : List Nat :=
  bs.foldl (fun cs b => if cs.contains (coreOf b) then cs else cs ++ [coreOf b]) []

/-- Cores that an interface holds (R66 check 5), each counted once. -/
def State.coresHeld (s : State) (vi : Nat) : Nat :=
  (coresOf ((s.chanter.groups.filter (fun g => decide (g.2.vi = vi) && ! g.2.closed)).flatMap
    (fun g => s.open_ g.2))).length

/-- Adds to an interface's balance of priority tokens (R72, R73, R81). DESIGN CHOICE (log entry 112): a balance that
would pass the 24 bits of CHTOK saturates. -/
def State.addTokens (s : State) (vi n : Nat) : State := s.setBalance vi (Nat.min (2 ^ 24 - 1) (s.balance vi + n))

/-- Deducts tokens; a balance never falls below zero. -/
def State.spendTokens (s : State) (vi n : Nat) : State := s.setBalance vi (s.balance vi - n)

/-- An interrupt to the system cores, by the number of its source: 1 a batch (R151), 2 save slots (R79), 3
temperature (R116). -/
def State.irq (s : State) (n : Nat) : State :=
  { s with faults := { s.faults with irqs := s.faults.irqs ++ [n] } }

/-! ### The mirror (R68) -/

/-- The Chanter's mirror holds a bank as idle. -/
def State.mirrorIdle (s : State) (b : Nat) : Bool := KV.get true s.chanter.idle b

/-- The scratchpad units that the mirror holds as taken by a bank. -/
def State.mirrorUnits (s : State) (b : Nat) : Nat := KV.get 0 s.chanter.units b

/-- Sets the mirror of a bank. -/
def State.setMirror (s : State) (b : Nat) (idle : Bool) (units : Nat) : State :=
  { s with chanter := { s.chanter with idle := KV.put s.chanter.idle b idle
                                       units := KV.put s.chanter.units b units } }

/-- The scratchpad units that a bank takes: its window's, and those of the windows that will follow it. -/
def State.unitsOf (s : State) (b : Nat) : Nat :=
  let B := s.bank b
  Nat.max (if B.status = .idle then 0 else B.place.split)
    (((s.keepers b).map (fun g => recSplit g.record)).foldl Nat.max 0)

/-- RESOURCE_REPORT (R68): the reporter of die `input.who` sends the state of its cores. -/
def State.report (s : State) (die : Nat) : State :=
  (List.range 256).foldl (fun s i =>
    let b := 256 * die + i
    s.setMirror b (decide ((s.bank b).status = .idle) && (s.keeper b).isNone) (s.unitsOf b)) s

/-- RESOURCE_REPORT (R68). -/
def execResourceReport (s : State) : Outcome State Fault Refusal := .next (s.report s.input.who)

/-! ### Placing a bank (R70) -/

/-- First byte of the scratchpad window of a bank with `split` units. -/
def windowLo (b split : Nat) : Nat := if b % 2 = 0 then 0 else 786432 - split * 16384

/-- The Chanter sets a placed bank's window, wheel positions and ETA, and asks for the core's ring slots. -/
def State.placeBank (s : State) (g : Group) (b rank : Nat) : State :=
  let r := g.record
  let B : Bank := { Bank.idle with status := .placed }
  let p : Placement := { group := g.id, vi := g.vi, rank := rank, tasks := recTasks r, shape := leAt r 20 4,
                         args := BitVec.ofNat 64 (recArgs r), wheel := recWheel r, split := recSplit r }
  let lo := windowLo b (recSplit r)
  let B := ((B.csrPut csrSPBASE (BitVec.ofNat 64 lo)).csrPut csrSPLIM
    (BitVec.ofNat 64 (lo + recSplit r * 16384))).csrPut csrETA (BitVec.ofNat 64 (recEta r))
  ((s.setBank b { B with place := p }).setMirror b false (recSplit r)).schedule .slotAllocatorRequest
    { Input.none with who := coreOf b }

/-! ### Freeing a bank (R47, R77, R92, R99, R373) -/

/-- A write was made by a bank. -/
def Write.madeBy (w : Write) (b : Nat) : Bool :=
  match w.writer with
  | .ctl c => decide (c = b)
  | .granule c _ => decide (c = b)
  | .other => false

/-- A write of a bank that is freed still takes place: it has its place in coherence order, or nothing of its
task holds it back. -/
def State.outlives (s : State) (w : Write) : Bool := ! w.scr && (w.ord.isSome || s.writeReady w)

/-- The writes that a freed bank leaves in flight: their names and the dies they come from. -/
def State.leftWrites (s : State) (b : Nat) : List (Nat × Nat) :=
  (s.writes.filter (fun w => w.madeBy b && s.outlives w)).map (fun w => (w.id, w.die))

/-- A freed bank's writes: those that take place go on as no task's, the rest are gone. -/
def State.orphanWrites (s : State) (b : Nat) : State :=
  { s with writes := (s.writes.filter (fun w => ! w.madeBy b || s.outlives w)).map (fun w =>
      if w.madeBy b then { w with writer := .other, acq := none } else w) }

/-- A faulter is a bank's. -/
def Faulter.ofBank (b : Nat) : Faulter → Bool
  | .ctl c => decide (c = b)
  | .granule c _ => decide (c = b)
  | _ => false

/-- Changes the faulters of every fault collected and not answered. -/
def State.mapFaulters (s : State) (f : List Faulter → List Faulter) : State :=
  let fe := fun (e : FaultEntry) => { e with faulters := f e.faulters }
  let fb := fun (x : Batch) => { x with ranges := x.ranges.map (fun r => { r with faulters := f r.faulters }) }
  { s with faults := { s.faults with
      dies := s.faults.dies.map (fun d => (d.1, { d.2 with entries := d.2.entries.map fe
                                                           waiting := d.2.waiting.map fe }))
      closed := s.faults.closed.map fb
      delivered := s.faults.delivered.map fb } }

/-- A faulter waits on some fault that is not answered. -/
def State.hasFaulter (s : State) (f : Faulter) : Bool :=
  s.faults.dies.any (fun d => (d.2.entries ++ d.2.waiting).any (fun e => e.faulters.contains f)) ||
  (s.faults.closed ++ s.faults.delivered).any (fun b => b.ranges.any (fun r => ! r.answered && r.faulters.contains f))

/-- The jobs of a bank at every instance are gone (R99). -/
def State.dropJobs (s : State) (b : Nat) : State :=
  let own := fun (j : Job) => j.asker.same (.bank b)
  { s with svc := { s.svc with inst := s.svc.inst.map (fun kx =>
      if entryKind kx.1 = 5 then kx
      else (kx.1, (kx.2.jobs.filter own).foldl (fun x j => x.dropJob j.number) (s.inst kx.1))) } }

/-- A delivery that a bank posted raises no flag any more. -/
def Delivery.forget (d : Delivery) (b : Nat) : Delivery :=
  match d.sender with
  | some (c, _) => if c = b then { d with sender := some (c, 16) } else d
  | none => d

/-- The deliveries that a bank posted are abandoned. -/
def State.abandonPosts (s : State) (b : Nat) : State :=
  s.parcels.deliveries.foldl (fun s d => match d.sender with
    | some (c, _) => if c = b then s.abandonDelivery d else s
    | none => s) s

/-- What a bank has with agents outside it is gone: request slots and retries, jobs, tries and holds, its
region, the launch it asks for, its deliveries and their flags, its faults. -/
def State.detach (s : State) (b : Nat) : State :=
  let s := ((s.core (coreOf b)).slots.filter (fun x => x.2.bank = b)).foldl
    (fun s x => s.updCore (coreOf b) (·.returnSlot x.1)) s
  let s := { s with
    fab := { s.fab with retries := s.fab.retries.filter (fun r => r.bank ≠ b) }
    chanter := { s.chanter with queue := s.chanter.queue.filter (fun l => ! l.asker.same (.bank b)) }
    parcels := { s.parcels with deliveries := s.parcels.deliveries.map (fun d => Delivery.forget d b) } }
  let s := ((s.mapFaulters (fun fs => fs.filter (fun f => ! f.ofBank b))).endRegion b false)
  ((s.abandonPosts b).dropJobs b).dropRequester b

/-- A bank is freed and its scrub starts. -/
def State.freeBank (s : State) (b : Nat) (st : BankStatus) : State :=
  let s := (s.orphanWrites b).detach b
  let s := s.updBank b (fun B =>
    { B with status := st, out := Outstanding.none, trap := TrapState.none, vec := [],
             mat := { B.mat with window := [] }, xfer := { B.xfer with window := [] } })
  (s.pumpCore (coreOf b)).schedule .slotAllocatorRequest { Input.none with who := coreOf b }

/-! ### The end of a group (R73, R76) -/

/-- The tokens paid for a victim return to the payer. -/
def State.refund (s : State) (g : Group) : State :=
  if g.leave = .stay ∨ g.paid = 0 then s else (s.addTokens g.payer g.paid).putGroup { g with paid := 0 }

/-- Every write in a list has been performed at module scope of the interface's device (R183). -/
def State.marksDone (s : State) (vi : Nat) (marks : List (Nat × Nat)) : Bool :=
  marks.all (fun m => s.writes.all (fun w => decide (w.id ≠ m.1) ||
    (s.scopeDies vi m.2 4).all (fun d => w.dies.contains d)))

/-- The completion line (R76). -/
def lineBytes (gid kind reason ended ns : Nat) : List Byte :=
  leBytes 8 gid ++ leBytes 1 kind ++ leBytes 1 reason ++ leBytes 2 0 ++ leBytes 4 ended ++ leBytes 8 ns ++
    List.replicate 40 0

/-- A page through which the Chanter reads text or writes a completion line (R75): LOCAL, MIGRATE, or PARCEL
under an OPEN entry. -/
def State.chanterPage (s : State) (vi va : Nat) : Xlat → Option Nat
  | .phys pa m => if m ≠ 4 ∨ s.parcelOpen vi va = true then some pa else none
  | _ => none

/-- The Chanter writes a group's completion line, with release at module scope; a fault leaves it unwritten, as does an
address that is not in the tenant's space (R139). DESIGN CHOICE (log entry 113): a page that `chanterPage` refuses
leaves it unwritten too. -/
def State.writeLine (s : State) (g : Group) : State :=
  let g := { g with lineDone := true, marks := [] }
  let kind := if g.killed.isSome then 4 else 3
  let line := recLine g.record
  if line = 0 ∨ 2 ^ 57 ≤ line then s.putGroup g
  else
    let (s, x) := s.translate none false g.vi line .write
    match s.chanterPage g.vi line x with
    | none => s.putGroup g
    | some pa =>
      let id := s.nextId
      let bs := lineBytes g.id kind (g.killed.getD 0) g.ended (s.time / 1000)
      ((s.markDirty g.vi line 64).issueQueued g.vi { WriteTag.other 4 with rel := some 4, mark := some (g.vi, line) }
        [(pa, bs)]).putGroup { g with marks := [(id, 4)] }

/-- The entry of a group's end (R57): kind 3, or kind 4 with the reason. -/
def State.writeEnd (s : State) (g : Group) : State :=
  let kind := if g.killed.isSome then 4 else 3
  if g.owed then
    ((s.complete g.vi kind g.window (g.killed.getD 0) g.seq g.id (recLine g.record)).unreserve g.vi).dropGroup g.id
  else s.dropGroup g.id

/-- Takes the end of a group as far as its writes let it. -/
def State.finishGroup (s : State) (id : Nat) : State :=
  match s.group id with
  | none => s
  | some g =>
    if ! g.closed || ! s.marksDone g.vi g.marks then s
    else if g.lineDone then s.writeEnd g
    else
      let s := s.writeLine g
      match s.group id with
      | some h => if h.marks.isEmpty then s.writeEnd h else s
      | none => s

/-- Takes the end of every group as far as it goes. -/
def State.finishGroups (s : State) : State :=
  s.chanter.groups.foldl (fun s g => s.finishGroup g.1) s

/-- Frees a bank of a group; the group's end waits for the writes that the bank leaves. -/
def State.freeOf (s : State) (id b : Nat) (st : BankStatus) : State :=
  let left := s.leftWrites b
  let s := s.freeBank b st
  match s.group id with
  | some g => s.putGroup { g with marks := g.marks ++ left }
  | none => s

/-- GROUP_KILL (R73, R76): every task of a group stops; the group has ended with a reason. Tokens paid for a
victim return where a trap or the watchdog killed it. -/
def State.killGroup (s : State) (id reason : Nat) : State :=
  match s.group id with
  | none => s
  | some g =>
    if g.closed then s
    else
      let banks := s.held g
      let s := s.putGroup { g with closed := true, killed := some reason, kept := [] }
      let s := banks.foldl (fun s b => s.freeOf id b .scrubbing) s
      let s := if reason ≠ 0 then
          (match s.group id with | some h => s.refund h | none => s) else s
      s.finishGroups

/-- A task of a bank has ended and every command of it is complete (R76). -/
def State.taskDone (s : State) (b : Nat) : Bool :=
  let B := s.bank b
  decide (B.status = .live) && ! isSys b &&
    [Strand.c, .v, .m, .x].all (fun e => B.stoppedAtEnd e) && ! B.trap.handler && B.trap.pending.isEmpty &&
    B.vec.isEmpty && B.mat.window.isEmpty && B.xfer.window.isEmpty && B.out.acc.isEmpty &&
    B.out.scop.isNone && B.out.tkt.isEmpty && B.out.intrs.isEmpty && B.out.splits.isEmpty &&
    s.writes.all (fun w => ! w.madeBy b || (! w.scr && w.ord.isSome)) && ! s.hasJob b && ! s.hasDelivery b

/-- A task ends normally; the last one ends its group. -/
def State.endTask (s : State) (b : Nat) : State :=
  let id := (s.bank b).place.group
  let s := s.freeOf id b .ended
  match s.group id with
  | none => s
  | some g =>
    let g := { g with ended := g.ended + 1 }
    if g.ended < recTasks g.record then s.putGroup g
    else
      let g := { g with closed := true }
      (s.putGroup g).refund g

/-- TASK_END (R76): the task of bank `input.who` ends once it is done; and the ends of groups go on as far as
their writes are performed (R57). -/
def execTaskEnd (s : State) : Outcome State Fault Refusal :=
  let b := s.input.who
  let s := if s.taskDone b then s.endTask b else s
  .next s.finishGroups

/-- Zeroes the bytes of a scratchpad from `lo` up to `hi`. -/
def Memory.zero (m : Memory) (lo hi : Nat) : Memory := m.filter (fun c => decide (c.1 < lo ∨ hi ≤ c.1))

/-- SCRUB_COMPLETE (R77): bank `input.who` and its window are zero, and the choice of each engine of the core starts with
bank 0 again (R123). A bank kept for a newcomer goes to it
(R72); else its reporter reports it idle. -/
def execScrubComplete (s : State) : Outcome State Fault Refusal :=
  let b := s.input.who
  let B := s.bank b
  .next (
    if B.status ≠ .scrubbing ∧ B.status ≠ .ended then s
    else
      let base := coreOf b * 2 ^ 20
      let s := { s with scr := s.scr.zero (base + (B.csrGet csrSPBASE).toNat) (base + (B.csrGet csrSPLIM).toNat) }
      let s := (s.setBank b Bank.idle).updCore (coreOf b) (fun c => { c with turn := [] })
      match s.keeper b with
      | some g =>
        (s.putGroup { g with kept := g.kept.filter (· ≠ b) }).placeBank { g with kept := [] } b
          (g.members.idxOf b)
      | none => s.schedule .resourceReport { Input.none with who := dieOf b })

end Sys2Proof.Machine
end

