-- ==== Sys2Proof/Machine/Chanter.lean ====
section
/-! DEFINITION. The Chanter's decisions (chapter 05): placement (R69), victims (R71, R72), a launch's decision
(R66), drains and the watchdog (R73, R74), loading and start (R75). -/

namespace Sys2Proof.Machine

open Sys2Proof Host

/-! ### Sorting -/

/-- Inserts into a sorted list, after equals. -/
def insertBy {α : Type} (lt : α → α → Bool) (x : α) : List α → List α
  | [] => [x]
  | y :: rest => if lt x y then x :: y :: rest else y :: insertBy lt x rest

/-- Sorts a list, equals in their order. -/
def sortBy {α : Type} (lt : α → α → Bool) : List α → List α
  | [] => []
  | x :: rest => insertBy (fun a b => ! lt b a) x (sortBy lt rest)

/-- Pairs in lexicographic order. -/
def pairLt (a b : Nat × Nat) : Bool := decide (a.1 < b.1 ∨ (a.1 = b.1 ∧ a.2 < b.2))

/-- Lists of numbers in lexicographic order. -/
def listLt : List Nat → List Nat → Bool
  | _, [] => false
  | [], _ :: _ => true
  | a :: as_, b :: bs => decide (a < b) || (decide (a = b) && listLt as_ bs)

/-- Every sublist. -/
def sublistsOf {α : Type} : List α → List (List α)
  | [] => [[]]
  | x :: rest => let r := sublistsOf rest; r ++ r.map (x :: ·)

/-! ### Placement (R69) -/

/-- A bank holds a task of its group, or is placed for one: one whose task has ended does not (R68, R77). -/
def Bank.holdsTask (B : Bank) : Bool :=
  match B.status with
  | .placed | .filled | .live | .stopped => true
  | _ => false

/-- A bank that is taken is free once a set of victims has left: every newcomer that waits for it is one of them, or,
where none waits, the group whose task it holds (R72). -/
def State.freedBy (s : State) (victims : List Nat) (b : Nat) : Bool :=
  match s.keepers b with
  | [] => (s.bank b).holdsTask && victims.contains (s.bank b).place.group
  | gs => gs.all (fun g => victims.contains g.id)

/-- A bank counts as idle, the banks of a set of victims among them (R72). -/
def State.idleFor (s : State) (victims : List Nat) (b : Nat) : Bool := s.mirrorIdle b || s.freedBy victims b

/-- The idle banks of a core. -/
def State.idleBanks (s : State) (victims : List Nat) (core : Nat) : List Nat :=
  [2 * core, 2 * core + 1].filter (s.idleFor victims)

/-- Free scratchpad units of a core. -/
def State.freeUnits (s : State) (victims : List Nat) (core : Nat) : Nat :=
  48 - (([2 * core, 2 * core + 1].filter (fun b => ! s.idleFor victims b)).map s.mirrorUnits).foldl (· + ·) 0

/-- A core qualifies for tasks of `t` a core and `split` units each. -/
def State.qualifies (s : State) (victims : List Nat) (t split core : Nat) : Bool :=
  decide (t ≤ (s.idleBanks victims core).length) && decide (t * split ≤ s.freeUnits victims core)

/-- The cores of a cluster that qualify. -/
def State.goodCores (s : State) (victims : List Nat) (t split cl : Nat) : List Nat :=
  ((List.range 8).map (fun i => 8 * cl + i)).filter (s.qualifies victims t split)

/-- The first `n` of a list of numbered candidates with counts, by count and then number, in the order of
their numbers (R69). -/
def fewest (n : Nat) (xs : List (Nat × Nat)) : List Nat :=
  (sortBy (fun a b : Nat => decide (a < b)) ((sortBy pairLt xs).map (·.2) |>.take n))

/-- The clusters of a die that qualify, each with its count of qualifying cores. -/
def State.goodClusters (s : State) (victims : List Nat) (t c split die : Nat) : List (Nat × Nat) :=
  (((List.range 16).map (fun i => 16 * die + i)).map (fun cl =>
    ((s.goodCores victims t split cl).length, cl))).filter (fun x => decide (c ≤ x.1))

/-- The dies that qualify, each with its count of qualifying cores. -/
def State.goodDies (s : State) (victims : List Nat) (t c l split : Nat) (dies : List Nat) : List (Nat × Nat) :=
  (dies.filter (fun d => decide (l ≤ (s.goodClusters victims t c split d).length))).map (fun d =>
    ((((List.range 16).map (fun i => (s.goodCores victims t split (16 * d + i)).length)).foldl (· + ·) 0), d))

/-- The cores chosen in a cluster: with one task a core, cores whose other bank is in use first. -/
def State.chooseCores (s : State) (victims : List Nat) (t c split cl : Nat) : List Nat :=
  let key := fun g => if t = 1 ∧ (s.idleBanks victims g).length = 2 then 1 else 0
  fewest c ((s.goodCores victims t split cl).map (fun g => (key g, g)))

/-- The banks of a core that its tasks take. -/
def State.chooseBanks (s : State) (victims : List Nat) (t core : Nat) : List Nat :=
  (s.idleBanks victims core).take t

/-- PLACEMENT (R69): the banks of a group in rank order, if there is a placement. -/
def State.placement (s : State) (victims : List Nat) (r : List Byte) (dies : List Nat) : Option (List Nat) :=
  let ds := s.goodDies victims (recT r) (recC r) (recL r) (recSplit r) dies
  if ds.length < recD r then none
  else
    some ((fewest (recD r) ds).flatMap (fun d =>
      (fewest (recL r) (s.goodClusters victims (recT r) (recC r) (recSplit r) d)).flatMap (fun cl =>
        (s.chooseCores victims (recT r) (recC r) (recSplit r) cl).flatMap (s.chooseBanks victims (recT r)))))

/-! ### Victims (R71, R72) -/

/-- The ETA of a task of a group. -/
def State.etaOf (s : State) (g : Group) (b : Nat) : Nat :=
  if (s.held g).contains b && decide ((s.bank b).status = .live ∨ (s.bank b).status = .stopped) then ((s.bank b).csrGet csrETA).toNat
  else recEta g.record

/-- A group drains in time (R71). -/
def State.drains (s : State) (g : Group) : Bool :=
  let d := bitsOf (s.hubReg offCHCFG) 15 0
  decide (d ≠ 0) && (s.open_ g).all (fun b => decide (s.etaOf g b ≤ d * s.mhz (clusterOf b)))

/-- A save slot is locked (R79). -/
def State.slotLocked (s : State) (b : Nat) : Bool := bitAt (s.hubReg (offCHLOCK (b / 64))) (b % 64)

/-- A group meets the conditions of the checkpoint class (R71). -/
def State.canCheckpoint (s : State) (g : Group) : Bool :=
  recCkpt g.record && bitAt (s.hubReg offCHSAVE) 0 && (s.open_ g).all (fun b => ! s.slotLocked b)

/-- The class of a group for a newcomer of a priority, and its cost (R71); none is no victim. -/
def State.classOf (s : State) (prio : Nat) (g : Group) : Option (Leave × Nat) :=
  if prio ≤ recPrio g.record ∨ g.leave ≠ .stay ∨ g.closed = true then none
  else if s.drains g then some (.drain, 0)
  else if s.canCheckpoint g then some (.checkpoint, (coresOf (s.open_ g)).length)
  else if recKill g.record then some (.kill, 4 * (coresOf (s.open_ g)).length)
  else none

/-- A victim: its group, how it leaves and its cost. -/
structure Victim where
  id : Nat
  leave : Leave
  cost : Nat
deriving DecidableEq, Repr

/-- The possible victims of a launch. -/
def State.victims (s : State) (prio : Nat) (dies : List Nat) : List Victim :=
  s.chanter.groups.filterMap (fun g =>
    if (s.open_ g.2).any (fun b => dies.contains (dieOf b)) then
      (s.classOf prio g.2).map (fun c => { id := g.2.id, leave := c.1, cost := c.2 })
    else none)

/-- A placement and the victims that make room for it. -/
structure Plan where
  cost : Nat
  victims : List Victim
  banks : List Nat
deriving DecidableEq, Repr

/-- The cost of a set of victims. -/
def costOf (vs : List Victim) : Nat := (vs.map (·.cost)).foldl (· + ·) 0

/-- How R69 ranks a placement under a set of victims, in the order in which it takes them: the dies by their qualifying
cores and number, the clusters of each, then the cores of each by whether their other bank is in use and number. -/
def State.planRank (s : State) (r : List Byte) (p : Plan) : List Nat :=
  let vs := p.victims.map (·.id)
  let good := fun cl => (s.goodCores vs (recT r) (recSplit r) cl).length
  let once := fun (xs : List Nat) => xs.foldl (fun ys x => if ys.contains x then ys else ys ++ [x]) []
  let dies := once (p.banks.map dieOf)
  let clusters := once (p.banks.map clusterOf)
  let key := fun g => if recT r = 1 ∧ (s.idleBanks vs g).length = 2 then 1 else 0
  let ds := sortBy pairLt (dies.map (fun d => (((List.range 16).map (fun i => good (16 * d + i))).foldl (· + ·) 0, d)))
  let cls := ds.flatMap (fun d => sortBy pairLt ((clusters.filter (fun cl => decide (cl / 16 = d.2))).map
    (fun cl => (good cl, cl))))
  let cs := cls.flatMap (fun cl => sortBy pairLt (((coresOf p.banks).filter (fun g => decide (g / 8 = cl.2))).map
    (fun g => (key g, g))))
  (ds ++ cls ++ cs).flatMap (fun x => [x.1, x.2])

/-- The order in which R72 chooses among sets of victims: cost, number, R69's preference, the banks in rank order. -/
def State.planBetter (s : State) (r : List Byte) (a b : Plan) : Bool :=
  if a.cost ≠ b.cost then decide (a.cost < b.cost)
  else if a.victims.length ≠ b.victims.length then decide (a.victims.length < b.victims.length)
  else
    let x := s.planRank r a
    let y := s.planRank r b
    if x ≠ y then listLt x y else listLt a.banks b.banks

/-- VICTIM_SELECTION (R72): the placement of check 6 of R66, on idle banks, else with the best set of
victims. -/
def State.plan (s : State) (r : List Byte) (dies : List Nat) : Option Plan :=
  match s.placement [] r dies with
  | some bs => some { cost := 0, victims := [], banks := bs }
  | none =>
    ((sublistsOf (s.victims (recPrio r) dies)).filterMap (fun vs =>
      (s.placement (vs.map (·.id)) r dies).map (fun bs =>
        ({ cost := costOf vs, victims := vs, banks := bs } : Plan)))).foldl
      (fun best p => match best with
        | none => some p
        | some q => if s.planBetter r p q then some p else some q) none

/-! ### Deciding a launch (R66, R67) -/

/-- The dies of the device that a launch belongs to (R21). -/
def State.launchDies (s : State) (l : Launch) : List Nat :=
  let view := s.viewOf l.vi
  match l.asker with
  | .window _ w =>
    s.deviceDies view (if view = 0 then 0 else if view = 1 then 2 * w else s.present.getD w 4)
  | .bank b => s.deviceDies view (dieOf b)
  | .peer .. => []

/-- The interface's pre-copy job is in STOPPING or FINAL (R64). -/
def State.migrating (s : State) (vi : Nat) : Bool :=
  match (s.ifc vi).precopy with
  | some p => decide (p.phase = .stopping ∨ p.phase = .final)
  | none => false

/-- The reason for which R66 refuses a launch before it looks for a placement; 0 for none. -/
def State.launchCheck (s : State) (l : Launch) (dies : List Nat) : Nat :=
  let r := l.record
  let v := s.ifc l.vi
  let cfg := s.hubReg (offVICFG l.vi)
  let byTask := match l.asker with | .bank _ => true | _ => false
  if s.migrating l.vi then 6
  else if ! recordOk r dies.length then 1
  else if bitsOf cfg 114 112 < recPrio r then 2
  else if byTask && (! v.cqOn || decide (v.free - v.reserved < 2)) then 8
  else if Nat.min 512 (bitsOf cfg 124 115) < s.coresHeld l.vi + recCores r then 3
  else 0

/-- A victim is marked pending pre-emption (R72, R73). -/
def State.mark (s : State) (payer : Nat) (v : Victim) : State :=
  match s.group v.id with
  | none => s
  | some g => s.putGroup { g with leave := v.leave, since := s.time, payer := payer, paid := v.cost }

/-- A task that waits at a yield point stops at once (R73). -/
def State.stopWaiting (s : State) (b : Nat) : State :=
  let B := s.bank b
  if B.mayStop && B.atHeader then s.stopTask b else s

/-- The tasks of a group that wait at a yield point stop. -/
def State.stopGroup (s : State) (id : Nat) : State :=
  match s.group id with
  | none => s
  | some g => (s.held g).foldl (fun s b => s.stopWaiting b) s

/-- The count of a task of a group has reached WDOG in the present ac (R74). -/
def State.barkedNow (s : State) (id : Nat) : Bool :=
  match s.group id with
  | some g => (s.held g).any (fun b => (s.bank b).now.barked)
  | none => false

/-- What a victim's class brings about at once. -/
def State.press (s : State) (v : Victim) : State :=
  if s.barkedNow v.id then s.killGroup v.id 0x10
  else match v.leave with
    | .kill => s.killGroup v.id 0
    | .checkpoint => s.stopGroup v.id
    | _ => s

/-- A group as it is admitted. -/
def Launch.group (l : Launch) (id : Nat) (banks kept : List Nat) (release : Option Nat) : Group :=
  { id := id, vi := l.vi, window := l.window, seq := l.seq,
    record := l.record, members := banks,
    leave := .stay, since := 0, late := false, payer := 0, paid := 0, ended := 0, killed := none, sequence := 0, text := [],
    loaded := false, reading := none, release := release, closed := false, marks := [], lineDone := false, kept := kept, owed := true }

/-- The group identifier of an admission (R66). -/
def State.groupId (s : State) (vi : Nat) : Nat :=
  s.boot.moduleNo * 2 ^ 54 + vi * 2 ^ 46 + s.chanter.serial % 2 ^ 46

/-- Places the banks of a new group that are idle, and keeps the others (R68, R72). -/
def State.settleGroup (s : State) (g : Group) : State :=
  let s := s.putGroup g
  g.members.foldl (fun s b =>
    if g.kept.contains b then s.setMirror b false (s.unitsOf b)
    else s.placeBank g b (g.members.idxOf b)) s

/-- An admission: what R66, R67 and R72 give. -/
def State.admitLaunch (s : State) (l : Launch) (release : Option Nat) (p : Plan) : State × Nat :=
  let id := s.groupId l.vi
  let kept := p.banks.filter (fun b => ! s.mirrorIdle b)
  let s := s.spendTokens l.vi p.cost
  let s := p.victims.foldl (fun s v => s.mark l.vi v) s
  let s := { s with chanter := { s.chanter with serial := s.chanter.serial + 1
                                                pointer := (l.vi + 1) % 256 } }
  let s := s.settleGroup (l.group id p.banks kept release)
  let s := s.updIfc l.vi (fun v => { v with reserved := v.reserved + 1 })
  (p.victims.foldl (fun s v => s.press v) s, id)

/-- A launch is told its decision: the identifier of its group, or a reason. -/
def State.tellLaunch (s : State) (l : Launch) (admitted : Bool) (x : Nat) : State :=
  let s := if admitted then s.requestAdmitted l.asker 8 instChanter
           else s.requestRefused l.asker 8 (match l.asker with | .bank b => (s.bank b).esc | _ => 4)
             (some instChanter) l.vi 1
  match l.asker with
  | .bank b => s.decide_ b (if admitted then .admitted (BitVec.ofNat 64 x) else .refused (BitVec.ofNat 64 x))
  | .window v w =>
    s.complete v (if admitted then 1 else 2) w (if admitted then 0 else x) l.seq (if admitted then x else 0)
      (recLine l.record)
  | .peer .. => s

/-- A launch leaves the Chanter, and its place frees (R386). -/
def State.leaveChanter (s : State) (l : Launch) : State :=
  let s := s.setInst instChanter ((s.inst instChanter).dropJob l.job)
  { s with chanter := { s.chanter with queue := s.chanter.queue.erase l } }

/-- Decides a launch by the checks of R66. -/
def State.decideLaunch (s : State) (l : Launch) : State :=
  let release := match l.asker, (s.inst instChanter).jobs.find? (fun j => j.number = l.job) with
    | .bank _, some j => some j.va
    | _, _ => none
  let s := s.leaveChanter l
  let dies := s.launchDies l
  let k := s.launchCheck l dies
  if k ≠ 0 then s.tellLaunch l false k
  else match s.plan l.record dies with
    | none => s.tellLaunch l false 4
    | some p =>
      if recTokens l.record < p.cost ∨ s.balance l.vi < p.cost then s.tellLaunch l false 5
      else
        let (s, id) := s.admitLaunch l release p
        s.tellLaunch l true id

/-- `l` is decided before `k`: the earlier ac, and within one ac the order of R67. -/
def State.launchFirst (s : State) (l k : Launch) : Bool :=
  let rank := fun (l : Launch) => match l.asker with | .bank b => 65536 + b | _ => l.window
  let vi := fun (l : Launch) => (l.vi + 256 - s.chanter.pointer) % 256
  if l.ac ≠ k.ac then decide (l.ac < k.ac)
  else if recPrio l.record ≠ recPrio k.record then decide (recPrio k.record < recPrio l.record)
  else if vi l ≠ vi k then decide (vi l < vi k)
  else decide (rank l < rank k)

/-- Every launch of an ac that can be decided stands in the queue: no try of it waits for its place any more. -/
def State.launchesIn (s : State) (ac : Nat) : Bool :=
  (s.openTries instChanter (s.inst instChanter)).all (fun t => decide (ac < t.cycle / 2))

/-- LAUNCH_DECISION (R66, R67): the Chanter decides the launch that is first. -/
def execLaunchDecision (s : State) : Outcome State Fault Refusal :=
  .next (match s.chanter.queue with
    | [] => s
    | l :: rest =>
      let l := rest.foldl (fun best k => if s.launchFirst k best then k else best) l
      if s.launchesIn l.ac then s.decideLaunch l else s)

/-! ### Drains and the watchdog (R73, R74) -/

/-- DRAIN_TIMEOUT (R73): a drained group, `input.sub`, has not ended when CHCFG.drain has passed: it is
treated as checkpoint if it meets that class's conditions at that moment, and else runs on. -/
def execDrainTimeout (s : State) : Outcome State Fault Refusal :=
  .next (match s.group s.input.sub with
    | none => s
    | some g =>
      let d := bitsOf (s.hubReg offCHCFG) 15 0
      if g.leave = .drain ∧ g.closed = false ∧ g.late = false ∧ d * 1000000 ≤ s.time - g.since then
        if s.canCheckpoint g then (s.putGroup { g with leave := .checkpoint }).stopGroup g.id
        else s.putGroup { g with late := true }
      else s)

/-- The watchdog interval of a bank (R289): 0 and values above 2^26 act as 2^26. -/
def Bank.watchLimit (B : Bank) : Nat :=
  let n := bitsOf (B.csrGet csrWDOG).toNat 31 0
  if n = 0 ∨ 2 ^ 26 < n then 2 ^ 26 else n

/-- The watchdog raises its trap, and the count restarts (R74). -/
def Bank.bark (B : Bank) : Bank :=
  ({ B.raisePrecise .c cWatchdog 0 with n := { B.n with watchdog := 0 } }).onNow (fun a => { a with barked := true })

/-- WATCHDOG_EXPIRY (R74): the count of bank `input.who` has reached WDOG. DESIGN CHOICE (log entry 114): a group that a
migration stops (R64) counts as pending pre-emption. -/
def execWatchdogExpiry (s : State) : Outcome State Fault Refusal :=
  let b := s.input.who
  let B := s.bank b
  .next (
    if B.status ≠ .live ∨ isSys b = true ∨ B.n.watchdog < B.watchLimit then s
    else
      match s.group B.place.group with
      | some g =>
        if g.leave ≠ .stay then s.killGroup g.id 0x10
        else s.updBank b Bank.bark
      | none => s.updBank b Bank.bark)

/-! ### Loading and start (R75) -/

/-- What the loader comes to: the whole text, a read that a memory port has not served, a fault, or a reason to kill the
group. -/
inductive Loaded where
  | text
  | more
  | fault (va : Nat) (k : FaultKind)
  | denied (code : Nat)
deriving DecidableEq, Repr

/-- Words of the text in one 4 KiB granule, from index `i` of `n`. -/
def wordsOf : Nat → List Byte → List (BitVec 32)
  | 0, _ => []
  | n + 1, bs => BitVec.ofNat 32 (ofLeBytes (bs.take 4)) :: wordsOf n (bs.drop 4)

/-- The part of a group's text that the loader reads next, within one granule: its address, and how many words it
holds. -/
def Group.nextText (g : Group) : Nat × Nat :=
  let va := (recText g.record + 4 * g.text.length) % 2 ^ 64
  (va, Nat.min (recWords g.record - g.text.length) ((4096 - va % 4096) / 4))

/-- Translates the next part of a group's text, and queues its read at the memory ports (R105); or what prevents it. -/
def State.askText (s : State) (g : Group) : State × Option Loaded :=
  let (va, k) := g.nextText
  if 2 ^ 57 ≤ va then (s, some (.denied cAccess))
  else match s.translate none false g.vi va .read with
    | (s, .fault f) => (s, some (.fault va f))
    | (s, x) =>
      match s.chanterPage g.vi va x with
      | none => (s, some (.denied cAccess))
      | some pa =>
        let id := s.nextId
        ((({ s with nextId := id + 1 } : State).enqueueAll g.vi id (spanLines64 [(pa, 4 * k)])).putGroup
          { g with reading := some (id, pa) }, none)

/-- Reads the text of a group, part by part, as far as the memory ports have served it; the fuel is twice the number of
granules that it can touch, and one. A granule that has been declared free yields poison, which kills the group with
MACHINE (R117; log entry 123). -/
def State.readText (s : State) (id : Nat) : Nat → State × Loaded
  | 0 => (s, .more)
  | fuel + 1 =>
    match s.group id with
    | none => (s, .more)
    | some g =>
      if g.nextText.2 = 0 then (s.putGroup { g with loaded := true, reading := none }, .text)
      else match g.reading with
        | none =>
          (match s.askText g with
           | (s, some r) => (s, r)
           | (s, none) => s.readText id fuel)
        | some (name, pa) =>
          if s.queued name then (s, .more)
          else if s.freeGranule pa then (s, .denied cMachine)
          else
            let k := g.nextText.2
            (s.putGroup { g with text := g.text ++ wordsOf k (s.see none 4 pa (4 * k)), reading := none }).readText id fuel

/-- The launching task's release has been applied on every die (R199, R279). -/
def State.releasedLaunch (s : State) (g : Group) : Bool :=
  match g.release with
  | some id => s.writes.all (fun w => decide (w.id ≠ id))
  | none => true

/-- The units that the other bank of a core takes leave room for a bank's window. -/
def State.windowFits (s : State) (b : Nat) : Bool :=
  let o := if b % 2 = 0 then b + 1 else b - 1
  let used := if (s.bank o).status = .idle then 0 else (s.bank o).place.split
  decide (used + (s.bank b).place.split ≤ 48)

/-- The start state of R75; the load token is sent. -/
def Bank.start (B : Bank) (ws : List (BitVec 32)) : Bank :=
  let p := B.place
  let r := ((Regs.zero.writeS 1 p.args).writeS 2 (BitVec.ofNat 64 p.rank)).writeS 3 (BitVec.ofNat 64 p.tasks)
  { B with status := .filled, text := (List.range ws.length).zip ws, words := ws.length, r := r }

/-- TEXT_PLANE_FILL (R75): the loader fills the plane of placed bank `input.who`, having read the text once
for the group. -/
def execTextPlaneFill (s : State) : Outcome State Fault Refusal :=
  let b := s.input.who
  .next (match s.group (s.bank b).place.group with
    | none => s
    | some g =>
      if (s.bank b).status ≠ .placed ∨ g.closed = true ∨ s.windowFits b = false ∨ s.releasedLaunch g = false ∨
          s.hasFaulter (.loader g.id) = true ∨ s.chanter.restore.any (fun x => x.1 = g.id) = true then s
      else if g.loaded then s.updBank b (·.start g.text)
      else
        match s.readText g.id 69 with
        | (s, .text) => s.updBank b (·.start (((s.group g.id).map (·.text)).getD []))
        | (s, .more) => s.schedule .textPlaneFill { Input.none with who := b }
        | (s, .fault va k) => s.collect 4 g.vi va k.bit (some (.loader g.id))
        | (s, .denied code) => s.killGroup g.id code)

/-- The command windows and queues of a bank are empty. -/
def Bank.quiet (B : Bank) : Bool :=
  B.mat.window.isEmpty && B.xfer.window.isEmpty && decide (B.q = Queues.empty)

/-- BANK_LIVE (R75): bank `input.who` holds its load token and goes live. -/
def execBankLive (s : State) : Outcome State Fault Refusal :=
  let b := s.input.who
  .next (
    if (s.bank b).status = .filled ∧ (s.bank b).quiet = true then
      s.updBank b (fun B => { B with status := .live, n := .zero, now := .none })
    else s)

end Sys2Proof.Machine
end

