-- ==== Sys2Proof/Machine/Contexts.lean ====
section
/-! DEFINITION. Context records (R78, R79) and restores (R80). -/

namespace Sys2Proof.Machine

open Sys2Proof Host

/-! ### Records (R78) -/

def magicFCTX : Nat := 0x58544346

/-- The bit of the CXL port in whose window the page of a leaf lies, 0 where it lies in none (R17). -/
def leafPort (level e : Nat) : Nat :=
  if leafRemote e || decide (leafBase level e < 2 ^ 42) then 0 else 2 ^ (leafBase level e / 2 ^ 42 - 1)

/-- The CXL ports whose windows the leaves under a table map, a bit for each. -/
def State.portsUnder (s : State) : Nat → Nat → Nat
  | 0, table => (List.range 512).foldl (fun m i =>
      let e := s.see64 4 (table + 8 * i)
      if bitAt e 0 && bitAt e 1 && s.leafOk 0 e then m ||| leafPort 0 e else m) 0
  | level + 1, table => (List.range 512).foldl (fun m i =>
      let e := s.see64 4 (table + 8 * i)
      if ! bitAt e 0 then m
      else if bitAt e 1 then (if s.leafOk (level + 1) e then m ||| leafPort (level + 1) e else m)
      else if s.pointerOk (level + 1) e then m ||| s.portsUnder level (leafPA e)
      else m) 0

/-- The CXL ports whose windows a tenant maps (R78). -/
def State.mappedPorts (s : State) (vi : Nat) : Nat :=
  let r := s.hubReg (offPTROOT vi)
  if bitAt r 0 then s.portsUnder 4 (bitsOf r 51 12 * 4096) % 16 else 0

/-- The capability field: the CXL ports that the tenant maps; fabric access is needed where the task has an open
ticket or holds a value in a g register (log entry 8); the view. -/
def State.capabilityOf (s : State) (vi : Nat) (B : Bank) : Nat :=
  s.mappedPorts vi + (if B.out.tkt.isEmpty && B.r.g.all (fun g => decide (g.2 = 0)) then 0 else 16) +
    32 * s.viewOf vi

/-- The header of a record with its tag. -/
def contextHeader (cap length sequence tag group rank shape : Nat) : List Byte :=
  leBytes 4 magicFCTX ++ leBytes 2 1 ++ leBytes 2 0 ++ leBytes 8 cap ++ leBytes 8 length ++
    leBytes 8 sequence ++ leBytes 16 tag ++ leBytes 8 group ++ leBytes 4 rank ++ leBytes 4 shape

/-- The most bytes that the body of a section of layout 1 takes. -/
def sectionMax (id : Nat) : Nat :=
  match id with
  | 1 => 2048
  | 2 => 16448
  | 3 => 131136
  | 4 => 532544
  | 5 => 2048
  | 6 => 86016
  | 7 => 4096
  | 8 => 786496
  | 9 => 2048
  | 10 => 131136
  | _ => 64

/-! ### What the sections hold (R78) -/

/-- A list with its length before it. -/
def counted (xs : List Nat) : List Nat := xs.length :: xs

/-- Numbers by register number, from `n` registers. -/
def inOrder (n : Nat) (f : Nat → Nat) : List Nat := (List.range n).map f

/-- An accumulator: the value and special state of each element, and the anchor, modulo 2^32. -/
def Acc.content (a : Acc) : List Nat :=
  (List.range 16384).flatMap (fun i =>
    let e := KV.get { v := 0, st := 0 } a.elems i
    [e.v.toNat, e.st.toNat]) ++ [(a.anchor % 2 ^ 32).toNat]

/-- A strand's place: its program counter, walk index, path FIFO and the prefix in force. -/
def Walker.content (w : Walker) : List Nat :=
  [w.pc, w.walk] ++ counted w.path ++ (match w.pfx with | some x => [1, x.toNat] | none => [0])

/-- A descriptor of mq. -/
def MqDesc.content (d : MqDesc) : List Nat := [d.base, d.rho, d.rowPitch, d.tilePitch]

/-- The queues, heads first; an entry of a load queue with the name of the access that fills it where its data has not
come. -/
def Queues.content (q : Queues) : List Nat :=
  (List.range 4).flatMap (fun k => counted ((KV.get [] q.lq k).flatMap (fun e =>
    match e.data with | some x => [1, x.toNat] | none => [0, e.access]))) ++
  (List.range 2).flatMap (fun k => counted ((KV.get [] q.sq k).map (·.toNat))) ++
  counted (q.cq.map (·.toNat)) ++ counted (q.vq.map (·.toNat)) ++ counted (q.oq.map (·.toNat)) ++
  counted (q.mq.flatMap MqDesc.content) ++ counted (q.xq.map (·.toNat))

/-- The staging fields of a transfer command. -/
def Staging.content (t : Staging) : List Nat :=
  [t.src.toNat, t.dst.toNat, t.shape.toNat, t.pitch.toNat, t.layout.toNat, t.ctr.toNat]

/-- A transfer command of the window. -/
def XferWin.content (c : XferWin) : List Nat :=
  [c.walk, c.dir, c.flag.getD 16, c.ord, c.scope, c.policy] ++ c.st.content

/-- The matrix state (R349). -/
def MatState.content (m : MatState) : List Nat :=
  [m.m, m.n, m.k, m.fa.toNat, m.fb.toNat] ++ inOrder 1024 (fun i => (KV.get 0 m.sa i).toNat) ++
  inOrder 1024 (fun i => (KV.get 0 m.sb i).toNat) ++
  [m.steps.toNat, m.rfail.toNat, m.suspect.toNat, if m.inject then 1 else 0, m.last.toNat] ++
  counted (m.window.map (fun c => (encode c.instr).toNat))

/-- The trap state: whether the bank is in handler mode, and the trap in hand. -/
def TrapState.content (t : TrapState) : List Nat :=
  [if t.handler then 1 else 0, t.taken.code, t.taken.strand.code, t.taken.walk, t.taken.pc, t.taken.tval.toNat,
    if t.taken.deferred then 1 else 0] ++
  (match t.pfx with | some x => [1, x.toNat] | .none => [0]) ++ counted t.skips

/-- An access that holds an open ticket. -/
def Access.content (a : Access) : List Nat :=
  (match a.op with
   | .ld => [0] | .ldz => [1] | .st => [2] | .amo fn => [3, fn] | .cas k => [4, k] | .ldq q => [5, q]
   | .desc => [6] | .fill => [7] | .ldref n _ => [8, n] | .mpush n => [9, n]) ++
  [a.walk, a.size, a.va, a.dst, a.x.toNat, a.y.toNat, ofLeBytes a.data, a.ord, a.scope, a.policy]

/-- An open entry of the ticket table. -/
def Ticket.content (t : Ticket) : List Nat :=
  [t.access, t.req.va, t.req.peer, t.req.off, t.req.token, t.req.size, if t.req.fill then 1 else 0,
    if t.req.cached then 1 else 0, t.owner, t.ownerInc, t.number, t.tkind]

/-- What a section of a bank holds, registers in the order of their numbers (R78). -/
def sectionContent (id : Nat) (B : Bank) : List Nat :=
  match id with
  | 1 => inOrder 64 (fun n => (B.r.readS n).toNat) ++ inOrder 64 B.r.binding ++
      inOrder 16 (fun k => if B.r.readP k then 1 else 0) ++ inOrder 8 (fun k => (B.r.readM k).toNat)
  | 2 => (List.range 32).flatMap (fun n => [(B.r.readV n).bits.toNat, (B.r.readV n).tag.toNat])
  | 3 => (List.range 8).flatMap (fun n => [(B.r.readT n).bits.toNat, (B.r.readT n).tag.toNat])
  | 4 => (B.r.readA 0).content ++ (B.r.readA 1).content
  | 5 => inOrder 16 (fun k => (B.r.readF k).toNat) ++ inOrder 68 (fun n => (B.csrGet n).toNat) ++
      inOrder 128 (fun k => KV.get 0 B.out.arrive k)
  | 6 => [Strand.c, .v, .m, .x].flatMap (fun e => (B.walker e).content) ++ B.q.content ++ B.mat.content ++
      B.xfer.staging.content ++ counted (B.xfer.window.flatMap XferWin.content) ++ B.trap.content ++
      counted (B.out.splits.flatMap (fun x => [x.1, x.2]))
  | 7 => inOrder 8 (fun k => (KV.get 0 B.r.g k).toNat) ++ inOrder 8 (fun k => (KV.get 0 B.r.h k).toNat) ++
      counted (B.out.acc.flatMap Access.content) ++ counted (B.out.tkt.flatMap (fun t => t.1 :: t.2.content)) ++
      counted (B.xfer.window.flatMap (fun c => [c.gidx, c.mask.toNat]))
  | 9 => inOrder 256 (fun k => (KV.get 0 B.cnt k).toNat)
  | _ => []

/-- A body padded to a multiple of 64 bytes. -/
def padded (bs : List Byte) : List Byte := bs ++ List.replicate ((64 - bs.length % 64) % 64) 0

/-- The body of a section of a bank. Section 8 holds the bytes of the scratchpad window and its size, section 10 the
word count and the text words, section 11 the launch record; the others their content in an encoding that the spec does
not give, a free value (log entry 25). -/
def sectionBody (id : Nat) (B : Bank) (window record : List Byte) : List Byte :=
  match id with
  | 8 => window ++ leBytes 4 window.length
  | 10 => leBytes 4 B.words ++ (List.range B.words).flatMap (fun i => leBytes 4 (KV.get 0 B.text i).toNat)
  | 11 => record.take 64
  | _ => (Config.packSection id (sectionContent id B)).take (sectionMax id)

/-- A section: its header and its body. -/
def sectionBytes (id : Nat) (B : Bank) (window record : List Byte) : List Byte :=
  let body := sectionBody id B window record
  leBytes 2 id ++ leBytes 2 (if id = 9 then 0 else 1) ++ leBytes 2 1 ++ leBytes 2 0 ++ leBytes 8 body.length ++
    padded body

/-- The scratchpad window of a bank. -/
def State.windowBytes (s : State) (b : Nat) : List Byte :=
  s.scr.readN (s.windowBase b) (s.bank b).windowSize

/-- The bank as its record holds it: each unfinished transfer command with its progress record (R373). -/
def Bank.recorded (B : Bank) : Bank :=
  let keep := fun (c : XferWin) => { c with record := true }
  { B with xfer := { B.xfer with window := B.xfer.window.map keep } }

/-- The context key of an interface's tenant (R78). -/
def State.contextKey (s : State) (vi : Nat) : BitVec 256 := (s.ifc vi).contextKey.getD (Config.contextKey vi)

/-- The context record of a bank (R78): sections 1 to 11, and the tag over the whole with its own field
zero. -/
def State.contextRecord (s : State) (g : Group) (b sequence : Nat) : List Byte :=
  let B := s.bank b
  let body := padded ((List.range 11).map (fun i =>
    sectionBytes (i + 1) B.recorded (s.windowBytes b) g.record)).flatten
  let hdr := fun tag => contextHeader (s.capabilityOf g.vi B) (64 + body.length) sequence tag g.id B.place.rank
    (leAt g.record 20 4)
  hdr (Config.gmac (s.contextKey g.vi) (hdr 0 ++ body)).toNat ++ body

/-- The save slot of a bank. -/
def State.slotAddr (s : State) (b : Nat) : Nat := bitsOf (s.hubReg offCHSAVE) 51 31 * 2 ^ 31 + b * 2 ^ 21

/-- A stopped task's record can be taken: its matrix commands are complete, its granules and accesses not in
flight but for those that a ticket holds, and every job admitted for it has completed (R99, R373). -/
def State.savable (s : State) (b : Nat) : Bool :=
  let B := s.bank b
  decide (B.status = .stopped) && B.vec.isEmpty && B.mat.window.isEmpty &&
    B.xfer.window.all (fun c => c.flight.isEmpty && c.count.isNone) && B.out.scop.isNone && B.trap.pending.isEmpty &&
    B.out.acc.all (fun a => a.remote && a.unsent.isEmpty &&
      a.reqs.all (fun r => B.out.tkt.any (fun t => decide (t.2.access = a.id ∧ t.2.req = r)))) &&
    (s.core (coreOf b)).slots.all (fun x => decide (x.2.bank ≠ b)) &&
    s.writes.all (fun w => ! w.madeBy b || (! w.scr && w.ord.isSome)) && ! s.hasJob b && ! s.hasDelivery b &&
    s.chanter.queue.all (fun l => ! l.asker.same (.bank b))

/-- Writes the record of one bank into its save slot, and locks the slot. -/
def State.saveBank (s : State) (g : Group) (sequence b : Nat) : State :=
  let bs := s.contextRecord g b sequence
  let win := s.windowBytes b
  let r : Saved := { bytes := bs, bank := (s.bank b).recorded, record := g.record, window := win }
  let s := (s.pokeBytes (s.slotAddr b) bs).setHub (offCHLOCK (b / 64))
    (s.hubReg (offCHLOCK (b / 64)) ||| 2 ^ (b % 64))
  { s with chanter := { s.chanter with saved := s.chanter.saved ++ [r]
                                       windows := KV.put s.chanter.windows g.id g.window } }

/-- The groups that may be saved: stopped by a pre-emption, or by a migration (R64). -/
def State.canSave (s : State) (g : Group) : Bool :=
  decide (g.leave = .checkpoint) && ! g.closed && g.kept.isEmpty && ! (s.held g).isEmpty && (s.held g).all s.savable &&
    bitAt (s.hubReg offCHSAVE) 0 && (s.held g).all (fun b => ! s.slotLocked b)

/-- A saved group has not ended and keeps its reservation (R54); one of an interface in STOPPING belongs to the
migration (R64). -/
def State.keepStopped (s : State) (g : Group) (rs : List Saved) : State :=
  match s.migrating g.vi, (s.ifc g.vi).precopy with
  | true, some p => s.updIfc g.vi (fun v => { v with precopy := some { p with stopped := p.stopped ++ [(g, rs)] } })
  | _, _ => { s with chanter := { s.chanter with
      away := KV.put s.chanter.away g.id (g.vi, false)
      parked := KV.put s.chanter.parked g.id g } }

/-- SAVE_COMPLETE (R79): every task of group `input.sub` has stopped and every save slot is written: the slots
are locked, the system cores are interrupted, and the banks are scrubbed. No completion entry is written. -/
def execSaveComplete (s : State) : Outcome State Fault Refusal :=
  .next (match s.group s.input.sub with
    | none => s
    | some g =>
      if s.canSave g then
        let banks := s.held g
        let n := s.chanter.saved.length
        let s := banks.foldl (fun s b => s.saveBank g (g.sequence + 1) b) s
        let s := (s.irq 2).putGroup { g with sequence := g.sequence + 1, closed := true, kept := [] }
        let s := banks.foldl (fun s b => s.freeBank b .scrubbing) s
        (s.keepStopped { g with sequence := g.sequence + 1 } (s.chanter.saved.drop n)).dropGroup g.id
      else s)

/-! ### Restores (R80) -/

/-- CHRST.status takes a value. -/
def State.setRestoreStatus (s : State) (n : Nat) : State :=
  s.setHub offCHRST (putBits (s.hubReg offCHRST) 55 52 n)

/-- What a header says. -/
def hdrOk (r : List Byte) : Bool :=
  let n := leAt r 16 8
  let t := leAt r 60 1
  let c := leAt r 61 1
  let l := leAt r 62 1
  let d := leAt r 63 1
  decide (leAt r 0 4 = magicFCTX ∧ leAt r 6 2 = 0 ∧ n % 64 = 0 ∧ 64 ≤ n ∧ n ≤ 1656 * 1024 ∧
    1 ≤ t ∧ t ≤ 2 ∧ 1 ≤ c ∧ c ≤ 8 ∧ 1 ≤ l ∧ l ≤ 16 ∧ 1 ≤ d ∧ d ≤ 4)

/-- Tasks of the shape that a header names. -/
def hdrTasks (r : List Byte) : Nat := leAt r 60 1 * leAt r 61 1 * leAt r 62 1 * leAt r 63 1

/-- Reads `n` records that stand one after the other; none where a header fails. -/
def State.readRecords (s : State) : Nat → Nat → Option (List (List Byte))
  | 0, _ => some []
  | n + 1, a =>
    let h := s.see none 4 a 64
    if hdrOk h then
      (s.readRecords n (a + leAt h 16 8)).map (fun rest => s.see none 4 a (leAt h 16 8) :: rest)
    else none

/-- The records of a group in rank order: every header holds and names the group and shape of the first, and
every rank stands once. DESIGN CHOICE (log entry 115): a group of which some task had ended before its checkpoint, and so
has no record, does not pass. -/
def State.groupRecords (s : State) (a : Nat) : Option (List (List Byte)) :=
  let h := s.see none 4 a 64
  if ! hdrOk h then none
  else
    let n := hdrTasks h
    match s.readRecords n a with
    | none => none
    | some rs =>
      if rs.all (fun r => decide (leAt r 48 8 = leAt h 48 8 ∧ leAt r 60 4 = leAt h 60 4)) then
        (List.range n).mapM (fun k => rs.find? (fun r => decide (leAt r 56 4 = k)))
      else none

/-- The sections of a record: id, flags, version and body; the fuel is the number of 64-byte lines. -/
def sectionsOf : Nat → List Byte → Option (List (Nat × Nat × List Byte))
  | 0, bs => if bs.isEmpty then some [] else none
  | n + 1, bs =>
    if bs.isEmpty then some []
    else
      let len := leAt bs 8 8
      let whole := (len + 63) / 64 * 64
      if bs.length < 16 + whole then none
      else (sectionsOf n (bs.drop (16 + whole))).map (fun rest =>
        (leAt bs 0 2, leAt bs 2 2, (bs.drop 16).take len) :: rest)

/-- The sections of a record. -/
def recordSections (r : List Byte) : Option (List (Nat × Nat × List Byte)) :=
  sectionsOf (r.length / 16 + 1) (r.drop 64)

/-- The body of a section, empty where the record has none. -/
def sectionOf (r : List Byte) (id : Nat) : List Byte :=
  match recordSections r with
  | some xs => (match xs.find? (fun x => x.1 = id) with | some x => x.2.2 | none => [])
  | none => []

/-- Every section is known, or unknown and optional (R80 step 7). -/
def sectionsKnown (r : List Byte) : Bool :=
  match recordSections r with
  | some xs => xs.all (fun x => decide (1 ≤ x.1 ∧ x.1 ≤ 11) || ! bitAt x.2.1 0)
  | none => false

/-- The tag of a record verifies under a tenant's context key (R80 step 8). -/
def tagOk (key : BitVec 256) (r : List Byte) : Bool :=
  decide (leAt r 32 16 = (Config.gmac key (r.take 32 ++ List.replicate 16 0 ++ r.drop 48)).toNat)

/-- The module offers a view (R20, R23). -/
def State.offersView (s : State) (v : Nat) : Bool := decide (v ≤ 2) && (! s.degraded || decide (v = 2))

/-- The module offers what a record's capability names (R80 step 4). -/
def State.offers (s : State) (cap : Nat) : Bool :=
  s.offersView (bitsOf cap 6 5) &&
  (List.range 4).all (fun n => ! bitAt cap n || KV.get false s.boot.cxlUp n) &&
  (! bitAt cap 4 || (List.range 32).any s.portUp)

/-- The placement of a restore: idle banks of one device of the interface, the first that has one. -/
def State.restorePlan (s : State) (view : Nat) (r : List Byte) : Option (List Nat) :=
  (s.present.map (fun d => s.placement [] r (s.deviceDies view d))).foldl
    (fun best p => match best with | some b => some b | none => p) none

/-- A group that was saved here still has its reservation (R54). -/
def State.reservedAway (s : State) (gid : Nat) : Bool := ! (KV.get (0, true) s.chanter.away gid).2

/-- A restore fails with a kind 5 entry, which takes the group's reservation where it has one; the group goes to
RESTORE_FAILED. -/
def State.failRestore (s : State) (vi reason window gid line : Nat) : State :=
  let s := if s.reservedAway gid then s.unreserve vi else s
  let s := { s with chanter := { s.chanter with away := KV.put s.chanter.away gid (vi, true) } }
  (s.complete vi 5 window reason 0xFFFFFFFF gid line).setRestoreStatus 5

/-- The window of the launch that a record's group came from, where this module knows it; else 0xFF. -/
def State.windowOf (s : State) (r : List Byte) : Nat :=
  match s.chanter.saved.find? (fun x => x.bytes = r) with
  | some _ => KV.get 0xFF s.chanter.windows (leAt r 48 8)
  | none => 0xFF

/-- Steps 1 to 5 of a restore (R80). -/
def State.startRestore (s : State) (vi addr : Nat) : State :=
  match s.groupRecords addr with
  | none =>
    let h := s.see none 4 addr 64
    s.failRestore vi 1 0xFF (leAt h 48 8) (recLine (sectionOf (s.see none 4 addr (leAt h 16 8 % 2 ^ 21)) 11))
  | some rs =>
    let h := rs.headD []
    let gid := leAt h 48 8
    let record := sectionOf h 11
    if rs.any (fun r => decide (leAt r 4 2 ≠ 1)) then s.failRestore vi 5 (s.windowOf h) gid (recLine record)
    else if rs.any (fun r => decide (leAt r 24 8 ≤ KV.get 0 s.chanter.restored gid)) then
      s.failRestore vi 7 (s.windowOf h) gid (recLine record)
    else if ! rs.all (fun r => s.offers (leAt r 8 8)) then s.setRestoreStatus 4
    else
      let shaped := record.take 20 ++ leBytes 4 (leAt h 60 4) ++ record.drop 24
      match s.restorePlan (bitsOf (leAt h 8 8) 6 5) shaped with
      | none => s.setRestoreStatus 3
      | some banks =>
        let l : Launch := { asker := .bank 0, vi := vi, window := s.windowOf h, seq := 0xFFFFFFFF,
                            record := shaped, job := 0, ac := 0 }
        let g := { l.group gid banks [] none with sequence := leAt h 24 8, loaded := true }
        let s := if s.reservedAway gid then s.settleGroup g
          else (s.settleGroup g).updIfc vi (fun v => { v with reserved := v.reserved + 1 })
        { s with chanter := { s.chanter with
            restore := some (gid, rs)
            away := KV.erase s.chanter.away gid
            parked := KV.erase s.chanter.parked gid } }

/-- CHRST_GO (R80): a write of `input.value` to CHRST. While a restore is under way a write of go is
ignored. -/
def execChrstGo (s : State) : Outcome State Fault Refusal :=
  let v := s.input.value.toNat
  let old := s.hubReg offCHRST
  let status := bitsOf old 55 52
  let new := putBits (putBits 0 63 56 (bitsOf v 63 56)) 51 6 (bitsOf v 51 6)
  .next (
    if ! bitAt v 0 then s.setHub offCHRST (putBits new 55 52 status)
    else if status = 1 then s
    else (s.setHub offCHRST (putBits new 55 52 1)).startRestore (bitsOf v 63 56) (bitsOf v 51 6 * 64))

/-- A map from the numbers below `n`. -/
def tabulate {α : Type} (n : Nat) (g : Nat → α) : KV α := (List.range n).map (fun i => (i, g i))

/-- A list of length below a bound, from free values. -/
def drawn {α : Type} (n : Nat) (g : Nat → α) : List α := (List.range n).map g

/-- An accumulator from free values. -/
def decodeAcc (f : Nat → Nat → Nat) (k : Nat) : Acc :=
  { elems := tabulate 16384 (fun i =>
      let st := BitVec.ofNat 2 (f 4 (32768 * k + 2 * i + 1))
      AccElem.mk (if st = 0 then BitVec.ofNat 128 (f 4 (32768 * k + 2 * i)) else 0) st)
    anchor := (f 4 (65536 + k) : Int) % 1024 - 512, tag := 0 }

/-- A format tag from a free value: no register holds a reserved one (R200). -/
def decodeTag (n : Nat) : BitVec 6 := if tagReserved (n % 64) then 0 else BitVec.ofNat 6 n

/-- Registers from free values. -/
def decodeRegs (f : Nat → Nat → Nat) : Regs :=
  { s := tabulate 64 (fun i => BitVec.ofNat 64 (f 1 i))
    bind := tabulate 64 (fun i => f 1 (64 + i) % 9)
    pend := []
    p := BitVec.ofNat 16 (f 1 128)
    m := tabulate 8 (fun i => BitVec.ofNat 512 (f 1 (129 + i)))
    v := tabulate 32 (fun i => VecReg.mk (BitVec.ofNat 4096 (f 2 i)) (decodeTag (f 2 (32 + i))))
    t := tabulate 8 (fun i => TileReg.mk (BitVec.ofNat 131072 (f 3 i)) (decodeTag (f 3 (8 + i))))
    a := tabulate 2 (decodeAcc f)
    f := tabulate 16 (fun i => BitVec.ofNat 20 (f 5 i))
    g := tabulate 8 (fun i => BitVec.ofNat 64 (f 7 i))
    h := tabulate 8 (fun i => BitVec.ofNat 64 (f 7 (8 + i))) }

/-- Queues from free values, within their depths. -/
def decodeQueues (f : Nat → Nat → Nat) : Queues :=
  { lq := tabulate 4 (fun q => drawn (f 6 (200 + q) % 17) (fun i =>
      LqEntry.mk 0 (some (BitVec.ofNat 4096 (f 6 (1000 + 16 * q + i))))))
    sq := tabulate 2 (fun q => drawn (f 6 (204 + q) % 17) (fun i => BitVec.ofNat 4096 (f 6 (1100 + 16 * q + i))))
    cq := drawn (f 6 206 % 33) (fun i => BitVec.ofNat 64 (f 6 (1200 + i)))
    vq := drawn (f 6 207 % 33) (fun i => BitVec.ofNat 64 (f 6 (1300 + i)))
    oq := drawn (f 6 208 % 9) (fun i => BitVec.ofNat 4096 (f 6 (1400 + i)))
    mq := drawn (f 6 209 % 9) (fun i => MqDesc.mk (f 6 (1500 + 4 * i) % 2 ^ 20) (f 6 (1501 + 4 * i) % 16)
      (f 6 (1502 + 4 * i) % 2 ^ 20) (f 6 (1503 + 4 * i) % 2 ^ 20))
    xq := drawn (f 6 210 % 17) (fun i => BitVec.ofNat 64 (f 6 (1600 + i))) }

/-- A prefix in force from free values, or none. -/
def decodePfx (f : Nat → Nat → Nat) (i : Nat) : Option (BitVec 32) :=
  if f 6 i % 2 = 0 then none else some (encode (.pfx (BitVec.ofNat 3 (f 6 (i + 1) % 4)) (BitVec.ofNat 3 (f 6 (i + 1) / 4 % 6))
    (BitVec.ofNat 2 (f 6 (i + 1) / 32)) (BitVec.ofNat 3 (f 6 (i + 1) / 128 % 4)) (BitVec.ofNat 2 (f 6 (i + 1) / 512))))

/-- The trap state from free values: the bank may be in handler mode. -/
def decodeTrap (f : Nat → Nat → Nat) : TrapState :=
  { TrapState.none with
    handler := decide (f 6 2100 % 2 = 1)
    taken := { strand := Strand.ofCode (f 6 2101), code := f 6 2102 % 20, tval := BitVec.ofNat 64 (f 6 2103),
               walk := f 6 2104, pc := f 6 2105 % 32769, deferred := decide (f 6 2106 % 2 = 1), arose := false }
    pfx := decodePfx f 2107
    skips := drawn (f 6 2109 % 33) (fun i => f 6 (2110 + i)) }

/-- A strand's place from free values. -/
def decodeWalker (f : Nat → Nat → Nat) (k : Nat) : Walker :=
  { pc := f 6 (2 * k) % 32769
    walk := f 6 (2 * k + 1)
    path := drawn (f 6 (16 + k) % 33) (fun i => f 6 (32 + 32 * k + i) % 32769)
    pops := 0
    pfx := decodePfx f (20 + 2 * k)
    stall := .none }

/-- The matrix state from free values, within its limits (R349). -/
def decodeMat (f : Nat → Nat → Nat) : MatState :=
  { MatState.start with
    m := f 6 2000 % 128 + 1
    n := f 6 2001 % 128 + 1
    k := f 6 2002 % 256 + 1
    fa := decodeTag (f 6 2003)
    fb := decodeTag (f 6 2004)
    sa := tabulate 1024 (fun i => BitVec.ofNat 8 (f 6 (3000 + i)))
    sb := tabulate 1024 (fun i => BitVec.ofNat 8 (f 6 (5000 + i)))
    steps := BitVec.ofNat 64 (f 6 2005)
    rfail := BitVec.ofNat 32 (f 6 2006)
    suspect := BitVec.ofNat 32 (f 6 2007)
    inject := decide (f 6 2008 % 2 = 1)
    last := BitVec.ofNat 64 (f 6 2009) }

/-- Staging fields from free values (R364). -/
def decodeStaging (f : Nat → Nat → Nat) (k : Nat) : Staging :=
  { src := BitVec.ofNat 64 (f 6 k), dst := BitVec.ofNat 64 (f 6 (k + 1)), shape := BitVec.ofNat 64 (f 6 (k + 2)),
    pitch := BitVec.ofNat 64 (f 6 (k + 3)), layout := BitVec.ofNat 64 (f 6 (k + 4)),
    ctr := BitVec.ofNat 64 (f 6 (k + 5)) }

/-- An unfinished transfer command from free values, with its progress record (R149, R366). -/
def decodeCommand (f : Nat → Nat → Nat) (k : Nat) : XferWin :=
  let st := decodeStaging f (7000 + 16 * k)
  let dir := f 6 (7006 + 16 * k) % 4
  let flag := f 6 (7007 + 16 * k) % 32
  { id := k, walk := f 6 (7008 + 16 * k), st := st, flag := if flag < 16 then some flag else none, dir := dir,
    ord := f 6 (7009 + 16 * k) % 4, scope := f 6 (7010 + 16 * k) % 6, policy := f 6 (7011 + 16 * k) % 4, ranges := st.ranges dir, flight := [],
    gidx := f 7 (32 + 2 * k) % 2 ^ 32, mask := BitVec.ofNat 32 (f 7 (33 + 2 * k)), record := true, held := false,
    dropped := false, count := none }

/-- The transfer state from free values: commands that keep the limits of their staging fields. -/
def decodeXfer (f : Nat → Nat → Nat) : XferState :=
  { staging := decodeStaging f 6900
    window := (drawn (f 6 6999 % 9) (decodeCommand f)).filter (fun c => c.st.ok c.dir) }

/-- The word of an access that holds an open ticket, from free values: one that may reach a remote page (R297). -/
def decodeOp (n m : Nat) : AccOp :=
  match n % 8 with
  | 0 => .ld
  | 1 => .ldz
  | 2 => .st
  | 3 => .amo (m % 9)
  | 4 => .cas (m % 16)
  | 5 => .ldq (m % 4)
  | 6 => .desc
  | _ => .fill

/-- An open ticket from free values (R155), with the access that holds it. -/
def decodeTicket (f : Nat → Nat → Nat) (k : Nat) : Access × Ticket :=
  let x := fun i => f 7 (1000 + 32 * k + i)
  let op := decodeOp (x 0) (x 1)
  let size := match op with | .ldq _ => x 2 % 512 + 1 | .desc => 64 | .fill => 64 | _ => 2 ^ (x 2 % 4)
  let line := decide (op = .fill) || (decide (op = .ldq (x 1 % 4) ∨ op = .ld ∨ op = .ldz) && decide (x 18 % 2 = 1))
  let q : RemReq := { va := x 3 % 2 ^ 57, peer := x 4 % 1024, off := x 5 % 2 ^ 48, token := x 6 % 2 ^ 64,
                      size := if line then 64 else size, fill := line && decide (x 19 % 2 = 1), cached := line,
                      policy := x 7 % 4 }
  ({ id := k, walk := x 8, op := op, size := size, lanes := [], scr := false, own := false, va := q.va,
     dst := x 9 % 64, x := BitVec.ofNat 64 (x 10), y := BitVec.ofNat 64 (x 11), data := leBytes size (x 12),
     ord := x 13 % 4, scope := x 14 % 6, reqs := [q], unsent := [], got := [], remote := true, policy := q.policy,
     touch := [] },
   { state := .wait, access := k, req := q, owner := q.peer, ownerInc := x 15 % 2 ^ 32, number := x 16 % 2 ^ 32,
     tkind := x 17 % 2 })

/-- The open tickets of a record. -/
def decodeTickets (f : Nat → Nat → Nat) : List (Access × Ticket) := drawn (f 7 999 % 17) (decodeTicket f)

/-- The scalar that an access writes. -/
def Access.target (a : Access) : List Nat :=
  match a.op with
  | .ld | .ldz | .amo _ | .cas _ | .ldref .. => [a.dst]
  | _ => []

/-- The entries of load queue `q` that accesses with open tickets have still to fill. -/
def lqOwed (ts : List (Access × Ticket)) (q : Nat) : List LqEntry :=
  (ts.filter (fun t => decide (t.1.op = .ldq q))).map (fun t => LqEntry.mk t.1.id none)

/-- The bank that a record holds: the text from section 10; the rest from the encoding that the spec does not give, a
free value of the section's bytes: registers, queues, program counters, matrix and transfer state, the trap in hand,
barrier counts, open tickets. Without section 9 the routing counters start at zero (R282). -/
def decodeRecord (r : List Byte) : Bank :=
  let f := fun (sec i : Nat) => Config.section_ sec (sectionOf r sec) i
  let text := sectionOf r 10
  let words := Nat.min 32768 (leAt text 0 4)
  let tickets := decodeTickets f
  let q := decodeQueues f
  { Bank.idle with
    text := tabulate words (fun i => BitVec.ofNat 32 (leAt text (4 + 4 * i) 4))
    words := words
    wc := decodeWalker f 0
    wv := decodeWalker f 1
    wm := decodeWalker f 2
    wx := decodeWalker f 3
    r := { decodeRegs f with pend := tickets.flatMap (fun x => x.1.target) }
    q := { q with lq := tabulate 4 (fun k => (KV.get [] q.lq k).take (16 - (lqOwed tickets k).length) ++ lqOwed tickets k) }
    trap := decodeTrap f
    mat := decodeMat f
    xfer := decodeXfer f
    out := { Outstanding.none with
      arrive := tabulate 128 (fun i => f 5 (200 + i))
      splits := drawn (f 6 2200 % 17) (fun i => (f 6 (2201 + 2 * i) % 128, f 6 (2202 + 2 * i) % 18))
      acc := tickets.map (·.1)
      tkt := tickets.zipIdx.map (fun x => (x.2, x.1.2)) }
    csr := tabulate 68 (fun n => if n = csrCYCLE then BitVec.ofNat 64 (f 5 (64 + n)) else (BitVec.ofNat 64 (f 5 (64 + n)) &&& csrMask n) ||| (csrReset n &&& ~~~ csrMask n))
    cnt := if (sectionOf r 9).isEmpty then [] else tabulate 256 (fun i => BitVec.ofNat 32 (f 9 i)) }

/-- The bank that a record holds, and the bytes of its window: as this module wrote it, where it did; else
from its bytes. -/
def State.recordBank (s : State) (r : List Byte) : Bank × List Byte :=
  match s.chanter.saved.find? (fun x => x.bytes = r) with
  | some x => (x.bank, x.window)
  | none =>
    let B := decodeRecord r
    let win := sectionOf r 8
    (B, win.take (leAt win (win.length - 4) 4))

/-- The accesses and commands of a bank decoded from a record of another module take names of this module's. -/
def Bank.renamed (B : Bank) (n : Nat) : Bank :=
  { B with
    xfer := { B.xfer with window := B.xfer.window.map (fun c => { c with id := n + c.id }) }
    out := { B.out with acc := B.out.acc.map (fun a => { a with id := n + 8 + a.id })
                        tkt := B.out.tkt.map (fun t => (t.1, { t.2 with access := n + 8 + t.2.access })) }
    q := { B.q with lq := B.q.lq.map (fun x => (x.1, x.2.map (fun e =>
      if e.data.isNone then { e with access := n + 8 + e.access } else e))) } }

/-- Sends every ticketed request of a restored bank again. -/
def State.replayTickets (s : State) (b : Nat) : State :=
  (s.bank b).out.tkt.foldl (fun s t => s.replay b t.2.access t.2.req (some t.1)) s

/-- This module has written a record. -/
def State.ownRecord (s : State) (r : List Byte) : Bool := s.chanter.saved.any (fun x => decide (x.bytes = r))

/-- A restored bank goes live at its saved state; what describes the placement stays as placed (R288). -/
def State.reviveBank (s : State) (b : Nat) (r : List Byte) : State :=
  let P := s.bank b
  let (B, win) := s.recordBank r
  let (B, s) := if s.ownRecord r then (B, s) else (B.renamed s.nextId, { s with nextId := s.nextId + 24 })
  let keep := fun (B : Bank) (n : Nat) => B.csrPut n (P.csrGet n)
  let B := { (keep (keep B csrSPBASE) csrSPLIM).moved with
    status := .live, place := P.place, n := .zero, now := .none }
  let s := s.setBank b B
  ({ s with scr := s.scr.writeN (s.windowBase b) (win.take B.windowSize) } : State).replayTickets b

/-- A restore ends with a kind 5 entry: its banks are scrubbed and returned (R80). -/
def State.abortRestore (s : State) (g : Group) (reason : Nat) : State :=
  let s := { s with chanter := { s.chanter with restore := none } }
  let s := (s.held g).foldl (fun s b => s.freeBank b .scrubbing) s
  ((s.dropGroup g.id).unreserve g.vi).failRestore g.vi reason g.window g.id (recLine g.record)

/-- RESTORE_READ_COMPLETE (R80 steps 6-9): every record has been read into its bank; `input.ok` is false where
the read met an uncorrectable error or poison. Where the group has been killed meanwhile, the restore has failed
without an entry of its own (log entry 99). -/
def execRestoreReadComplete (s : State) : Outcome State Fault Refusal :=
  .next (match s.chanter.restore with
    | none => s
    | some (gid, rs) =>
      match s.group gid with
      | none => { s.setRestoreStatus 5 with chanter := { s.chanter with restore := none } }
      | some g =>
        if g.closed then { s.setRestoreStatus 5 with chanter := { s.chanter with restore := none } }
        else if ! s.input.ok then s.abortRestore g 3
        else if ! rs.all sectionsKnown then s.abortRestore g 4
        else if ! rs.all (tagOk (s.contextKey g.vi)) then s.abortRestore g 2
        else
          let s := (g.members.zip rs).foldl (fun s x => s.reviveBank x.1 x.2) s
          { s.setRestoreStatus 2 with chanter := { s.chanter with
              restore := none
              restored := KV.put s.chanter.restored gid g.sequence } })

end Sys2Proof.Machine
end

