-- ==== Sys2Proof/Machine/Boot.lean ====
section
/-! DEFINITION. Boot, identity and die trust (chapter 02), the degraded map's fencing (R23), and the training of
fabric ports (R31). -/

namespace Sys2Proof.Machine

open Sys2Proof Host

/-! ### Flash and images (R24, R25) -/

/-- A byte of flash; one that nothing has placed is erased (log entry 4). -/
def State.flashByte (s : State) (a : Nat) : Byte :=
  match s.boot.flash.find? (fun c => c.1 = a) with
  | some c => c.2
  | none => 0xFF

/-- Bytes of flash. -/
def State.flashRead (s : State) (a n : Nat) : List Byte := (List.range n).map (fun i => s.flashByte (a + i))

/-- An image in flash: its bank, the offset of its header and the header. -/
structure FlashImage where
  bank : Nat
  at_ : Nat
  header : List Byte
deriving DecidableEq, Repr

def FlashImage.target (f : FlashImage) : Nat := leAt f.header 6 1
def FlashImage.length (f : FlashImage) : Nat := leAt f.header 16 8
def FlashImage.digest (f : FlashImage) : BitVec 512 := BitVec.ofNat 512 (leAt f.header 24 64)

/-- Bytes of a bank of flash. -/
def bankSize : Nat := 0x10000000

/-- "FIMG". -/
def magicFIMG : Nat := 0x474D4946

/-- The chain of a bank from an offset on: it ends at the first header whose magic is not "FIMG". The fuel is
the number of 64 KiB boundaries. DESIGN CHOICE (log entry 84): the chain also ends where a header would not fit in the
bank; a body that runs past the bank's end is read on from the flash bytes that follow. -/
def State.imageChain (s : State) (bank : Nat) : Nat → Nat → List FlashImage
  | 0, _ => []
  | fuel + 1, off =>
    if bankSize < off + 1152 then []
    else
      let f : FlashImage := { bank := bank, at_ := bank * bankSize + off, header := s.flashRead (bank * bankSize + off) 1152 }
      if leAt f.header 0 4 ≠ magicFIMG then []
      else f :: s.imageChain bank fuel ((off + 1152 + f.length + 65535) / 65536 * 65536)

/-- The images of a bank. -/
def State.bankImages (s : State) (bank : Nat) : List FlashImage := s.imageChain bank 4096 0

/-- IMAGE_VERIFY (R25): the checks, in order. DESIGN CHOICE (log entry 85): an image whose length is none that R24
allows (not a multiple of 64, or above 0x0FF0_0000) is rejected; R25 lists no such check. -/
def State.imageOk (s : State) (f : FlashImage) : Bool :=
  let h := f.header
  let key := leAt h 7 1
  let modulus := (h.drop 128).take 512
  decide (leAt h 0 4 = magicFIMG ∧ leAt h 4 2 = 1 ∧ f.target ≤ 6 ∧ leAt h 88 40 = 0) &&
  decide (key ≤ 3) && decide (Config.sha512 modulus = KV.get 0 s.boot.keyHash key) &&
  ! KV.get false s.boot.revoked key &&
  Config.rsaVerifies modulus (h.take 640) ((h.drop 640).take 512) &&
  decide (KV.get 0 s.boot.rollback f.target ≤ leAt h 12 4) &&
  decide (f.length % 64 = 0 ∧ f.length ≤ 0x0FF00000) &&
  decide (Config.sha512 (s.flashRead (f.at_ + 1152) f.length) = f.digest)

/-- What is kept of an image that is loaded. -/
def FlashImage.image (f : FlashImage) : Image :=
  { target := f.target, bank := f.bank, version := leAt f.header 8 4, digest := f.digest }

/-- The bank whose first image, a second stage, is accepted: A, else B (R26 step 1). -/
def State.bootBank (s : State) : Option Nat :=
  [0, 1].find? (fun b => match s.bankImages b with
    | f :: _ => decide (f.target = 4) && s.imageOk f
    | [] => false)

/-- The image of a target: of the boot bank past its first image, else of the other bank (R26 step 2). DEDUCED (log
entry 57): of several images of one target in a bank only the first counts. -/
def State.targetImage (s : State) (bank target : Nat) : Option FlashImage :=
  let own := ((s.bankImages bank).drop 1).find? (fun f => f.target = target)
  let other := (s.bankImages (1 - bank)).find? (fun f => f.target = target)
  match own with
  | some f => if s.imageOk f then some f else other.filter s.imageOk
  | none => other.filter s.imageOk

/-! ### The boot sequence (R26-R29) -/

/-- A die's authentication. -/
def State.die (s : State) (d : Nat) : DieAuth := KV.get DieAuth.reset s.boot.dies d

/-- Changes a die's authentication. -/
def State.updDie (s : State) (d : Nat) (f : DieAuth → DieAuth) : State :=
  { s with boot := { s.boot with dies := KV.put s.boot.dies d (f (s.die d)) } }

/-- DIE_FENCE (R23) with the result that DAUTH shows. -/
def State.fence (s : State) (d result : Nat) : State :=
  let t := s.updDie d (fun x => { x with stage := 4, result := result })
  { t with boot := { t.boot with fenced := if t.boot.fenced.contains d then t.boot.fenced else t.boot.fenced ++ [d] } }

/-- A boot that ends in reset, and what the management port reports: 1 BOOT_FAIL, 2 NO_DIE. -/
def State.bootEnds (s : State) (phase : Phase) (report : Nat) : State :=
  { s with phase := phase, boot := { s.boot with i3c := s.boot.i3c ++ [report] } }

/-- NO_DIE (R27). -/
def State.noDieLeft (s : State) : State :=
  if [0, 1, 2, 3].all (fun d => s.boot.fenced.contains d) then s.bootEnds .noDie 2 else s

/-- The 32 bytes of a random nonce. -/
def randomNonce (ctr : Nat) : BitVec 256 :=
  BitVec.ofNat 256 ((List.range 4).map (fun i => (Config.random (ctr + i)).toNat * 2 ^ (64 * i))).sum

/-- The exchange with a die begins (R29 step 1). -/
def State.challengeDie (s : State) (d : Nat) (digest : BitVec 512) : State :=
  let t := s.updDie d (fun x => { x with
    stage := 1, since := s.time, nonceS := randomNonce s.freeCtr, keyNo := s.freeCtr,
    ephS := Config.ephemeral s.freeCtr, key := 0, measurement := digest })
  { t with freeCtr := t.freeCtr + 4 }

/-- Steps 2 and 3 for the compute dies: the firmware of each is loaded and its exchange begins; a die whose image
is rejected in both banks is fenced. -/
def State.startDies (s : State) (bank : Nat) : State :=
  [0, 1, 2, 3].foldl (fun s d => match s.targetImage bank d with
    | some f => s.challengeDie d f.digest
    | none => s.fence d 2) s

/-- The images loaded, in boot order: the second stage, then each target's. DEDUCED (log entry 90): targets 5 and 6,
which step 2 needs first, and then the dies' 0 to 3. -/
def State.loadedImages (s : State) (bank : Nat) : List Image :=
  (((s.bankImages bank).take 1) ++ [5, 6, 0, 1, 2, 3].filterMap (fun t => s.targetImage bank t)).map (·.image)

/-- BOOT_START (R26 steps 1-3, R25, R29). -/
def execBootStart (s : State) : Outcome State Fault Refusal :=
  .next (
    if s.phase ≠ .inReset then s
    else match s.bootBank with
      | none => s.bootEnds .bootFail 1
      | some bank =>
        if [5, 6].any (fun t => (s.targetImage bank t).isNone) then s.bootEnds .bootFail 1
        else
          let s := { s with phase := .dies, boot := { s.boot with images := s.loadedImages bank } }
          (s.startDies bank).noDieLeft)

/-- The bytes that a die signs (R29 step 2). DESIGN CHOICE (log entry 91): numbers little-endian, the position in one
byte, the security processor's ephemeral key before the die's, 96 bytes each. -/
def dieMessage (x : DieAuth) (r : DieReply) : List Byte :=
  leBytes 32 x.nonceS.toNat ++ leBytes 32 r.nonce.toNat ++ leBytes 1 r.position ++ leBytes 64 r.measurement.toNat ++
    leBytes 96 x.ephS.toNat ++ leBytes 96 r.ephemeral.toNat

/-- The result of the checks of R29 step 3: 0 where all hold. -/
def dieCheck (d : Nat) (x : DieAuth) (r : DieReply) : Nat :=
  if ! Config.certVerifies r.certificate then 4
  else if ! Config.ecdsaVerifies r.certificate (dieMessage x r) (leBytes 96 r.signature.toNat) then 3
  else if r.position ≠ d then 3
  else if r.measurement ≠ x.measurement then 5
  else 0

/-- More than 100 ms have passed since a step of the exchange began (R29). -/
def State.dieLate (s : State) (x : DieAuth) : Bool := decide (100000000000 < s.time - x.since)

/-- DIE_AUTH_REPLY (R29 steps 2 and 3): the reply `input.reply` of die `input.who`; one that comes later than 100 ms
fails the exchange. -/
def execDieAuthReply (s : State) : Outcome State Fault Refusal :=
  let d := s.input.who
  let r := s.input.reply
  let x := s.die d
  .next (
    if s.phase ≠ .dies ∨ x.stage ≠ 1 then s
    else
      let k := if s.dieLate x then 6 else dieCheck d x r
      if k = 0 then s.updDie d (fun x => { x with stage := 2, since := s.time, nonceD := r.nonce, ephD := r.ephemeral })
      else (s.fence d k).noDieLeft)

/-- DIE_AUTH_CONFIRM (R29 steps 4 and 5): the die checks the security processor's signature, and both sides derive
the hub-link key. DESIGN CHOICE (log entry 91): the key is HKDF of the ECDH secret with no info, 256 bits; where the
die's own check fails, DAUTH shows 4 if the security processor's certificate does not verify and 3 otherwise. -/
def execDieAuthConfirm (s : State) : Outcome State Fault Refusal :=
  let d := s.input.who
  let x := s.die d
  let m := leBytes 32 x.nonceD.toNat ++ leBytes 32 x.nonceS.toNat
  .next (
    if s.phase ≠ .dies ∨ x.stage ≠ 2 then s
    else if s.dieLate x then (s.fence d 6).noDieLeft
    else if Config.certVerifies Config.ownCert && Config.ecdsaVerifies Config.ownCert m (Config.ecdsaSign 1 m) then
      s.updDie d (fun x => { x with stage := 3, result := 1, key := Config.hkdf (Config.ecdh x.keyNo x.ephD) [] })
    else (s.fence d (if Config.certVerifies Config.ownCert then 3 else 4)).noDieLeft)

/-- DIE_AUTH_TIMEOUT (R29): 100 ms have passed at a step of the exchange with die `input.who`. -/
def execDieAuthTimeout (s : State) : Outcome State Fault Refusal :=
  let d := s.input.who
  let x := s.die d
  .next (
    if s.phase = .dies ∧ (x.stage = 1 ∨ x.stage = 2) ∧ 100000000000 ≤ s.time - x.since then
      (s.fence d 6).noDieLeft
    else s)

/-! ### Revisions (R30, R31) -/

/-- The authenticated dies that support a die-link revision. -/
def State.supporters (s : State) (r : Nat) : List Nat :=
  s.present.filter (fun d => decide ((s.die d).linkLo ≤ r ∧ r ≤ (s.die d).linkHi))

/-- REVISION_CHOICE (R30): of the hub's revisions the one that most dies support, the highest of a tie. -/
def State.chooseRevision (s : State) (lo hi : Nat) : Nat :=
  ((List.range (hi + 1 - lo)).map (lo + ·)).foldl
    (fun best r => if (s.supporters best).length ≤ (s.supporters r).length then r else best) lo

/-- The fabric revisions that every present die supports. -/
def State.fabricRange (s : State) : Nat × Nat :=
  s.present.foldl (fun x d => (Nat.max x.1 (s.die d).fabLo, Nat.min x.2 (s.die d).fabHi)) (0, 65535)

/-- PORT_TRAINING (R31): a port trains at the highest revision common to its peer's range and this module's. -/
def State.trainWith (s : State) (port lo hi : Nat) : State :=
  let (l, h) := s.fabricRange
  s.trainPort port (Nat.min h hi) (decide (Nat.max l lo ≤ Nat.min h hi))

/-- The ports that are trained. -/
def State.trainedPorts (s : State) : List Nat := (List.range 32).filter (fun p => (s.link p).trained)

/-- The lowest fabric revision in use, 0 if no port trained. -/
def State.lowestRevision (s : State) : Nat :=
  match s.trainedPorts.map (fun p => (s.link p).revision) with
  | [] => 0
  | r :: rest => rest.foldl Nat.min r

/-! ### Step 5 (R22, R28) -/

/-- The version of a target's image. DESIGN CHOICE (log entry 92): 0 for a die whose image is rejected in both
banks. -/
def State.firmwareOf (s : State) (d : Nat) : Nat :=
  match s.boot.images.find? (fun i => i.target = d) with
  | some i => i.version
  | none => 0

/-- The capability record (R22). -/
def State.capabilityRecord (s : State) : List Byte :=
  let dies := (s.present.map (fun d => 2 ^ d)).foldl (· + ·) 16
  let disabled := ([0, 1, 2, 3].map (fun d =>
    (if s.present.contains d then KV.get 16 s.boot.disabled d else 31) * 2 ^ (5 * d))).foldl (· + ·) 0
  let cxl := fun n => if KV.get false s.boot.cxlUp n then KV.get 0 s.boot.cxlSize n else 0
  leBytes 4 0x50414346 ++ leBytes 2 1 ++ leBytes 2 s.boot.moduleNo ++ leBytes 2 s.boot.incarnation ++
    leBytes 1 dies ++ leBytes 1 (if s.degraded then 9 else 14) ++ leBytes 4 disabled ++
    ([0, 1, 2, 3].map (fun d => leBytes 4 (s.firmwareOf d))).flatten ++ leBytes 8 (s.present.length * 384 * 2 ^ 30) ++
    ([0, 1, 2, 3].map (fun n => leBytes 8 (cxl n))).flatten ++
    leBytes 4 ((s.trainedPorts.map (fun p => 2 ^ p)).foldl (· + ·) 0) ++ leBytes 2 s.boot.revision ++
    leBytes 2 s.boot.fabricRev ++ List.replicate 48 0

/-- CAPABILITY_RECORD_WRITE (R22), with the fabric revision of R31. -/
def State.writeCapability (s : State) : State :=
  let s := { s with boot := { s.boot with fabricRev := s.lowestRevision } }
  { s with boot := { s.boot with capability := s.capabilityRecord } }

/-- DAUTH of a die (R29). -/
def State.dauth (s : State) (d : Nat) : Nat :=
  (s.die d).result * 2 ^ 24 + (s.die d).linkHi * 2 ^ 8 + (if s.boot.fenced.contains d then 1 else 0)

/-- INCARNATION_INCREMENT (R28). -/
def nextIncarnation (n : Nat) : Nat := if 0xFFFF ≤ n then 1 else n + 1

/-- The ranges that the authenticated dies offer: die-link of dies 0-3, then fabric of dies 0-3. -/
def State.setRanges (s : State) (l : List Nat) : State :=
  s.present.foldl (fun s d => s.updDie d (fun x =>
    { x with linkLo := l.getD (2 * d) 0 % 65536, linkHi := l.getD (2 * d + 1) 0 % 65536,
             fabLo := l.getD (8 + 2 * d) 0 % 65536, fabHi := l.getD (8 + 2 * d + 1) 0 % 65536 })) s

/-- Fences the present dies for which a condition fails. -/
def State.fenceUnless (s : State) (result : Nat) (ok : Nat → Bool) : State :=
  (s.present.filter (fun d => ! ok d)).foldl (fun s d => s.fence d result) s

/-- Trains ports: triples of port and its peer's range. -/
def State.trainAll (s : State) : List Nat → State
  | p :: lo :: hi :: rest => (s.trainWith p lo hi).trainAll rest
  | _ => s

/-- Steps 5 and 6 of boot (R26). -/
def State.release (s : State) : State :=
  let s := { s with boot := { s.boot with incarnation := nextIncarnation s.boot.incarnation
                                          ingressKey := Config.randomKey s.freeCtr }
                    freeCtr := s.freeCtr + 1 }
  let s := s.writeCapability
  let s := [0, 1, 2, 3].foldl (fun s d => s.setHub (0x200 + 8 * d) (s.dauth d)) s
  let s := { s with phase := .running }
  s.trainedPorts.foldl (fun s p => s.control p 2 (leBytes 2 s.boot.moduleNo ++ leBytes 2 s.boot.incarnation)) s

/-- The devices found behind the CXL ports (R52): 8 bytes for each port, the size of the HDM range, 0 for an empty
port. No window holds more than 4 TiB (R15). -/
def State.setCxl (s : State) (bs : List Byte) : State :=
  let size := fun n => Nat.min (2 ^ 42) (leAt bs (8 * n) 8)
  { s with boot := { s.boot with cxlSize := [0, 1, 2, 3].map (fun n => (n, size n))
                                 cxlUp := [0, 1, 2, 3].map (fun n => (n, decide (size n ≠ 0))) } }

/-- TRAINING_COMPLETE (R26 steps 4-6, R30, R31): `input.list` holds the ranges of the dies, `input.sub` and
`input.size` the hub's, `input.third` has bit d where the channels of die d did not all train, `input.ports`
the ports with their peers' ranges, and `input.data` the sizes behind the CXL ports. -/
def execTrainingComplete (s : State) : Outcome State Fault Refusal :=
  let i := s.input
  .next (
    if s.phase ≠ .dies ∨ s.present.any (fun d => decide ((s.die d).stage ≠ 3)) = true then s
    else
      let s := s.setRanges i.list
      let r := s.chooseRevision (i.sub % 65536) (i.size % 65536)
      let s := s.fenceUnless 8 (fun d => (s.supporters r).contains d && decide (i.sub ≤ i.size))
      let s := s.fenceUnless 7 (fun d => ! bitAt i.third d)
      let s := { s with boot := { s.boot with revision := r } }
      if s.present.isEmpty then s.noDieLeft
      else ((s.setCxl i.data).trainAll i.ports).release)

/-- LINK_TRAINING (R31): port `input.who` trains with its peer after boot, whose range is `input.sub` to
`input.third`. -/
def execLinkTraining (s : State) : Outcome State Fault Refusal :=
  let i := s.input
  .next (
    if s.phase ≠ .running ∨ 32 ≤ i.who ∨ s.boot.fenced.contains (i.who / 8) = true then s
    else (s.trainWith i.who i.sub i.third).writeCapability)

/-- RETRAIN_EXCHANGE_DONE (R44). A failed exchange (`input.ok` false) leaves the port untrained: what is buffered at it
is lost, and the capability record shows the port untrained and the lowest revision still in use (R31, R22). -/
def execRetrainExchangeDone (s : State) : Outcome State Fault Refusal :=
  let port := s.input.who
  let l := s.link port
  .next (
    if ! l.training then s
    else if s.input.ok then s.retrained port
    else
      let s := s.setLink port { l with training := false, trained := false, buf := [], queue := [], part := [] }
      (l.queue.foldl (fun s f => s.freeBuffer f.from_) s).writeCapability)

end Sys2Proof.Machine
end

