-- ==== Sys2Proof/Machine/Host.lean ====
section
/-! DEFINITION. The host interface (chapter 04): launch writes (R54, R55), CQCTL and VISTAT (R53), the memory
window (R55), function level reset (R58), CXL links (R52) and attestation (R59). -/

namespace Sys2Proof.Machine

open Sys2Proof Host

/-! ### The memory window (R55) -/

def viMbase (r : Nat) : Nat := bitsOf r 111 85 * 2 ^ 30

/-- Bytes of BAR2. -/
def viMsize (r : Nat) : Nat :=
  let m := bitsOf r 84 79
  if 30 ≤ m ∧ m ≤ 40 then 2 ^ m else 0

/-- The bytes from an address on, cut at granules; the fuel is the number of bytes. -/
def granuleSpans : Nat → Nat → Nat → List (Nat × Nat)
  | 0, _, _ => []
  | fuel + 1, va, n =>
    if n = 0 then []
    else
      let k := Nat.min n (4096 - va % 4096)
      (va, k) :: granuleSpans fuel (va + k) (n - k)

/-- What the translation of a host access comes to. -/
inductive HostXlat where
  | ok (spans : List (Nat × Nat))
  | fault (va : Nat) (k : FaultKind)
  /-- a page in PARCEL or TRANSIT mode, or one of a peer's -/
  | bad
deriving DecidableEq, Repr

/-- The page that the hub has just translated an address through is in PARCEL or TRANSIT mode. -/
def State.hubParcelPage (s : State) (vi va : Nat) : Bool :=
  match s.tlb.find? (fun t => t.hits (lastLevel (s.present.headD 0)) vi va) with
  | some t => decide (leafMode t.leaf = 4 ∨ leafMode t.leaf = 5)
  | none => false

/-- Translates a host access, span by span. One beyond the tenant's space, or on a page in PARCEL or TRANSIT mode
whatever its rights, ends. -/
def State.hostXlat (s : State) (vi : Nat) (kind : AccKind) (acc : List (Nat × Nat)) :
    List (Nat × Nat) → State × HostXlat
  | [] => (s, .ok acc)
  | (va, n) :: rest =>
    if 2 ^ 57 ≤ va then (s, .bad)
    else match s.translate none false vi va kind with
      | (s, .fault k) =>
        if decide (k = .rights ∨ k = .frozen) && s.hubParcelPage vi va then (s, .bad) else (s, .fault va k)
      | (s, .phys pa mode) => if mode = 4 then (s, .bad) else s.hostXlat vi kind (acc ++ [(pa, n)]) rest
      | (s, _) => (s, .bad)

/-- Every write that the function has posted, of those not yet applied everywhere, is applied on some dies. -/
def State.postedOn (s : State) (vi : Nat) (dies : List Nat) : Bool :=
  s.writes.all (fun w => ! (s.ifc vi).posted.contains w.id || dies.all (fun d => w.dies.contains d))

/-- Writes spans of a host write, each piece under its own address and queued at its memory port (R105). -/
def State.hostPut (s : State) (vi : Nat) (t : WriteTag) : List (Nat × Nat) → List Byte → State
  | [], _ => s
  | (pa, n) :: rest, bs => (s.issueQueued vi t (linePieces n pa (bs.take n))).hostPut vi (t.on n) rest (bs.drop n)

/-- A host write is made, in the hub's name; its granules are marked (R61). -/
def State.hostWrite (s : State) (vi va : Nat) (data : List Byte) (spans : List (Nat × Nat)) : State :=
  let first := s.nextId
  let s := (s.markDirty vi va data.length).hostPut vi { WriteTag.other 4 with mark := some (vi, va) } spans data
  s.updIfc vi (fun v => { v with
    posted := v.posted.filter (fun i => s.writes.any (fun w => decide (w.id = i))) ++
      (List.range (s.nextId - first)).map (first + ·) })

/-- The first access that waits has been dealt with. -/
def State.popWait (s : State) (vi : Nat) : State := s.updIfc vi (fun v => { v with waits := v.waits.drop 1 })

/-- The first access that waits fails (R55). -/
def State.failWait (s : State) (vi : Nat) (read : Bool) : State :=
  let s := (s.popWait vi).windowFailed vi
  if read then s.updIfc vi (fun v => { v with answer := none }) else s

/-- The first access waits on a fault at an address. -/
def State.stickWait (s : State) (vi va : Nat) (k : FaultKind) : State :=
  (s.collect 4 vi va k.bit (some (.host vi))).updIfc vi (fun v => { v with stuck := true })

/-- The dies of the device that a launch window stands for (R20, R53). -/
def State.windowDies (s : State) (vi w : Nat) : List Nat :=
  let view := s.viewOf vi
  s.deviceDies view (if view = 0 then 0 else if view = 1 then 2 * w else s.present.getD w 4)

/-- The next look at an interface's waiting accesses. -/
def State.lookAgain (s : State) (vi : Nat) : State :=
  s.schedule .launchWrite { Input.none with who := vi, third := 1 }

/-- The first access, a read, returns its bytes. -/
def State.hostGet (s : State) (vi : Nat) (spans : List (Nat × Nat)) : State :=
  let bs := (spans.map (fun x => s.see none 4 x.1 x.2)).flatten
  (s.popWait vi).updIfc vi (fun v => { v with answer := some bs })

/-- The first access, a read, is queued at the memory ports of its bytes (R105). -/
def State.askPorts (s : State) (vi : Nat) (spans : List (Nat × Nat)) : State :=
  (({ s with nextId := s.nextId + 1 } : State).enqueueAll vi s.nextId (spanLines64 spans)).updIfc vi (fun v =>
    { v with waits := .reading s.nextId spans :: v.waits.drop 1 })

/-- Takes the host accesses of a function in their order of arrival as far as they go (R55): a launch record is
read once the writes posted before it are performed at module scope; a read once they are applied at the hub.
The fuel is the number that waits. -/
def State.hostGo (s : State) (vi : Nat) : Nat → State
  | 0 => s
  | fuel + 1 =>
    let v := s.ifc vi
    let base := viMbase (s.hubReg (offVICFG vi))
    if v.stuck then s
    else match v.waits with
      | [] => s
      | .launch w seq record :: _ =>
        if s.postedOn vi (s.windowDies vi w ++ [4]) then
          ((s.popWait vi).addTry instChanter
            { asker := .window vi w, tenant := vi, k := 1, pos := 0, first := instChanter, list := 8,
              desc := record, va := 0, id := seq, walk := 0, cycle := 0, ptry := Packet.zero, gwin := 0 }).hostGo vi fuel
        else s.lookAgain vi
      | .reading id spans :: _ =>
        if s.queued id then s.lookAgain vi else (s.hostGet vi spans).hostGo vi fuel
      | .read off n :: _ =>
        if s.postedOn vi [4] then
          match s.hostXlat vi .read [] (granuleSpans n (base + off) n) with
          | (s, .ok spans) =>
            let t := s.askPorts vi spans
            if t.queued s.nextId then t.lookAgain vi else (t.hostGet vi spans).hostGo vi fuel
          | (s, .fault va k) => s.stickWait vi va k
          | (s, .bad) => (s.failWait vi true).hostGo vi fuel
        else s.lookAgain vi
      | .write off data :: _ =>
        match s.hostXlat vi .write [] (granuleSpans data.length (base + off) data.length) with
        | (s, .ok spans) => ((s.hostWrite vi (base + off) data spans).popWait vi).hostGo vi fuel
        | (s, .fault va k) => s.stickWait vi va k
        | (s, .bad) => (s.failWait vi false).hostGo vi fuel

/-- A host access arrives. -/
def State.hostArrive (s : State) (vi : Nat) (op : HostOp) : State :=
  let s := s.updIfc vi (fun v => { v with waits := v.waits ++ [op] })
  s.hostGo vi (s.ifc vi).waits.length

/-- The fault that an interface's first access waits on is answered. -/
def State.hostAnswered (s : State) (vi : Nat) (access : Bool) : State :=
  let s := s.updIfc vi (fun v => { v with stuck := false })
  let s := match access, (s.ifc vi).waits with
    | true, op :: _ => s.failWait vi (match op with | .read .. | .reading .. => true | _ => false)
    | _, _ => s
  s.hostGo vi (s.ifc vi).waits.length

/-- BAR2_READ (R55): `input.size` bytes at offset `input.sub` of the memory window of interface `input.who`. -/
def execBar2Read (s : State) : Outcome State Fault Refusal :=
  let i := s.input
  .next (if i.sub + i.size ≤ viMsize (s.hubReg (offVICFG i.who)) then s.hostArrive i.who (.read i.sub i.size) else s)

/-- BAR2_WRITE (R55): `input.data` at offset `input.sub`. -/
def execBar2Write (s : State) : Outcome State Fault Refusal :=
  let i := s.input
  .next (if i.sub + i.data.length ≤ viMsize (s.hubReg (offVICFG i.who)) then
      s.hostArrive i.who (.write i.sub i.data) else s)

/-! ### Launch windows, CQCTL and VISTAT (R53, R54, R56) -/

/-- Launch windows of an interface. DESIGN CHOICE (log entry 93): on a degraded module, which offers the four-device
view alone, an interface of view 0 or 1 keeps its 1 or 2 windows, over the dies that are present. -/
def State.windowCount (s : State) (vi : Nat) : Nat :=
  match s.viewOf vi with
  | 0 => 1
  | 1 => 2
  | _ => s.present.length

/-- A write to the launch windows is taken as a launch record. -/
def State.launchTaken (s : State) (vi off : Nat) (data : List Byte) : Bool :=
  s.viOn vi && (s.ifc vi).cqOn && decide (off % 0x1000 = 0 ∧ data.length = 64 ∧ off / 0x1000 < s.windowCount vi)

/-- LAUNCH_WRITE (R54, R55): a host's write of `input.data` at offset `input.sub` of BAR0 of interface
`input.who`; with `input.third` 1 the hub looks again at the accesses that wait. DESIGN CHOICE (log entry 125): the
launch write count counts each write of 64 bytes that an enabled window takes, one dropped for want of room among them,
and no other. -/
def execLaunchWrite (s : State) : Outcome State Fault Refusal :=
  let i := s.input
  .next (
    if i.third = 1 then s.hostGo i.who (s.ifc i.who).waits.length
    else if ! s.launchTaken i.who i.sub i.data then s.dropLaunch i.who
    else
      let v := s.ifc i.who
      let s := s.updIfc i.who (fun v => { v with launches := (v.launches + 1) % 2 ^ 32 })
      if v.free - v.reserved < 2 then s.dropLaunch i.who
      else s.hostArrive i.who (.launch (i.sub / 0x1000) v.launches i.data))

/-- CQCTL changes enable from 0 to 1 (R53, R56, R86). -/
def Vi.cqStart (v : Vi) : Vi :=
  { v with cqTail := 0, pass := 1, launches := 0, refusals := [],
           unread := (v.entries - v.cqHead % v.entries) % v.entries }

/-- CQCTL_WRITE (R53): `input.value` to CQCTL of interface `input.who`. -/
def execCqctlWrite (s : State) : Outcome State Fault Refusal :=
  .next (s.updIfc s.input.who (fun v =>
    let w := { v with cqCtl := s.input.value.toNat &&& 0x80007E0F }
    if w.cqOn && ! v.cqOn then w.cqStart else w))

/-- The capability record as an interface sees it (R53): flags show its view only. -/
def State.capabilityFor (s : State) (vi : Nat) : List Byte :=
  let c := s.boot.capability
  let flags := leAt c 11 1
  let view := 2 ^ (1 + s.viewOf vi)
  c.take 11 ++ (leBytes 1 ((flags &&& 1) ||| (flags &&& view)) ++ c.drop 12)

/-- A byte of BAR0 that a host reads (R53, R54): launch windows read as zero; where nothing stands, a free value. -/
def State.barByte (s : State) (vi off : Nat) : Byte :=
  let v := s.ifc vi
  let part := fun (base x : Nat) => BitVec.ofNat 8 (x / 2 ^ (8 * (off - base)))
  if off < 0x8000 then 0
  else if off < 0x8008 then part 0x8000 v.cqBase
  else if off < 0x800C then part 0x8008 v.cqCtl
  else if off < 0x8010 then part 0x800C v.cqHead
  else if off < 0x8014 then part 0x8010 v.cqTail
  else if off < 0x8018 then part 0x8014 (v.dropped * 65536 + v.failed)
  else if 0x8100 ≤ off ∧ off < 0x8180 then (s.capabilityFor vi).getD (off - 0x8100) 0
  else Config.freeByte (s.freeCtr + off)

/-- What a read of `n` bytes of BAR0 from an offset on clears: of VISTAT, the bits that it returns (R4). -/
def Vi.cleared (v : Vi) (off n : Nat) : Vi :=
  let m := (List.range 4).foldl (fun m i =>
    if off ≤ 0x8014 + i ∧ 0x8014 + i < off + n then m ||| readBits i 1 else m) 0
  { v with dropped := v.dropped - (v.dropped &&& m / 2 ^ 16), failed := v.failed - (v.failed &&& m % 2 ^ 16) }

/-- A byte of BAR4 (R51, R53): the table of 64 entries of 16 bytes, address, data and the mask bit, and from 0x400 on
the pending bits (log entry 100). -/
def Vi.tableByte (v : Vi) (off : Nat) : Byte :=
  let k := off / 16
  let bytes := leBytes 8 (v.message k).1 ++ leBytes 4 (v.message k).2 ++ leBytes 4 (if v.masked.contains k then 1 else 0)
  if off < 0x400 then bytes.getD (off % 16) 0
  else if off < 0x408 then
    BitVec.ofNat 8 (((List.range 8).map (fun i => if v.pending.contains (8 * (off - 0x400) + i) then 2 ^ i else 0)).sum)
  else 0

/-- VISTAT_READ (R53): the counts are answered and cleared. With `input.third` 1 the host reads `input.size` bytes at
offset `input.sub` of BAR0 instead, with 2 of BAR4. -/
def execVistatRead (s : State) : Outcome State Fault Refusal :=
  let i := s.input
  .next (
    if i.third = 1 then
      let bs := (List.range i.size).map (fun k => s.barByte i.who (i.sub + k))
      { s.updIfc i.who (fun v => { v.cleared i.sub i.size with answer := some bs }) with freeCtr := s.freeCtr + 65536 }
    else if i.third = 2 then
      s.updIfc i.who (fun v => { v with answer := some ((List.range i.size).map (fun k => v.tableByte (i.sub + k))) })
    else s.updIfc i.who (fun v =>
      { v with answer := some (leBytes 4 (v.dropped * 65536 + v.failed)), dropped := 0, failed := 0 }))

/-! ### Function level reset (R58) -/

/-- A group of an interface that is reset: killed, no entry owed, tokens returned (R73). -/
def State.resetGroup (s : State) (id : Nat) : State :=
  match s.group id with
  | none => s
  | some g =>
    let s := if g.closed then s else s.refund g
    (match s.group id with
     | some h => s.putGroup { h with owed := false }
     | none => s).killGroup id 0

/-- A requester is a launch window of an interface. -/
def Asker.ofVi (vi : Nat) : Asker → Bool
  | .window v _ => decide (v = vi)
  | _ => false

/-- What an interface's windows have before the Chanter is released. -/
def State.dropWindows (s : State) (vi : Nat) : State :=
  let s := (s.chanter.queue.filter (fun l => l.asker.ofVi vi)).foldl (fun s l => s.leaveChanter l) s
  let x := s.inst instChanter
  let x := (x.holds.filter (fun h => h.asker.ofVi vi)).foldl (fun x h => x.unrecord h.asker) x
  s.setInst instChanter { x with tries := x.tries.filter (fun t => ! t.asker.ofVi vi) }

/-- FUNCTION_LEVEL_RESET (R58) of interface `input.who`; the groups that a migration or a pre-emption has stopped are
killed too. -/
def execFunctionLevelReset (s : State) : Outcome State Fault Refusal :=
  let vi := s.input.who
  let s := (s.chanter.groups.filter (fun g => decide (g.2.vi = vi))).foldl (fun s g => s.resetGroup g.1) s
  let s := (s.dropWindows vi).mapFaulters (fun fs => fs.filter (· ≠ .host vi))
  let s := { s with chanter := { s.chanter with
      away := s.chanter.away.filter (fun x => decide (x.2.1 ≠ vi))
      parked := s.chanter.parked.filter (fun g => decide (g.2.vi ≠ vi)) } }
  .next (s.updIfc vi (fun v =>
    { v with cqCtl := 0, cqBase := 0, reserved := 0, refusals := [], waits := [], stuck := false,
             precopy := v.precopy.map (fun p => { p with stopped := [], parked := [] }) }))

/-! ### CXL (R52) -/

/-- CXL_LINK_DOWN (R52): the link of port `input.who` goes down: its field of the capability record reads 0,
and no translation into its window is kept. -/
def execCxlLinkDown (s : State) : Outcome State Fault Refusal :=
  let n := s.input.who
  let c := s.boot.capability
  let lo := (n + 1) * 2 ^ 42
  .next (
    if 4 ≤ n then s
    else { s with
      boot := { s.boot with cxlUp := KV.put s.boot.cxlUp n false
                            capability := c.take (40 + 8 * n) ++ (List.replicate 8 0 ++ c.drop (48 + 8 * n)) }
      tlb := s.tlb.filter (fun t => leafRemote t.leaf ||
        ! decide (lo ≤ leafPA t.leaf ∧ leafPA t.leaf < lo + 2 ^ 42)) })

/-! ### Attestation (R59, R32) -/

/-- The header of an SPDM 1.3 response. -/
def spdmHead (code p1 p2 : Nat) : List Byte := leBytes 1 0x13 ++ leBytes 1 code ++ leBytes 1 p1 ++ leBytes 1 p2

/-- An ERROR response. -/
def spdmError (code : Nat) : List Byte := spdmHead 0x7F code 0

/-- The bytes of a text. -/
def ascii (t : String) : List Byte := t.toList.map (fun c => BitVec.ofNat 8 c.toNat)

/-- A signature by the attestation key, as SPDM lays it down: over the version's prefix, the context and the
hash of the messages. -/
def spdmSign (context : String) (messages : List Byte) : List Byte :=
  let ctx := ascii context
  Config.ecdsaSign 0 ((List.replicate 4 (ascii "dmtf-spdm-v1.3.*")).flatten ++
    List.replicate (36 - ctx.length) 0 ++ ctx ++ leBytes 64 (Config.sha512 messages).toNat)

/-- Responds to a request; the messages that later signatures cover change. -/
def State.respond (s : State) (vi : Nat) (r : List Byte) (f : Vi → Vi) : State :=
  s.updIfc vi (fun v => { f v with doe := r })

/-- GET_VERSION (R59): version 1.3. The request is `input.data`, here and below. -/
def execGetVersion (s : State) : Outcome State Fault Refusal :=
  let q := s.input.data
  let r := leBytes 1 0x10 ++ leBytes 1 0x04 ++ leBytes 2 0 ++ leBytes 2 0x0100 ++ leBytes 2 0x1300
  .next (s.respond s.input.who r (fun v => { v with vca := q ++ r, mid := [] }))

/-- GET_CAPABILITIES (R59): certificates, challenge and signed measurements. -/
def execGetCapabilities (s : State) : Outcome State Fault Refusal :=
  let q := s.input.data
  let r := spdmHead 0x61 0 0 ++ [0, Config.spdmByte 0, 0, 0] ++ leBytes 4 0x16 ++
    (List.range 8).map (fun i => Config.spdmByte (1 + i))
  .next (s.respond s.input.who r (fun v => { v with vca := v.vca ++ (q ++ r) }))

/-- NEGOTIATE_ALGORITHMS (R59): ECDSA over P-384 (bit 7 of the signatures offered) and SHA-512 (bit 2 of the
hashes); a requester that offers neither receives ERROR. -/
def execNegotiateAlgorithms (s : State) : Outcome State Fault Refusal :=
  let q := s.input.data
  let asym := leAt q 8 4 &&& 0x80
  let hash := leAt q 12 4 &&& 4
  if asym = 0 ∧ hash = 0 then .next (s.respond s.input.who (spdmError (Config.spdmByte 9).toNat) id)
  else
    let r := spdmHead 0x63 0 0 ++ leBytes 2 36 ++ [1, 0] ++ leBytes 4 1 ++ leBytes 4 asym ++ leBytes 4 hash ++
      List.replicate 16 0
    .next (s.respond s.input.who r (fun v => { v with vca := v.vca ++ (q ++ r) }))

/-- GET_DIGESTS (R59): slot 0. -/
def execGetDigests (s : State) : Outcome State Fault Refusal :=
  let q := s.input.data
  let r := spdmHead 0x01 1 1 ++ leBytes 64 (Config.sha512 Config.certChain).toNat
  .next (s.respond s.input.who r (fun v => { v with mid := v.mid ++ (q ++ r) }))

/-- GET_CERTIFICATE (R59): slot 0 only. -/
def execGetCertificate (s : State) : Outcome State Fault Refusal :=
  let q := s.input.data
  if leAt q 2 1 % 16 ≠ 0 then .next (s.respond s.input.who (spdmError 7) id)
  else
    let rest := Config.certChain.drop (leAt q 4 2)
    let part := rest.take (leAt q 6 2)
    let r := spdmHead 0x02 0 0 ++ leBytes 2 part.length ++ leBytes 2 (rest.length - part.length) ++ part
    .next (s.respond s.input.who r (fun v => { v with mid := v.mid ++ (q ++ r) }))

/-- CHALLENGE (R59): signed with the attestation key. -/
def execChallenge (s : State) : Outcome State Fault Refusal :=
  let q := s.input.data
  let v := s.ifc s.input.who
  if leAt q 2 1 ≠ 0 then .next (s.respond s.input.who (spdmError 7) id)
  else
    let nonce := leBytes 32 ((List.range 4).map (fun i => (Config.random (s.freeCtr + i)).toNat * 2 ^ (64 * i))).sum
    let r := spdmHead 0x03 0 1 ++ leBytes 64 (Config.sha512 Config.certChain).toNat ++ nonce ++
      (if leAt q 3 1 = 0 then [] else (List.range 64).map (fun i => Config.spdmByte (64 + i))) ++ leBytes 2 0 ++
      (q.drop 36).take 8
    let sig := spdmSign "responder-challenge_auth signing" (v.vca ++ (v.mid ++ (q ++ r)))
    .next (({ s with freeCtr := s.freeCtr + 4 } : State).respond s.input.who (r ++ sig) (fun v => { v with mid := [] }))

/-- A measurement block in the DMTF format, value type raw bit stream. -/
def measurementBlock (index : Nat) (value : List Byte) : List Byte :=
  leBytes 1 index ++ leBytes 1 1 ++ leBytes 2 (value.length + 3) ++
    leBytes 1 (128 + (Config.spdmByte (128 + index)).toNat % 128) ++ leBytes 2 value.length ++ value

/-- The measurement blocks (R59). -/
def State.measurements (s : State) (vi : Nat) : List (List Byte) :=
  (s.boot.images.zipIdx.map (fun x => measurementBlock (x.2 + 1)
    (leBytes 64 x.1.digest.toNat ++ leBytes 1 x.1.target ++ leBytes 1 x.1.bank))) ++
  [measurementBlock 0x40 (s.capabilityFor vi),
   measurementBlock 0x41 ((List.range 4).map (fun d => leBytes 4 (s.hubReg (0x200 + 8 * d)))).flatten]

/-- GET_MEASUREMENTS (R59, R32): every measurement with a signature is answered with the report; it carries the
requester's nonce. -/
def execGetMeasurements (s : State) : Outcome State Fault Refusal :=
  let q := s.input.data
  let v := s.ifc s.input.who
  if leAt q 2 1 % 2 = 0 ∨ leAt q 3 1 ≠ 0xFF then .next (s.respond s.input.who (spdmError 7) id)
  else
    let bs := s.measurements s.input.who
    let rec_ := bs.flatten
    let r := spdmHead 0x60 0 0 ++ leBytes 1 bs.length ++ leBytes 3 rec_.length ++ rec_ ++ (q.drop 4).take 32 ++
      leBytes 2 0 ++ (q.drop 37).take 8
    .next (s.respond s.input.who (r ++ spdmSign "responder-measurements signing" (v.vca ++ (q ++ r))) id)

/-- UNSUPPORTED_REQUEST (R59): ERROR of code UnsupportedRequest. -/
def execUnsupportedRequest (s : State) : Outcome State Fault Refusal :=
  .next (s.respond s.input.who (spdmError 7) id)

end Sys2Proof.Machine
end

