-- ==== Sys2Proof/Machine/Migrate.lean ====
section
/-! DEFINITION. Pre-copy migration (R61-R64). -/

namespace Sys2Proof.Machine

open Sys2Proof Host

/-- Replaces the pre-copy job of an interface. -/
def State.putJob64 (s : State) (vi : Nat) (p : Precopy) : State :=
  s.updIfc vi (fun v => { v with precopy := some p })

/-- A job moves to another state; vector 63 signals it (R53). -/
def State.migrationEvent (s : State) (vi : Nat) (p : Precopy) (phase : MigPhase) : State :=
  (s.putJob64 vi { p with phase := phase, begun := false }).raiseVector vi 63

/-- The job is over or there is none. -/
def Vi.noPrecopy (v : Vi) : Bool :=
  match v.precopy with
  | none => true
  | some p => decide (p.phase = .done ∨ p.phase = .failed)

/-- PRECOPY_JOB_START (R63, R64): a job for interface `input.who` with threshold `input.sub` and round limit
`input.third`; the peer's ephemeral key is `input.reply.ephemeral`. At the destination (`input.ok` false) the
same agreement opens the session of job `input.size`. -/
def execPrecopyJobStart (s : State) : Outcome State Fault Refusal :=
  let i := s.input
  let key := Config.hkdf (Config.ecdh s.freeCtr i.reply.ephemeral) []
  let t : State := { s with freeCtr := s.freeCtr + 1 }
  .next (
    if ! i.ok then t.updIfc i.who (fun v => { v with session := some { job := i.size, key := key, resend := [] } })
    else if (s.ifc i.who).noPrecopy then
      let p : Precopy := { job := s.host.nextJob, phase := .rounds, threshold := i.sub, limit := i.third, round := 0,
                           begun := false, reported := 0, todo := [], key := key, count := 0, stopped := [], parked := [], sent := false,
                           parcels := [] }
      ({ t with host := { t.host with nextJob := s.host.nextJob + 1 } } : State).migrationEvent i.who p .rounds
    else s)

/-! ### Rounds -/

/-- First byte of a tenant's bitmap, and the first past it. -/
def State.dirtyMap (s : State) (vi : Nat) : Nat × Nat :=
  let r := s.hubReg (offDLOG vi)
  let base := bitsOf r 91 56 * 2 ^ 16
  (base, base + 2 ^ bitsOf r 125 120 / 2 ^ 15)

/-- The granules whose bits are set in a tenant's bitmap, by index in the range. -/
def State.dirtyGranules (s : State) (vi : Nat) : List Nat :=
  let (lo, hi) := s.dirtyMap vi
  (s.mem.filter (fun c => decide (lo ≤ c.1 ∧ c.1 < hi))).flatMap (fun c =>
    ((List.range 8).filter (fun i => bitAt c.2.toNat i)).map (fun i => (c.1 - lo) * 8 + i))

/-- SNAPSHOT_AND_CLEAR of the whole range (R62): none while a write whose bit it returns is not visible. -/
def State.snapAll (s : State) (vi : Nat) : Option (State × List Nat) :=
  let (lo, hi) := s.dirtyMap vi
  let gs := s.dirtyGranules vi
  if gs.any (fun g => s.dirtyBusy vi (g / 64)) then none
  else some ({ s with mem := s.mem.filter (fun c => ! decide (lo ≤ c.1 ∧ c.1 < hi)) }, gs)

/-- The virtual address of a granule of the logged range. -/
def State.granuleVa (s : State) (vi g : Nat) : Nat := bitsOf (s.hubReg (offDLOG vi)) 119 93 * 2 ^ 30 + g * 4096

/-- The additional data of a granule's message. -/
def granuleAad (vi va round : Nat) : List Byte := leBytes 4 vi ++ leBytes 8 va ++ leBytes 4 round

/-- The nonce of a message: the job number and the message count. -/
def granuleNonce (job count : Nat) : BitVec 96 := BitVec.ofNat 96 (job * 2 ^ 64 + count % 2 ^ 64)

/-- Sends one granule (R63): none where its page faults; a page of a peer's is not this module's to send. -/
def State.sendGranule (s : State) (vi : Nat) (p : Precopy) (va : Nat) : State × Option Precopy :=
  match s.translate none false vi va .read with
  | (s, .fault k) => (s.collect 4 vi va k.bit none, none)
  | (s, .phys pa _) =>
    let (c, tag) := Config.gcmSeal p.key (granuleNonce p.job p.count) (granuleAad vi va p.round)
      (s.see none 4 (pa / 4096 * 4096) 4096)
    let m : GranuleMsg := { job := p.job, count := p.count, vi := vi, va := va, round := p.round, cipher := c, tag := tag }
    ({ s with host := { s.host with outbox := s.host.outbox ++ [m] } }, some { p with count := p.count + 1 })
  | (s, _) => (s, some p)

/-- Sends granules, by address; those that fault are left. -/
def State.sendAll (s : State) (vi : Nat) (p : Precopy) (left : List Nat) : List Nat → State × Precopy × List Nat
  | [] => (s, p, left)
  | g :: rest =>
    match s.sendGranule vi p (s.granuleVa vi g) with
    | (s, some p) => s.sendAll vi p left rest
    | (s, none) => s.sendAll vi p (left ++ [g]) rest

/-- Sends what a round has left. -/
def State.sendTodo (s : State) (vi : Nat) (p : Precopy) : State :=
  let (s, p, left) := s.sendAll vi p [] p.todo
  s.putJob64 vi { p with todo := left }

/-- A job sends in a round: in ROUNDS, and in FINAL its last one. -/
def Precopy.sends (p : Precopy) : Bool := decide (p.phase = .rounds ∨ p.phase = .final)

/-- An entry of the parcel table moves with its tenant: not while a delivery is under way (R181). -/
def Parcel.moves (p : Parcel) (vi : Nat) : Bool :=
  decide (p.tenant = vi) && decide (p.state ≠ .inTransit) && decide (p.state ≠ .pending)

/-- The tenant's entries of the parcel table move with the last round of its job (R181). -/
def State.sendParcels (s : State) (vi : Nat) (p : Precopy) : State × Precopy :=
  if p.phase ≠ .final then (s, p)
  else
    let go := s.parcels.table.filter (·.moves vi)
    ({ s with parcels := { s.parcels with table := s.parcels.table.filter (fun q => ! q.moves vi) }
              host := { s.host with entries := s.host.entries ++ go.map (fun q => (p.job, q)) } },
     { p with parcels := p.parcels ++ go })

/-- PRECOPY_ROUND (R63, R64): interface `input.who`. A round begins with its snapshot and sends each granule
reported; with `input.list`, the VAs that the destination reports, those are sent again in the same round. -/
def execPrecopyRound (s : State) : Outcome State Fault Refusal :=
  let vi := s.input.who
  .next (match (s.ifc vi).precopy with
    | none => s
    | some p =>
      if ! p.sends then s
      else if ! s.input.list.isEmpty then
        s.sendTodo vi { p with todo := p.todo ++ s.input.list.map (fun va => (va - s.granuleVa vi 0) / 4096) }
      else if p.begun then s.sendTodo vi p
      else match s.snapAll vi with
        | none => s
        | some (s, gs) =>
          let (s, p) := s.sendParcels vi p
          s.sendTodo vi { p with begun := true, round := p.round + 1, reported := gs.length, todo := gs })

/-- The state of a parcel that moves, by number. -/
def movedState (n : Nat) : ParcelState := match n with | 0 => .opened | 1 => .arrived | _ => .bounced

/-- An entry of the parcel table comes with a session: handle `input.sub`, first byte and length in `input.list`, with the
module of its last delivery, die `input.third`, state `input.value` (R181). -/
def State.takeEntry (s : State) (vi : Nat) : State :=
  let i := s.input
  if parcelMost ≤ s.parcels.table.length then s
  else
    let s := s.addParcel { id := 0, handle := i.sub, tenant := vi, base := i.list.getD 0 0, length := i.list.getD 1 0,
                           state := movedState i.value.toNat, die := i.third % 4, order := s.parcels.nextOrder,
                           since := 0, peer := i.list.getD 2 s.boot.moduleNo, span := none }
    { s with parcels := { s.parcels with nextOrder := s.parcels.nextOrder + 1 } }

/-- GRANULE_MESSAGE (R63): a message arrives for interface `input.who`; its granule is written only if its tag
verifies, else its VA is reported. With `input.size` 1 it brings an entry of the parcel table instead, with `input.ok`
where it is authentic (log entry 101), with 2 the tenant's context key, `input.data` (R78). -/
def execGranuleMessage (s : State) : Outcome State Fault Refusal :=
  let vi := s.input.who
  let m := s.input.granule
  .next (match (s.ifc vi).session with
    | none => s
    | some ss =>
      let report := fun (s : State) => s.updIfc vi (fun v => { v with session := some { ss with resend := ss.resend ++ [m.va] } })
      if s.input.size = 1 then (if s.input.ok then s.takeEntry vi else s)
      else if s.input.size = 2 then
        (if s.input.ok then s.updIfc vi (fun v => { v with contextKey := some (BitVec.ofNat 256 (ofLeBytes s.input.data)) })
         else s)
      else match Config.gcmOpen ss.key (granuleNonce m.job m.count) (granuleAad m.vi m.va m.round) m.cipher m.tag with
      | none => report s
      | some bs =>
        match s.translate none false vi (m.va / 4096 * 4096) .write with
        | (s, .phys pa _) => s.issuePieces (WriteTag.other 4) (linePieces 4096 pa (bs.take 4096))
        | (s, .fault k) => report (s.collect 4 vi m.va k.bit none)
        | (s, _) => report s)

/-! ### Stopping (R64) -/

/-- A group of a job that stops: it drains, or is checkpointed; one that can do neither stays. A victim of a pre-emption
leaves as it does; one that has not drained in time is checkpointed where that is possible now, and stays marked late.
A group whose task's watchdog has run out in the same ac is killed (R74). -/
def State.stopForMigration (s : State) (g : Group) : State :=
  if g.closed then s
  else if s.barkedNow g.id then s.killGroup g.id 0x10
  else if g.leave = .drain ∧ g.late = true then
    (if s.canCheckpoint g then (s.putGroup { g with leave := .checkpoint }).stopGroup g.id else s)
  else if g.leave ≠ .stay then s
  else if s.drains g then s.putGroup { g with leave := .drain, since := s.time, payer := 256, paid := 0 }
  else if s.canCheckpoint g then
    (s.putGroup { g with leave := .checkpoint, since := s.time, payer := 256, paid := 0 }).stopGroup g.id
  else s

/-- The groups of a job that have stopped, with their records. -/
def Precopy.gone (p : Precopy) : List (Group × List Saved) := p.stopped ++ p.parked

/-- The context records of the groups that have stopped are sent, once the last round is made (R64). -/
def State.sendRecords (s : State) (vi : Nat) (p : Precopy) : State :=
  let rs := p.gone.flatMap (fun x => x.2.map (fun r => (p.job, r.bytes)))
  ({ s with host := { s.host with records := s.host.records ++ rs } } : State).putJob64 vi { p with sent := true }

/-- The records of a group that a pre-emption has saved, as the Chanter last wrote them: one for each member. -/
def State.parkedRecords (s : State) (g : Group) : List Saved :=
  let rs := s.chanter.saved.filter (fun x => decide (leAt x.bytes 48 8 = g.id ∧ leAt x.bytes 24 8 = g.sequence))
  rs.drop (rs.length - g.members.length)

/-- A job takes over the groups of its interface that a pre-emption has stopped and that have not been restored: they
have stopped (R64). -/
def State.takeParked (s : State) (vi : Nat) (p : Precopy) : State × Precopy :=
  let mine := fun (x : Nat × Nat × Bool) => decide (x.2.1 = vi ∧ x.2.2 = false)
  let gs := (s.chanter.away.filter mine).filterMap (fun x => (s.chanter.parked.find? (fun g => g.1 = x.1)).map (·.2))
  ({ s with chanter := { s.chanter with away := s.chanter.away.filter (fun x => ! mine x) } },
   { p with parked := p.parked ++ gs.map (fun g => (g, s.parkedRecords g)) })

/-- PRECOPY_ROUND_END (R64): a round of interface `input.who` has ended; after the last one the context records are
sent. -/
def execPrecopyRoundEnd (s : State) : Outcome State Fault Refusal :=
  let vi := s.input.who
  .next (match (s.ifc vi).precopy with
    | none => s
    | some p =>
      if ! p.begun || ! p.todo.isEmpty then s
      else if p.phase = .rounds ∧ (p.reported ≤ p.threshold ∨ p.limit ≤ p.round) then
        let (s, p) := s.takeParked vi p
        let s := s.migrationEvent vi p .stopping
        (s.chanter.groups.filter (fun g => decide (g.2.vi = vi))).foldl (fun s g => s.stopForMigration g.2) s
      else if p.phase = .final then (if p.sent then s else s.sendRecords vi p)
      else s.putJob64 vi { p with begun := false })

/-- Groups of an interface that have neither ended nor stopped for good. -/
def State.openGroups (s : State) (vi : Nat) : List Group :=
  (s.chanter.groups.filter (fun g => decide (g.2.vi = vi) && ! g.2.closed)).map (·.2)

/-- A stopped group comes back on idle banks, where there is room; its entries bear the sequence number of a restored
group (R56). -/
def State.bringBack (s : State) (vi : Nat) (p : Precopy) (x : Group × List Saved) : State × Precopy :=
  match s.restorePlan (s.viewOf vi) x.1.record with
  | none => (s, { p with stopped := p.stopped ++ [x] })
  | some banks =>
    let g := { x.1 with members := banks, seq := 0xFFFFFFFF, leave := .stay, closed := false, kept := [], loaded := true }
    let s := (banks.zip x.2).foldl (fun s y => s.reviveBank y.1 y.2.bytes) (s.settleGroup g)
    ({ s with chanter := { s.chanter with restored := KV.put s.chanter.restored g.id g.sequence } }, p)

/-- The tasks of a group that have stopped and whose records have not been written go on. -/
def State.resume (s : State) (g : Group) : State :=
  (s.held g).foldl (fun s b => s.updBank b (fun B => if B.status = .stopped then { B.moved with status := .live } else B)) s

/-- A group that a migration has marked goes on; a late victim runs on as one. -/
def State.unstop (s : State) (g : Group) : State :=
  if g.payer = 256 ∧ g.leave ≠ .stay then (s.putGroup { g with leave := .stay, payer := 0 }).resume g
  else if g.leave = .checkpoint ∧ g.late = true then (s.putGroup { g with leave := .drain }).resume g
  else s

/-- The entries of the parcel table that had moved come back, as far as the table has room (R168): the others come back
at a later look. -/
def State.entriesBack (s : State) (p : Precopy) : State × Precopy :=
  let n := parcelMost - s.parcels.table.length
  ({ s with parcels := { s.parcels with table := s.parcels.table ++ p.parcels.take n } },
   { p with parcels := p.parcels.drop n })

/-- Groups that a job had taken over stay as a pre-emption had left them. -/
def State.parkAgain (s : State) (p : Precopy) : State × Precopy :=
  ({ s with chanter := { s.chanter with
      away := p.parked.foldl (fun m x => KV.put m x.1.id (x.1.vi, false)) s.chanter.away } },
   { p with parked := [] })

/-- FAILED (R64): the stopped groups are restored, with their tenant's parcels, and launches accepted again. -/
def State.failMigration (s : State) (vi : Nat) (p : Precopy) : State :=
  let (s, p) := s.entriesBack p
  let (s, p) := s.parkAgain p
  let s := (s.openGroups vi).foldl (fun s g => s.unstop g) s
  let (s, q) := p.stopped.foldl (fun (x : State × Precopy) g => x.1.bringBack vi x.2 g) (s, { p with stopped := [] })
  s.migrationEvent vi q .failed

/-- STOPPING_COMPLETE (R64): interface `input.who`. -/
def execStoppingComplete (s : State) : Outcome State Fault Refusal :=
  let vi := s.input.who
  .next (match (s.ifc vi).precopy with
    | none => s
    | some p =>
      if p.phase ≠ .stopping then s
      else if (s.openGroups vi).isEmpty then s.migrationEvent vi p .final
      else if (s.openGroups vi).any (fun g => decide (g.leave = .stay) || (decide (g.leave = .drain) && g.late)) then
        s.failMigration vi p
      else s)

/-- The tenant of an interface is freed: what the hub holds for it, its parcels, translations, cached lines and the
records of its groups, is gone (log entry 102). -/
def State.freeTenant (s : State) (vi : Nat) (p : Precopy) : State :=
  let mine := p.gone.flatMap (fun x => x.2)
  { s with
    parcels := { s.parcels with table := s.parcels.table.filter (fun q => decide (q.tenant ≠ vi)) }
    tlb := s.tlb.filter (fun t => decide (t.tenant ≠ vi))
    walks := s.walks.filter (fun w => decide (w.tenant ≠ vi))
    l2 := s.l2.filter (fun l => match l.key.home with | some (t, _, _) => decide (t ≠ vi) | none => true)
    chanter := { s.chanter with
      saved := s.chanter.saved.filter (fun r => ! mine.contains r)
      parked := s.chanter.parked.filter (fun g => decide (g.2.vi ≠ vi)) } }

/-- RESTORE_COMPLETE_REPORT (R64): the destination has restored interface `input.who`, once it has the context
records: one entry of kind 6 for each stopped group. -/
def execRestoreCompleteReport (s : State) : Outcome State Fault Refusal :=
  let vi := s.input.who
  .next (match (s.ifc vi).precopy with
    | none => s
    | some p =>
      if p.phase ≠ .final ∨ p.sent = false then s
      else
        let s := (s.freeTenant vi p)
        let s := p.gone.foldl (fun s x =>
          (s.complete vi 6 x.1.window 0 x.1.seq x.1.id (recLine x.1.record)).unreserve vi) s
        s.migrationEvent vi { p with stopped := [], parked := [], key := 0, parcels := [] } .done)

/-- RESTORE_FAILED_REPORT (R64): the destination could not restore interface `input.who`; groups for which there
was no room then come back at a later one. -/
def execRestoreFailedReport (s : State) : Outcome State Fault Refusal :=
  let vi := s.input.who
  .next (match (s.ifc vi).precopy with
    | none => s
    | some p =>
      if p.phase = .final ∨ (p.phase = .failed ∧ (p.stopped ≠ [] ∨ p.parcels ≠ [])) then s.failMigration vi p else s)

end Sys2Proof.Machine
end

