-- ==== Sys2Proof/Machine/Flags.lean ====
section
/-! DEFINITION. Number formats, rounding and the flags that they raise (chapter 12, R200-R219): the exact value of
a code, exact arithmetic on values, and the one place where a value is rounded to a code. -/

namespace Sys2Proof.Machine

open Sys2Proof

/-! ### Flags (R220) -/

def flINVALID := 1
def flDIVZERO := 2
def flOVF := 4
def flUNF := 8
def flINEXACT := 16
def flACCOVF := 32
def flACCINEXACT := 64

/-! ### Format tags (R200) -/

/-- Bits of an element of a tag; 0 for none. -/
def tagBits (t : Nat) : Nat :=
  match t with
  | 0 => 0
  | 1 => 8
  | 2 => 8
  | 3 => 16
  | 4 => 16
  | 5 => 32
  | 6 => 32
  | 7 => 64
  | 8 => 4
  | 9 => 4
  | 10 => 16
  | 11 => 16
  | 12 => 32
  | _ => 8

/-- The tags i8 to i64 and ui8 to ui32. -/
def tagInt (t : Nat) : Bool := decide (1 ≤ t ∧ t ≤ 7)

/-- The tags i4 and ui4. -/
def tagInt4 (t : Nat) : Bool := decide (t = 8 ∨ t = 9)

/-- A signed integer tag. -/
def tagSigned (t : Nat) : Bool := decide (t = 1 ∨ t = 3 ∨ t = 5 ∨ t = 7 ∨ t = 8)

/-- f16, bf16 and f32. -/
def tagFloat (t : Nat) : Bool := decide (10 ≤ t ∧ t ≤ 12)

/-- A binary8 tag. -/
def tagB8 (t : Nat) : Bool := decide (0x20 ≤ t)

/-- A floating or binary8 format, or e8m0: its precision, bias, whether it is one of IEEE 754, has a sign and
infinities, and its bits. -/
structure FloatFmt where
  p : Nat
  bias : Nat
  ieee : Bool
  signed : Bool
  inf : Bool
  bits : Nat
deriving DecidableEq, Repr

/-- The format of a floating or binary8 tag (R202-R204). -/
def floatFmt (t : Nat) : FloatFmt :=
  match t with
  | 10 => { p := 11, bias := 15, ieee := true, signed := true, inf := true, bits := 16 }
  | 11 => { p := 8, bias := 127, ieee := true, signed := true, inf := true, bits := 16 }
  | 12 => { p := 24, bias := 127, ieee := true, signed := true, inf := true, bits := 32 }
  | _ =>
    let p := t % 8
    let s := bitAt t 4
    { p := p, bias := if s then 2 ^ (7 - p) else 2 ^ (8 - p), ieee := false, signed := s, inf := bitAt t 3, bits := 8 }

/-- The sign bit of a format, 0 where it has none. -/
def FloatFmt.signBit (f : FloatFmt) : Nat := if f.signed then 2 ^ (f.bits - 1) else 0

/-- The code of plus infinity, where the format has one; it follows the largest finite code. -/
def FloatFmt.infCode (f : FloatFmt) : Nat :=
  if f.ieee then 2 ^ (f.bits - 1) - 2 ^ (f.p - 1) else if f.signed then 0x7F else 0xFE

/-- The largest finite code. -/
def FloatFmt.maxCode (f : FloatFmt) : Nat := if f.inf then f.infCode - 1 else f.infCode

/-- The canonical NaN. -/
def FloatFmt.nanCode (f : FloatFmt) : Nat :=
  if f.ieee then f.infCode + 2 ^ (f.p - 2) else if f.signed then 0x80 else 0xFF

/-! ### Values -/

/-- An exact value: every finite one is a whole number of some power of two. -/
inductive Num where
  | nan
  | inf (neg : Bool)
  | fin (neg : Bool) (m : Nat) (e : Int)
deriving DecidableEq, Repr

/-- The value of the positive finite code `c`. -/
def FloatFmt.magnitude (f : FloatFmt) (neg : Bool) (c : Nat) : Num :=
  let h := 2 ^ (f.p - 1)
  let e := c / h
  if e = 0 then .fin neg (c % h) (1 - (f.bias : Int) - (f.p - 1 : Nat))
  else .fin neg (h + c % h) ((e : Int) - f.bias - (f.p - 1 : Nat))

/-- The value of a code of a floating format (R202-R204). -/
def FloatFmt.decode (f : FloatFmt) (c : Nat) : Num :=
  let neg := f.signed && bitAt c (f.bits - 1)
  let mag := if f.signed then c % 2 ^ (f.bits - 1) else c
  if f.ieee && decide (f.infCode < mag) then .nan
  else if ! f.ieee && decide (c = f.nanCode) then .nan
  else if f.inf && decide (mag = f.infCode) then .inf neg
  else f.magnitude neg mag

/-- The integer that a code of `w` bits stands for. -/
def intOf (signed : Bool) (w c : Nat) : Int := if signed && bitAt c (w - 1) then (c : Int) - 2 ^ w else c

/-- The value of an integer. -/
def Num.ofInt (x : Int) (e : Int) : Num := .fin (decide (x < 0)) x.natAbs e

/-- The value of a code under a tag (R201-R205). -/
def valueOf (t c : Nat) : Num :=
  if tagInt t || tagInt4 t then Num.ofInt (intOf (tagSigned t) (tagBits t) c) 0
  else if t = 13 then (if c = 0xFF then .nan else .fin false 1 ((c : Int) - 127))
  else (floatFmt t).decode c

/-- A value times a power of two. -/
def Num.scale (x : Num) (k : Int) : Num :=
  match x with
  | .fin n m e => .fin n m (e + k)
  | y => y

/-- A value under a scale: `div` takes the scale's inverse; a NaN scale gives NaN (R206, R338). -/
def scaled (div : Bool) (e : Nat) (x : Num) : Num :=
  if e = 0xFF then .nan else x.scale (if div then 127 - (e : Int) else (e : Int) - 127)

/-- The negative of a value. -/
def Num.neg : Num → Num
  | .fin n m e => .fin (! n) m e
  | .inf n => .inf (! n)
  | .nan => .nan

def Num.isNan : Num → Bool
  | .nan => true
  | _ => false

def Num.isZero : Num → Bool
  | .fin _ m _ => decide (m = 0)
  | _ => false

/-- The sign of a value; a zero keeps its own. -/
def Num.isNeg : Num → Bool
  | .fin n _ _ => n
  | .inf n => n
  | .nan => false

/-- A finite value as an integer in units of `2 ^ e`, which is at most its own exponent. -/
def signedAt (n : Bool) (m : Nat) (e at_ : Int) : Int :=
  let k : Int := (m * 2 ^ (e - at_).toNat : Nat)
  if n then - k else k

/-! ### Exact arithmetic (R217, R328) -/

/-- A sum, and whether it is invalid; `rdn` gives the sign of an exact zero of unlike addends. -/
def Num.add (rdn : Bool) (x y : Num) : Num × Bool :=
  match x, y with
  | .nan, _ => (.nan, false)
  | _, .nan => (.nan, false)
  | .inf a, .inf b => if a = b then (.inf a, false) else (.nan, true)
  | .inf a, _ => (.inf a, false)
  | _, .inf b => (.inf b, false)
  | .fin a m e, .fin b n f =>
    if m = 0 ∧ n = 0 then (.fin (if a = b then a else rdn) 0 0, false)
    else
      let g := min e f
      let s := signedAt a m e g + signedAt b n f g
      if s = 0 then (.fin rdn 0 0, false) else (Num.ofInt s g, false)

/-- A product, and whether it is invalid. -/
def Num.mul (x y : Num) : Num × Bool :=
  match x, y with
  | .nan, _ => (.nan, false)
  | _, .nan => (.nan, false)
  | .inf a, z => if z.isZero then (.nan, true) else (.inf (a != z.isNeg), false)
  | z, .inf b => if z.isZero then (.nan, true) else (.inf (b != z.isNeg), false)
  | .fin a m e, .fin b n f => (.fin (a != b) (m * n) (e + f), false)

/-- `x × y + d`, rounded nowhere (R331): a 0 × ∞ product is invalid whatever `d` is. -/
def Num.fma (rdn : Bool) (x y d : Num) : Num × Bool :=
  let (p, i) := x.mul y
  if i then (.nan, true) else if x.isNan || y.isNan then (.nan, false) else p.add rdn d

/-- Whether `x < y`, of values that are not NaN; both zeros are equal. -/
def Num.lt (x y : Num) : Bool :=
  match x, y with
  | .inf a, .inf b => a && ! b
  | .inf a, _ => a
  | _, .inf b => ! b
  | .fin a m e, .fin b n f => decide (signedAt a m e (min e f) < signedAt b n f (min e f))
  | _, _ => false

/-- Whether `x < y`, with −0 below +0. -/
def Num.ltZ (x y : Num) : Bool := if x.isZero && y.isZero then x.isNeg && ! y.isNeg else x.lt y

/-- The minimum or maximum; any NaN gives NaN (R330). -/
def Num.pick (max_ : Bool) (x y : Num) : Num :=
  if x.isNan || y.isNan then .nan else if max_ then (if x.ltZ y then y else x) else (if y.ltZ x then y else x)

/-- As `pick`, but one NaN gives the other operand. -/
def Num.pickNum (max_ : Bool) (x y : Num) : Num :=
  if x.isNan then y else if y.isNan then x else x.pick max_ y

/-! ### Functions (R332, R347)

An irrational result is stood for by a value strictly between the same two whole numbers of its last place, whose
places lie far below those of any target, so that it rounds as the exact one does. -/

/-- Newton's step towards a square root, from above. -/
def isqrtFrom : Nat → Nat → Nat → Nat
  | 0, _, r => r
  | fuel + 1, n, r =>
    let s := (r + n / r) / 2
    if s < r then isqrtFrom fuel n s else r

/-- The whole part of a square root. -/
def isqrt (n : Nat) : Nat := if n = 0 then 0 else isqrtFrom (n.log2 + 2) n (2 ^ (n.log2 / 2 + 1))

/-- A magnitude of which the whole part in units of `2 ^ e` is `m`, and the rest is zero if `exact`. -/
def between (neg : Bool) (m : Nat) (e : Int) (exact : Bool) : Num :=
  .fin neg (2 * m + (if exact then 0 else 1)) (e - 1)

/-- √x, and whether it is invalid. -/
def Num.sqrt (x : Num) : Num × Bool :=
  match x with
  | .nan => (.nan, false)
  | .inf n => if n then (.nan, true) else (.inf false, false)
  | .fin n m e =>
    if m = 0 then (.fin n 0 0, false)
    else if n then (.nan, true)
    else
      let m := if e % 2 = 0 then m else 2 * m
      let e := if e % 2 = 0 then e else e - 1
      let s := isqrt (m * 2 ^ 160)
      (between false s (e / 2 - 80) (decide (s * s = m * 2 ^ 160)), false)

/-- 1 ÷ x and the flags it raises before rounding. -/
def Num.rcp (x : Num) : Num × Nat :=
  match x with
  | .nan => (.nan, 0)
  | .inf n => (.fin n 0 0, 0)
  | .fin n m e =>
    if m = 0 then (.inf n, flDIVZERO)
    else
      let k := m.log2 + 80
      (between n (2 ^ k / m) (- e - k) (decide (2 ^ k % m = 0)), 0)

/-- 1 ÷ √x and the flags it raises before rounding. -/
def Num.rsqrt (x : Num) : Num × Nat :=
  match x with
  | .nan => (.nan, 0)
  | .inf n => if n then (.nan, flINVALID) else (.fin false 0 0, 0)
  | .fin n m e =>
    if m = 0 then (.inf n, flDIVZERO)
    else if n then (.nan, flINVALID)
    else
      let m := if e % 2 = 0 then m else 2 * m
      let e := if e % 2 = 0 then e else e - 1
      let k := m.log2 + 100
      let s := isqrt (2 ^ (2 * k) / m)
      (between false s (- (e / 2) - k) (decide (s * s * m = 2 ^ (2 * k))), 0)

/-- The product of the powers 2^(2^−i) for the bits of a fraction of `n` bits, in units of 2^−200: `r` is the
present power, `acc` the product so far. -/
def exp2Bits : Nat → Nat → Nat → Nat → Nat
  | 0, _, _, acc => acc
  | n + 1, frac, r, acc =>
    exp2Bits n frac (isqrt (r * 2 ^ 200)) (if bitAt frac n then acc * r / 2 ^ 200 else acc)

/-- 2^x. -/
def Num.exp2 (x : Num) : Num :=
  match x with
  | .nan => .nan
  | .inf n => if n then .fin false 0 0 else .inf false
  | .fin n m e =>
    if m = 0 then .fin false 1 0
    else if 12 ≤ (m.log2 : Int) + e then .fin false 1 (if n then -8192 else 8192)
    else
      let s := (- e).toNat
      let v := signedAt n m (max e 0) 0
      let w := v / 2 ^ s
      let frac := (v % 2 ^ s).toNat
      if frac = 0 then .fin false 1 w
      else between false (exp2Bits s frac (isqrt (2 * 2 ^ 400)) (2 ^ 200) / 2 ^ 40) (w - 160) false

/-- The bits of log2 y for y in [1, 2) in units of 2^−400: at each step y is squared, and halved where that reaches
2. -/
def log2Bits : Nat → Nat → Nat → Nat
  | 0, _, acc => acc
  | n + 1, y, acc =>
    let z := y * y / 2 ^ 400
    if 2 ^ 401 ≤ z then log2Bits n (z / 2) (2 * acc + 1) else log2Bits n z (2 * acc)

/-- log2 x and the flags it raises before rounding. -/
def Num.log2 (x : Num) : Num × Nat :=
  match x with
  | .nan => (.nan, 0)
  | .inf n => if n then (.nan, flINVALID) else (.inf false, 0)
  | .fin n m e =>
    if m = 0 then (.inf true, flDIVZERO)
    else if n then (.nan, flINVALID)
    else
      let l := m.log2
      let w := e + l
      if m = 2 ^ l then (Num.ofInt w 0, 0)
      else
        let s := w * 2 ^ 160 + (log2Bits 160 (m * 2 ^ (400 - l)) 0 : Nat)
        (if 0 ≤ s then between false s.toNat (-160) false else between true (- s - 1).toNat (-160) false, 0)

/-! ### Rounding (R207, R208) -/

/-- A rounding: the mode, the overflow mode, and the 8 random bits that a stochastic one takes. -/
structure Rounding where
  mode : Nat
  spec : Bool
  random : Nat
deriving DecidableEq, Repr

/-- The magnitude goes to hi: `rem` of `2 ^ d` parts lie between lo and x, lo's code is even or not. -/
def Rounding.up (r : Rounding) (neg even : Bool) (rem d : Nat) : Bool :=
  if rem = 0 then false
  else match r.mode with
    | 0 => decide (2 ^ d < 2 * rem) || (decide (2 * rem = 2 ^ d) && ! even)
    | 1 => false
    | 2 => neg
    | 3 => ! neg
    | _ => decide (256 ≤ 256 * rem / 2 ^ d + r.random % 256)

/-- The mode rounds away from zero (R209). -/
def Rounding.toward (r : Rounding) (neg : Bool) : Bool :=
  match r.mode with
  | 0 => true
  | 1 => false
  | 2 => neg
  | 3 => ! neg
  | _ => true

/-- A magnitude in units of `2 ^ q`: the whole part, the rest, and in how many parts of two it is counted. -/
def cut (m : Nat) (e q : Int) : Nat × Nat × Nat :=
  if q ≤ e then (m * 2 ^ (e - q).toNat, 0, 0)
  else
    let d := (q - e).toNat
    (m / 2 ^ d, m % 2 ^ d, d)

/-- A positive magnitude rounded to a code of a format whose exponent range is unbounded at the top, and whether
that changed it (R207). -/
def FloatFmt.round (f : FloatFmt) (r : Rounding) (neg : Bool) (m : Nat) (e : Int) : Nat × Bool :=
  let top := e + m.log2
  let least : Int := 1 - f.bias
  let h := 2 ^ (f.p - 1)
  let q := (if top < least then least else top) - (f.p - 1 : Nat)
  let (k, rem, d) := cut m e q
  let c := if top < least then k else (top + f.bias).toNat * h + (k - h)
  (c + (if r.up neg (decide (c % 2 = 0)) rem d then 1 else 0), decide (rem ≠ 0))

/-- The code of a signed magnitude; binary8 has no −0. -/
def FloatFmt.withSign (f : FloatFmt) (neg : Bool) (c : Nat) : Nat :=
  if neg && (f.ieee || decide (c ≠ 0)) then c + f.signBit else c

/-- The code of a value in a floating format, and the flags (R207-R209). -/
def FloatFmt.encode (f : FloatFmt) (r : Rounding) (x : Num) : Nat × Nat :=
  match x with
  | .nan => (f.nanCode, 0)
  | .inf neg =>
    if neg && ! f.signed then (if r.spec then f.nanCode else 0, flINVALID)
    else if f.inf then (f.withSign neg f.infCode, 0)
    else if r.spec then (f.nanCode, flINVALID)
    else (f.withSign neg f.maxCode, flOVF)
  | .fin neg m e =>
    if m = 0 then (f.withSign (neg && f.signed) 0, 0)
    else
      let neg' := neg && f.signed
      let (c, inexact) := f.round r neg' m e
      if neg && ! f.signed && decide (c ≠ 0) then (if r.spec then f.nanCode else 0, flINVALID)
      else if f.maxCode < c then
        (if ! r.spec then f.withSign neg' f.maxCode
         else if ! f.inf then f.nanCode
         else if r.toward neg' then f.withSign neg' f.infCode else f.withSign neg' f.maxCode, flOVF + flINEXACT)
      else
        (f.withSign neg' c, (if inexact then flINEXACT else 0) +
          (if inexact && decide (c ≠ 0 ∧ c < 2 ^ (f.p - 1)) then flUNF else 0))

/-- A magnitude rounded to a whole number, and whether that changed it. -/
def roundWhole (r : Rounding) (neg : Bool) (m : Nat) (e : Int) : Nat × Bool :=
  let (k, rem, d) := cut m e 0
  (k + (if r.up neg (decide (k % 2 = 0)) rem d then 1 else 0), decide (rem ≠ 0))

/-- The least and the greatest integer of a tag. -/
def intMin (t : Nat) : Int := if tagSigned t then - 2 ^ (tagBits t - 1) else 0
def intMax (t : Nat) : Int := if tagSigned t then 2 ^ (tagBits t - 1) - 1 else 2 ^ tagBits t - 1

/-- The code of an integer. -/
def intCode (w : Nat) (x : Int) : Nat := (x % 2 ^ w).toNat

/-- The code of a value under an integer tag, and the flags (R210). -/
def encodeInt (t : Nat) (r : Rounding) (x : Num) : Nat × Nat :=
  let w := tagBits t
  match x with
  | .nan => (0, flINVALID)
  | .inf neg => (intCode w (if neg then intMin t else intMax t), flINVALID)
  | .fin neg m e =>
    let (k, inexact) := roundWhole r neg m e
    let v : Int := if neg then - (k : Int) else k
    let fl := if inexact then flINEXACT else 0
    if v < intMin t then (intCode w (intMin t), flINVALID + fl)
    else if intMax t < v then (intCode w (intMax t), flINVALID + fl)
    else (intCode w v, fl)

/-- The code of a value in e8m0, and the flags (R210). -/
def encodeE8m0 (r : Rounding) (x : Num) : Nat × Nat :=
  let most := if r.spec then 0xFF else 0xFE
  match x with
  | .nan => (0xFF, 0)
  | .inf neg => if neg then (0xFF, flINVALID) else (most, if r.spec then flINVALID else flOVF)
  | .fin neg m e =>
    if m = 0 ∨ neg = true then (0xFF, flINVALID)
    else
      let l := m.log2
      let top := e + l
      let rem := m - 2 ^ l
      let c := top + 127 + (if r.up false (decide ((top + 127) % 2 = 0)) rem l then 1 else 0)
      let fl := if rem = 0 then 0 else flINEXACT
      if 254 < c then (most, flOVF + fl)
      else if c < 0 then (0, flUNF + fl)
      else (c.toNat, fl)

/-- A CONVERSION (R207-R210): the code of a value under a tag, and the flags. -/
def encodeTag (t : Nat) (r : Rounding) (x : Num) : Nat × Nat :=
  if tagInt t || tagInt4 t then encodeInt t r x
  else if t = 13 then encodeE8m0 r x
  else (floatFmt t).encode r x

/-! ### Accumulator elements (R211-R215) -/

/-- The value of an element: an integer in units of lsb, and a special state (0 normal, 1 +∞, 2 −∞, 3 NaN). -/
def accValue (v : BitVec 128) (st : Nat) (anchor : Int) : Num :=
  match st with
  | 0 => Num.ofInt v.toInt (anchor - 64)
  | 1 => .inf false
  | 2 => .inf true
  | _ => .nan

/-- The limits of an element. -/
def accMax : Int := 2 ^ 127 - 1
def accMin : Int := - 2 ^ 127

/-- An integer held within the limits, and ACC_OVF. -/
def accClamp (x : Int) : BitVec 128 × Nat :=
  if accMax < x then (BitVec.ofInt 128 accMax, flACCOVF)
  else if x < accMin then (BitVec.ofInt 128 accMin, flACCOVF)
  else (BitVec.ofInt 128 x, 0)

/-- The whole number nearest a finite value, ties to even. -/
def nearest (neg : Bool) (m : Nat) (e : Int) : Int × Bool :=
  let (k, inexact) := roundWhole { mode := 0, spec := false, random := 0 } neg m e
  (if neg then - (k : Int) else k, inexact)

/-- A normal element under a new anchor (R212), and the flags. -/
def accAnchor (v : BitVec 128) (old new : Int) : BitVec 128 × Nat :=
  if old < new then
    let (k, inexact) := nearest (decide (v.toInt < 0)) v.toInt.natAbs (old - new)
    (BitVec.ofInt 128 k, if inexact then flACCINEXACT else 0)
  else accClamp (v.toInt * 2 ^ (old - new).toNat)

/-- What the products of a step have come to for one element: the sum, special results met, and the flags. -/
structure StepSum where
  sum : Int
  nan : Bool
  pinf : Bool
  ninf : Bool
  flags : Nat
deriving DecidableEq, Repr

/-- One product of a step (R213). -/
def StepSum.step (s : StepSum) (anchor : Int) (x y : Num) : StepSum :=
  match x.mul y with
  | (_, true) => { s with nan := true, flags := s.flags ||| flINVALID }
  | (.nan, _) => { s with nan := true }
  | (.inf neg, _) => if neg then { s with ninf := true } else { s with pinf := true }
  | (.fin neg m e, _) =>
    let (k, inexact) := nearest neg m (e - (anchor - 64))
    { s with sum := s.sum + k, flags := if inexact then s.flags ||| flACCINEXACT else s.flags }

/-- An element after a step: its value, its state and the flags. -/
def StepSum.finish (s : StepSum) (v : BitVec 128) : BitVec 128 × Nat × Nat :=
  if s.pinf && s.ninf && ! s.nan then (0, 3, s.flags ||| flINVALID)
  else if s.nan then (0, 3, s.flags)
  else if s.pinf then (0, 1, s.flags)
  else if s.ninf then (0, 2, s.flags)
  else
    let (x, f) := accClamp (v.toInt + s.sum)
    (x, 0, s.flags ||| f)

end Sys2Proof.Machine
end

