-- ==== Sys2Proof/Machine/Operands.lean ====
section
/-! DEFINITION. Operand forms of the vector words (R323-R328): lanes, operand codes, masks and destinations, the
checks at issue, what a word takes and what it writes; and the operations that every VEC word shares. -/

namespace Sys2Proof.Machine

open Sys2Proof Host

/-! ### Lanes (R323) -/

/-- Lane `l` of `e` bits. -/
def lane (e x l : Nat) : Nat := (x >>> (e * l)) % 2 ^ e

/-- The first `n` lanes. -/
def lanesOf (e n x : Nat) : List Nat := (List.range n).map (lane e x)

/-- Lanes side by side from bit 0. -/
def packLanes (e : Nat) : List Nat → Nat
  | [] => 0
  | v :: rest => v % 2 ^ e + 2 ^ e * packLanes e rest

/-- Lanes from `l` on side by side; an absent one keeps the old bits. -/
def packOver (e old : Nat) : Nat → List (Option Nat) → Nat
  | _, [] => 0
  | l, none :: rest => lane e old l + 2 ^ e * packOver e old (l + 1) rest
  | l, some v :: rest => v % 2 ^ e + 2 ^ e * packOver e old (l + 1) rest

/-- The low `e` bits of a scalar in every lane of a register. -/
def spread (e : Nat) (x : Word) : Nat := packLanes e (List.replicate (4096 / e) x.toNat)

/-- Bits of a lane in a data-movement word: 4-bit elements go in pairs. -/
def moveBits (t : Nat) : Nat := if tagBits t = 4 then 8 else tagBits t

/-- Bytes of a vector. -/
def Bank.vecBytes (B : Bank) : Nat := 64 * (bitsOf (B.csrGet csrVSH).toNat 2 0 + 1)

/-- Lanes of `e` bits. -/
def Bank.laneCount (B : Bank) (e : Nat) : Nat := 8 * B.vecBytes / e

/-! ### What a word reads (R325, R326) -/

/-- The format tag of a source operand. -/
def Bank.opTag (B : Bank) (c : BitVec 6) : Nat :=
  let v := (B.csrGet csrVSH).toNat
  if c.toNat < 32 then (B.r.readV c.toNat).tag.toNat
  else if c.toNat = 36 then bitsOf v 35 30
  else bitsOf v (6 * (c.toNat - 32) + 11) (6 * (c.toNat - 32) + 6)

/-- A mask's bit for a lane; m0 reads as all ones. -/
def Bank.mbit (B : Bank) (k : BitVec 3) (l : Nat) : Bool := decide (k = 0) || (B.r.readM k.toNat).getLsbD l

/-- The rounding that VMODE gives the `k`-th value that a word rounds (R216, R217); its random bits are free
values (R208). -/
def Bank.vmode (B : Bank) (ctr k : Nat) : Rounding :=
  let v := (B.csrGet csrVMODE).toNat
  { mode := bitsOf v 2 0, spec := bitAt v 3, random := (Config.random (ctr + k)).toNat % 256 }

/-- The registers and masks as the words in flight leave them. -/
def VecJob.writeTo (j : VecJob) (r : Regs) : Regs :=
  let r := match j.dstV with | some (n, x) => { r with v := KV.put r.v n x } | none => r
  match j.dstM with | some (k, x) => if k = 0 then r else { r with m := KV.put r.m k x } | none => r

/-- The bank as a vector word that issues now sees it (R328). -/
def Bank.vecView (B : Bank) : Bank := { B with r := B.vec.foldl (fun r j => j.writeTo r) B.r }

/-! ### What a word does -/

/-- What a vector word writes. -/
inductive VecDest where
  | nothing
  /-- the whole content of destination code `d`, and a register's tag -/
  | op (d x tag : Nat)
  | mask (k x : Nat)
deriving DecidableEq, Repr

/-- The effect of a vector word: destination, additions to routing counters, FSTAT bits. -/
structure VecOut where
  dest : VecDest
  hist : List (Nat × Nat)
  flags : Nat
deriving DecidableEq, Repr

/-- A vector word before it issues: its tags are accepted; the level it needs; its sources, each with the lane width
to which a head of cq is spread (0 where the spec gives none); its destination code, if it has one; and its effect
on the values of its sources. -/
structure VecPlan where
  tagOk : Bool
  level : Nat
  srcs : List (BitVec 6 × Nat)
  dst : Option (BitVec 6)
  make : List Nat → VecOut

/-- The head entry of a load queue, where its data is there. -/
def Bank.lqHead (B : Bank) (k : Nat) : Option VecBits :=
  match KV.get [] B.q.lq k with
  | [] => none
  | x :: _ => x.data

/-- Why a source is not there: what has been pushed or filled in the present ac is there from the next (R125). -/
def Bank.srcStall (B : Bank) (c : BitVec 6) : Option Stall :=
  if c.toNat < 32 then none
  else if c.toNat = 36 then (if B.poppable qcCq B.q.cq.length = 0 then some .queue else none)
  else match KV.get [] B.q.lq (c.toNat - 32) with
    | [] => some .queue
    | x :: _ => if x.data.isNone || B.now.filled.contains x.access then some (.arrival x.access) else none

/-- The 4,096 bits that a source reads. -/
def Bank.srcValue (B : Bank) (ctr : Nat) (src : BitVec 6 × Nat) : Nat :=
  let (c, e) := src
  if c.toNat < 32 then (B.r.readV c.toNat).bits.toNat
  else if c.toNat = 36 then
    (if e = 0 then (Config.cqSpread ctr).toNat else spread e (B.q.cq.headD 0))
  else ((B.lqHead (c.toNat - 32)).getD 0).toNat

/-- Entries of a destination queue, with those that words in flight are to push and the places freed in this ac. -/
def Bank.pushed (B : Bank) (d : Nat) : Nat :=
  (B.vec.filter (fun j => match j.push with | some (c, _) => decide (c = d) | none => false)).length +
    B.filledOf d (if d = 39 then B.q.vq.length else if d = 40 then B.q.oq.length else (KV.get [] B.q.sq (d - 37)).length)

/-- Depth of a destination queue (R125). -/
def depthOf (d : Nat) : Nat := if d = 39 then depthVq else if d = 40 then depthOq else depthSq

/-- The destination has room. -/
def Bank.hasRoom (B : Bank) (d : Option (BitVec 6)) : Bool :=
  match d with
  | none => true
  | some c => decide (c.toNat < 32) || decide (B.pushed c.toNat < depthOf c.toNat)

/-- Pops the head of a load queue. -/
def Queues.popLq (q : Queues) (k : Nat) : Queues := { q with lq := KV.put q.lq k (KV.get [] q.lq k).tail }

/-- The load queues that a list of sources names, each once. -/
def lqsOf (srcs : List (BitVec 6 × Nat)) : List Nat :=
  [0, 1, 2, 3].filter (fun k => srcs.any (fun c => decide (c.1.toNat = 32 + k)))

/-- Pops the heads that a word names (R126): one entry a queue. -/
def Queues.popAll (q : Queues) (srcs : List (BitVec 6 × Nat)) : Queues :=
  let q := (lqsOf srcs).foldl Queues.popLq q
  if srcs.any (fun c => decide (c.1.toNat = 36)) then { q with cq := q.cq.tail } else q

/-- Records the pops of the sources that a word names (R125). -/
def Bank.noteSrcs (B : Bank) (srcs : List (BitVec 6 × Nat)) : Bank :=
  let B := (lqsOf srcs).foldl (fun B k => B.notePop (32 + k) 1) B
  if srcs.any (fun c => decide (c.1.toNat = 36)) then B.notePop qcCq 1 else B

/-- The lanes of a word are checked by residues (R113): those of integers and fixed-point numbers, and every multiply of
significands; `t` is the tag of its first source. -/
def vecChecked (i : Instr) (t : Nat) : Bool :=
  match i with
  | .vmul .. | .vfma .. => tagInt t || tagInt4 t || tagFloat t
  | .vadd .. | .vsub .. | .vmin .. | .vmax .. | .vun .. | .vcmp .. | .vlog .. | .vshf .. => tagInt t || tagInt4 t
  | .vclamp .. | .vcvt .. | .vred .. | .vscan .. | .vhist .. => tagInt t || tagInt4 t
  | .vacc .. | .viota .. => true
  | _ => false

/-- Where a strand stands, for a word that issues. -/
def Walker.mark (w : Walker) : Mark := { pc := w.pc, path := w.path, pops := w.pops }

/-- The word in flight. -/
def Bank.vecJob (B : Bank) (id : Nat) (i : Instr) (srcs : List (BitVec 6 × Nat)) (o : VecOut) : VecJob :=
  { id := id, walk := B.wv.walk, mark := B.wv.mark, instr := i,
    lq := (lqsOf srcs).filterMap (fun k => (KV.get [] B.q.lq k).head?.map (fun x => (k, x))),
    cq := if srcs.any (fun c => decide (c.1.toNat = 36)) then B.q.cq.head? else none,
    dstV := match o.dest with
      | .op d x t => if d < 32 then some (d, { bits := BitVec.ofNat 4096 x, tag := BitVec.ofNat 6 t }) else none
      | _ => none,
    dstM := match o.dest with | .mask k x => some (k, BitVec.ofNat 512 x) | _ => none,
    push := match o.dest with
      | .op d x _ => if d < 32 then none else some (d, BitVec.ofNat 4096 x)
      | _ => none,
    hist := o.hist, flags := BitVec.ofNat 7 o.flags,
    checked := vecChecked i (match srcs with | c :: _ => B.opTag c.1 | [] => 0) }

/-- Free values that one vector word may take. -/
def vecTicks : Nat := 2048

/-- A vector word issues (R328): it pops its sources, and its effect follows when it completes. -/
def State.issueVec (s : State) (b : Nat) (i : Instr) (p : VecPlan) : State :=
  let V := (s.bank b).vecView
  let o := p.make (p.srcs.map (V.srcValue s.freeCtr))
  let j := V.vecJob s.nextId i p.srcs o
  ({ s with nextId := s.nextId + 1, freeCtr := s.freeCtr + vecTicks } : State).updBank b (fun B =>
    { B with q := B.q.popAll p.srcs, vec := B.vec ++ [j] }.noteSrcs p.srcs)

/-- The accumulator that a MAT word writes (R345). -/
def accWritten : Instr → Option Nat
  | .mma k .. => some k.toNat
  | .mzero k => some k.toNat
  | .manch k _ => some k.toNat
  | _ => none

/-- A matrix command that writes an accumulator waits for an earlier `vacc` of it to read (R345). -/
def Bank.accHeld (B : Bank) (c : MatWin) : Bool :=
  match accWritten c.instr with
  | none => false
  | some k => B.out.vaccs.any (fun x => decide (x.2 = k ∧ x.1 < c.walk) && decide (B.wv.walk ≤ x.1) &&
      ! B.stoppedAtEnd .v)

/-- A vector word whose words of the matrix strand have to come first (R345) is not held back. -/
def accReady (B : Bank) (i : Instr) : Bool :=
  match i with
  | .vacc _ _ k _ _ _ =>
    B.out.maccs.all (fun x => decide (x.2 ≠ k.toNat) || decide (B.wv.walk ≤ x.1) ||
      ((decide (x.1 < B.wm.walk) || B.stoppedAtEnd .m) && B.mat.window.all (fun c => decide (c.walk ≠ x.1))))
  | _ => true

/-- A task's level (R112). -/
def Bank.level (B : Bank) : Nat := bitsOf (B.csrGet csrPWRST).toNat 2 0

/-- What a VEC word comes to in the vector strand (R327). DESIGN CHOICE (log entry 120): TVAL of POWER_OVER is the level
needed, as the table of R166 has it, where R327 says of all three checks that it holds the word. -/
def vecRes (i : Instr) (plan : Bank → Nat → VecPlan) (b : Nat) (s : State) : Res :=
  if ! i.legal then .trap cIllegal (wordVal i)
  else
    let B := s.bank b
    let p := plan B.vecView s.freeCtr
    if ! p.tagOk then .trap cFormatTag (wordVal i)
    else if B.level < p.level then .trap cPowerOver (BitVec.ofNat 64 p.level)
    else match p.srcs.findSome? (fun c => B.srcStall c.1) with
      | some k => .stall k
      | none =>
        if ! accReady B i then .stall .order
        else if ! B.hasRoom p.dst then .stall .queue
        else .done (s.issueVec b i p)

/-- The control strand passes a VEC word; the last such word and the last `vhist` are noted (R221, R269). -/
def noteVec (b : Nat) (i : Instr) (s : State) : State :=
  s.updBank b (fun B =>
    let w := B.wc.walk + 1
    let hist := isVhist i
    (if B.trap.handler then B
     else B.onOut (fun o => { o with lastVec := w, lastHist := if hist then w else o.lastHist })).glide .c)

/-- The matrix strand passes a VEC word; a `vacc` is noted (R345). -/
def noteVacc (b : Nat) (i : Instr) (s : State) : State :=
  match i with
  | .vacc _ _ k _ _ _ =>
    s.updBank b (fun B => (B.onOut (fun o => { o with
      vaccs := o.vaccs.filter (fun x => decide (B.wv.walk ≤ x.1)) ++ [(B.wm.walk, k.toNat)] })).glide .m)
  | _ => skip b .m s

/-- A VEC word: the vector strand executes it, every other strand skips it (R118); on a system core it raises
ILLEGAL (R290). -/
def vecStep (i : Instr) (plan : Bank → Nat → VecPlan) (s : State) : State :=
  let b := s.cur.bank
  if isSys b then finish b s.cur.strand s (.trap cIllegal (wordVal i))
  else match s.cur.strand with
    | .v => finish b .v s (vecRes i plan b s)
    | .c => noteVec b i s
    | .m => noteVacc b i s
    | .x => skip b .x s

/-- The outcome of a VEC word. -/
def vecWord (i : Instr) (plan : Bank → Nat → VecPlan) (s : State) : Outcome State Fault Refusal :=
  .next (vecStep i plan s)

/-! ### Destinations (R326) -/

/-- Results of active lanes, with the flags that they raise; `f` gives a lane's code and flags. -/
def runLanes (act : Nat → Bool) (f : Nat → Nat × Nat) : List Nat → List (Option Nat) × Nat
  | [] => ([], 0)
  | l :: rest =>
    let (rs, fl) := runLanes act f rest
    if act l then
      let (x, g) := f l
      (some x :: rs, g ||| fl)
    else (none :: rs, fl)

/-- The effect of lane results on a destination: inactive lanes of a register keep their bits, those of a queue
entry are zero, and everything above the lanes is zero. -/
def Bank.lanesOut (B : Bank) (d : BitVec 6) (e tag : Nat) (res : List (Option Nat) × Nat) : VecOut :=
  let old := if d.toNat < 32 then (B.r.readV d.toNat).bits.toNat else 0
  { dest := .op d.toNat (packOver e old 0 res.1) tag, hist := [], flags := res.2 }

/-- A lane is active. -/
def Bank.active (B : Bank) (m : BitVec 3) (l : Nat) : Bool := B.mbit m l

/-- A word that acts on each active lane of its sources alike: `f` takes the lane's number and the lanes of the
sources. -/
def lanewise (B : Bank) (tagOk : Bool) (level e tag : Nat) (d : BitVec 6) (m : BitVec 3)
    (srcs : List (BitVec 6)) (f : Nat → List Nat → Nat × Nat) : VecPlan :=
  { tagOk := tagOk, level := level, srcs := srcs.map (fun c => (c, e)), dst := some d,
    make := fun xs => B.lanesOut d e tag
      (runLanes (B.active m) (fun l => f l (xs.map (fun x => lane e x l))) (List.range (B.laneCount e))) }

/-! ### Completion (R328) -/

/-- An entry joins a destination queue. -/
def Queues.push (q : Queues) (d : Nat) (x : VecBits) : Queues :=
  if d = 39 then { q with vq := q.vq ++ [x.setWidth 64] }
  else if d = 40 then { q with oq := q.oq ++ [x] }
  else { q with sq := KV.put q.sq (d - 37) (KV.get [] q.sq (d - 37) ++ [x]) }

/-- An addition to a routing counter, which saturates (R346); what it adds is noted for the present ac (R283). -/
def Bank.addCount (B : Bank) (x : Nat × Nat) : Bank :=
  let old := KV.get 0 B.cnt x.1
  { B with cnt := KV.put B.cnt x.1 (satCount old.toNat x.2) }.onNow (fun a =>
    { a with cntOld := KV.put a.cntOld x.1 (B.counter x.1),
             cntInc := KV.put a.cntInc x.1 (KV.get 0 a.cntInc x.1 + x.2) })

/-- A vector word's entry joins its destination queue. -/
def Bank.pushVec (B : Bank) (j : VecJob) : Bank :=
  match j.push with
  | some (d, x) => { B with q := B.q.push d x }.notePush d 1
  | none => B

/-- The oldest vector word in flight completes. -/
def Bank.completeVec (B : Bank) (j : VecJob) (rest : List VecJob) : Bank :=
  let B := { B with vec := rest, r := j.writeTo B.r }.pushVec j
  ((j.hist.foldl Bank.addCount B).raiseFlags j.walk j.flags).moved

/-- A strand goes back to a word that it issued: the path entries that it has popped since return. -/
def Walker.back (w : Walker) (walk : Nat) (m : Mark) : Walker :=
  { pc := m.pc, walk := walk, path := m.path.take (w.pops - m.pops) ++ w.path, pops := m.pops, pfx := none,
    stall := .none }

/-- Entries that words in flight have popped go back to the heads of their queues, oldest first. -/
def Queues.unpop (q : Queues) : List VecJob → Queues
  | [] => q
  | j :: rest =>
    let q := q.unpop rest
    let q := j.lq.foldl (fun q x => { q with lq := KV.put q.lq x.1 (x.2 :: KV.get [] q.lq x.1) }) q
    { q with cq := j.cq.toList ++ q.cq }

/-- A trap that a word raises when it completes (R114): it is taken at the word, whose strand goes back to it. -/
def Bank.lateTrap (B : Bank) (e : Strand) (walk : Nat) (m : Mark) : Bank :=
  let t : PendTrap := { strand := e, code := cMachine, tval := 0, walk := walk, pc := m.pc, deferred := false,
                        arose := B.trap.handler }
  { B.setWalker e ((B.walker e).back walk m) with
    trap := { B.trap with pending := B.trap.pending.filter (fun u => u.strand ≠ e) ++ [t] } }

/-- The oldest vector word in flight fails its check twice: no word from it on has had an effect. -/
def Bank.failVec (B : Bank) (j : VecJob) : Bank :=
  let q := B.q.unpop B.vec
  ({ B with vec := [], q := q }.lateTrap .v j.walk j.mark).moved

/-- A step or operation is no longer suspect (R114). -/
def State.unsuspect (s : State) (b id : Nat) : State :=
  let c := KV.get Cluster.reset s.power.clusters (clusterOf b)
  let c := { c with suspect := c.suspect.filter (fun x => x ≠ (b, id)) }
  { s with power := { s.power with clusters := KV.put s.power.clusters (clusterOf b) c } }

/-- A step or operation is marked suspect (R113). -/
def State.isSuspect (s : State) (b id : Nat) : Bool :=
  (KV.get Cluster.reset s.power.clusters (clusterOf b)).suspect.contains (b, id)

/-- VECTOR_WORD_COMPLETE (R328): the oldest vector word in flight of bank `input.who` completes; `input.check` says
how its residue check and its one re-execution go (R114). -/
def execVectorWordComplete (s : State) : Outcome State Fault Refusal :=
  let b := s.input.who
  let B := s.bank b
  .next (match B.vec with
    | [] => s
    | j :: rest =>
      let s := s.unsuspect b j.id
      if j.checked && decide (s.input.check = .fail) then s.setBank b (B.failVec j)
      else s.setBank b (B.completeVec j rest))

end Sys2Proof.Machine
end

