-- ==== Sys2Proof/Machine/Owner.lean ====
section
/-! DEFINITION. A module as the owner of pages that peers reach (R49, R154, R161, R194, R198, R307), the
receiver's side of parcels (R177, R178), the ends of requests (R45-R47, R156), and the applying of writes
(R190). -/

namespace Sys2Proof.Machine

open Sys2Proof Host

/-! ### Answers that wait for writes (R198) -/

/-- An answer is owed once some writes are applied on every die. -/
def State.owe (s : State) (first : Nat) (p : Packet) (data : List Byte) : State :=
  let a : Answer := { ids := (List.range (s.nextId - first)).map (first + ·), die := none, packet := p, data := data }
  { s with fab := { s.fab with answers := s.fab.answers ++ [a] } }

/-- An answer is owed once the writes that its read has returned are applied on the die of its observer (R188). -/
def State.oweSeen (s : State) (d pa size : Nat) (p : Packet) (data : List Byte) : State :=
  let ids := (s.writes.filter (fun w => ! w.scr && w.ord.isSome && ! w.dies.contains d &&
    decide (w.addr < pa + size ∧ pa < w.addr + w.bytes.length))).map (·.id)
  { s with fab := { s.fab with answers := s.fab.answers ++ [{ ids := ids, die := some d, packet := p, data := data }] } }

/-- The write has been applied where an answer waits for it. -/
def Answer.has (a : Answer) (w : Write) : Bool :=
  match a.die with
  | some d => w.dies.contains d
  | none => false

/-- Sends the answers whose writes have all been applied, on every die or on that of their observer. -/
def State.settleAnswers (s : State) : State :=
  let done := fun (a : Answer) => a.ids.all (fun id => s.writes.all (fun w => decide (w.id ≠ id) || a.has w))
  let go := s.fab.answers.filter done
  let s := { s with fab := { s.fab with answers := s.fab.answers.filter (fun a => ! done a) } }
  go.foldl (fun s a => s.reply 0x81 a.packet 0 a.data) s

/-- A transfer command is held back: its granule has trapped (R166). -/
def Bank.holdCommand (B : Bank) (w : Nat) : Bank :=
  let hold := fun (c : XferWin) => if c.walk = w then { c with held := true, record := true } else c
  { B with xfer := { B.xfer with window := B.xfer.window.map hold } }

/-- A fabric copy's request reads poison: its task traps with MACHINE, and the copy ends with FAULT (R52, R117; log entry
103). -/
def State.copyPoison (s : State) (p : Packet) : State :=
  let key := 4 * 4096 + (p.core - 512) % 512
  match (s.inst key).jobs.find? (fun j => decide (j.number % 128 = p.slot)) with
  | none => s
  | some j =>
    let s := s.setInst key ((s.inst key).putJob { j with denied := true, work := { j.work with copy := none } })
    match s.askerBank j.asker with
    | some b => s.updBank b (fun B => (B.raiseDeferred cMachine (BitVec.ofNat 64 j.va)).moved)
    | none => s

/-- A request that a module serves as the owner meets poison (R52, R117). The task of this module that made it traps with
MACHINE. DESIGN CHOICE (log entry 122): no response says so to another module, whose request ends by FTMO. -/
def State.peerPoison (s : State) (p : Packet) : State :=
  if p.source ≠ s.boot.moduleNo then s
  else if 512 ≤ p.core then s.copyPoison p
  else match (s.core p.core).slots.find? (fun x => x.1 = p.slot % 8) with
    | some (i, sl) =>
      if KV.get 0 (s.core p.core).gens i ≠ p.slot / 8 % 16 then s
      else ((s.updCore p.core (·.returnSlot i)).failRequest sl.bank sl.access sl.req cMachine).pumpCore p.core
    | none => s

/-- A write that is lost leaves the answers that wait for it unsent. -/
def State.answersLost (s : State) (id : Nat) : State :=
  let lost := fun (a : Answer) => a.die.isNone && a.ids.contains id
  let s' := { s with fab := { s.fab with answers := s.fab.answers.filter (fun a => ! lost a) } }
  (s.fab.answers.filter lost).foldl (fun s a => s.peerPoison a.packet) s'

/-- A write reaches a granule that has been declared free: it is lost, and the task that made it traps with MACHINE
(R117). Of a module release the stamp stays, since every die counts it (R190). -/
def State.writeLost (s : State) (w : Write) : State :=
  let s := if w.isModuleRelease then s.putWrite { w with bytes := [] }
    else { s with writes := s.writes.filter (fun u => u.id ≠ w.id) }
  let va := BitVec.ofNat 64 (match w.mark with | some m => m.2 | none => w.addr)
  match w.writer with
  | .ctl b => s.updBank b (fun B => (B.raiseDeferred cMachine va).moved)
  | .granule b k => s.updBank b (fun B => ((B.holdCommand k).raiseDeferred cMachine va).moved)
  | .other =>
    match ((s.svc.inst.flatMap (fun x => x.2.jobs)).find? (fun j => j.ids.contains w.id)).bind
        (fun j => s.askerBank j.asker) with
    | some b => s.updBank b (fun B => (B.raiseDeferred cMachine va).moved)
    | none => s.answersLost w.id

/-- A store with an acquire half at domain scope drops the REMOTE_CACHED lines of its die once it is performed
(R198). -/
def State.storeAcquired (s : State) (w : Write) : State :=
  match w.writer, w.acq with
  | .ctl b, some 5 => if s.writes.all (fun u => decide (u.id ≠ w.id)) then s.domainAcquire b else s
  | _, _ => s

/-- WRITE_APPLY (R190): the write named `input.sub` on die `input.who`. -/
def execWriteApply (s : State) : Outcome State Fault Refusal :=
  .next (match s.writes.find? (fun w => w.id = s.input.sub) with
    | some w =>
      if ! s.mayApply w s.input.who then s
      else if ! w.scr && ! w.bytes.isEmpty && s.freeGranule w.addr then (s.writeLost w).settleAnswers
      else ((s.doApply w s.input.who).storeAcquired w).settleAnswers
    | none => s)

/-! ### scop at its wheel position (R196) -/

/-- Applies everywhere the writes that a `scop` finds in flight and that stand before it. -/
def State.flushFor (s : State) (d pa size : Nat) : State :=
  (s.scopFinds d pa size).foldl (fun s w => (s.applyRest w).storeAcquired w) s

/-- What a `scop` that writes leaves where it has read a number (R309). -/
def ScopRec.newValue (r : ScopRec) (old : Nat) : Nat :=
  if r.op = 1 then r.x.toNat else amoOp (r.op - 2) (8 * r.size) old (r.x.toNat % 2 ^ (8 * r.size))

/-- Performs a bank's `scop`: it is serialised, applied on every die at once and stamped (R196); the writes that it
covers, and the earlier ones to its bytes, are applied everywhere before it (R190). -/
def State.performScop (s : State) (b : Nat) (r : ScopRec) : State :=
  let hub := isSys b && inHub r.pa
  let s := s.flushFor (dieOf b) r.pa r.size
  let (s, old) := if hub then s.hubGet (r.pa - hubBase) r.size else (s, ofLeBytes (s.mem.readN r.pa r.size))
  let new := r.newValue old
  let t : WriteTag := { WriteTag.other (dieOf b) with writer := .ctl b, walk := r.walk, rel := some 4 }
  let s := if r.op = 0 then s.writeAll t r.pa []
    else if hub then (s.hubPut (r.pa - hubBase) r.size new).writeAll t r.pa []
    else (s.markDirty (s.bank b).place.vi r.va r.size).writeAll t r.pa (leBytes r.size new)
  s.updBank b (·.endScop r old)

/-- SCOP_PERFORM (R196): bank `input.who`'s `scop` at its wheel position, the first that the bank holds after the
`scop` is ready, and in no slot of a memory port (log entry 124); poison, with `input.check` that of a device, raises a deferred MACHINE (R117, R52). -/
def execScopPerform (s : State) : Outcome State Fault Refusal :=
  let b := s.input.who
  let now := wheelTick s.time
  .next (match (s.bank b).out.scop with
    | none => s
    | some r =>
      match r.ready with
      | none => s
      | some t =>
        if now ≤ t ∨ wheelHolds b (s.bank b).place.wheel (now % 4096) = false then s
        else if s.poisonAt r.pa || (decide (r.op ≠ 1) && decide (s.input.check = .fail)) then
          s.updBank b (fun B => (B.endScop r 0).raiseDeferred cMachine (BitVec.ofNat 64 r.va))
        else (s.performScop b r).settleAnswers)

/-! ### Tickets at the owner (R154) -/

/-- An owner-side ticket number that is not in use. -/
def State.freshTicket (s : State) : Nat :=
  let n := s.fab.nextTicket
  (((List.range 65536).map (fun k => (n + k) % 65536)).find? (fun k =>
    s.fab.owner.all (fun t => decide (t.number ≠ k)))).getD 0

/-- A request cannot be served now: it is given a ticket, or told to retry, and the fault is collected. -/
def State.ticketRequest (s : State) (die : Nat) (p : Packet) (tenant va size kinds tkind : Nat) : State :=
  let d := if die = 4 then s.present.headD 0 else die
  if 4096 ≤ (s.fab.owner.filter (fun t => t.die = d)).length then s.reply 0x81 p 2 []
  else
    let n := s.freshTicket
    let t : OwnerTicket :=
      { number := n, die := d, source := p.source, sinc := p.sinc, core := p.core, tenant := p.tenant,
        window := bitsOf p.token 63 52, owner := tenant, va := va, size := size, tkind := tkind }
    let s := { s with fab := { s.fab with owner := s.fab.owner ++ [t], nextTicket := (n + 1) % 65536 } }
    (s.reply 0x81 p (n * 65536 + tkind * 256 + 1) []).collect d tenant va (kinds ||| 128) (some (.ticket n))

/-- The body of a notice (R157). -/
def noticeBody (id kind home hinc offset token : Nat) : List Byte :=
  leBytes 2 id ++ leBytes 1 kind ++ [0] ++ leBytes 2 home ++ leBytes 2 hinc ++ leBytes 8 offset ++
    leBytes 8 token ++ leBytes 8 0

/-- Where a peer's request is served. -/
inductive Served where
  /-- at a physical address, by an observer on a die -/
  | at_ (s : State) (pa die tenant va : Nat)
  /-- not at all: the request has been answered or dropped -/
  | ended (s : State)
deriving DecidableEq, Repr

/-- Whether the kind of access may go on at an owner's page, or which answer it gets. -/
def State.serve (s : State) (right size : Nat) (kind : AccKind) : Served :=
  let p := s.input.packet
  if ! s.requestOk p then .ended s
  else if s.grantCheck p.token p.source p.tenant right p.addr size ≠ 0 then .ended (s.reply 0x81 p 3 [])
  else
    let w := s.hubReg (offGWIN (bitsOf p.token 63 52))
    let tenant := gwinTenant w
    let va := gwinBase w + p.addr
    let port := if p.source = s.boot.moduleNo then 4 else s.input.who
    let (t, x) := s.translate none false tenant va kind
    match x with
    | .fault k =>
      .ended (t.ticketRequest port p tenant va size k.bit (if k = .frozen then 1 else 0))
    | .transit => .ended (t.reply 0x81 p 3 [])
    | .remote peer _ off _ =>
      let tok := Config.homeToken peer p.source p.tenant
      let t := t.reply 0x81 p 4 (noticeBody 0 1 peer (t.peerInc peer) (off / 4096 * 4096) tok)
      .ended (t.collect port tenant va 64 none)
    | .phys pa mode =>
      if mode = 4 then .ended (t.reply 0x81 p 3 [])
      else
        let die := if p.source = t.boot.moduleNo then t.homeDie pa else t.input.who
        .at_ t pa die tenant va

/-- A peer's request that may go on waits to be performed: it is queued at the memory port of its bytes (R105). What
it has been checked against is settled (R50). -/
def State.takeIn (s : State) (p : Packet) (pa die tenant va : Nat) : State × OwnerReq :=
  let q : OwnerReq := { id := s.nextId, packet := p, pa := pa, die := die, tenant := tenant, va := va }
  (({ s with nextId := s.nextId + 1, fab := { s.fab with inbox := s.fab.inbox ++ [q] } } : State).enqueue tenant q.id pa, q)

/-- A peer's request is under way no longer. -/
def State.takeOut (s : State) (q : OwnerReq) : State := { s with fab := { s.fab with inbox := s.fab.inbox.erase q } }

/-- Performs a peer's request with `f`, or lets it wait: its event follows again. It may meet poison, with `input.check`
that of a device. -/
def State.goOn (s : State) (ev : Instr) (f : OwnerReq → State → Option State) (q : OwnerReq) : State :=
  match (if s.queued q.id then none
      else if s.poisonAt q.pa || decide (s.input.check = .fail) then some (s.peerPoison q.packet)
      else f q s) with
  | some t => t.takeOut q
  | none => s.schedule ev { Input.none with ok := true, sub := q.id }

/-- A peer's request: a new one is checked; one that waits, with `input.ok` and its name in `input.sub`, goes on. -/
def State.peerRequest (s : State) (ev : Instr) (right size : Nat) (kind : AccKind) (f : OwnerReq → State → Option State) :
    State :=
  if s.input.ok then
    match s.fab.inbox.find? (fun q => q.id = s.input.sub) with
    | some q => s.goOn ev f q
    | none => s
  else match s.serve right size kind with
    | .ended t => t
    | .at_ t pa die tenant va =>
      let (t, q) := t.takeIn s.input.packet pa die tenant va
      t.goOn ev f q

/-- READ (R49): the data is answered as soon as the memory port has served it. -/
def execRead (s : State) : Outcome State Fault Refusal :=
  .next (s.peerRequest .read 0 (leAt s.input.packet.body 0 2) .read (fun q s =>
    some (s.reply 0x81 q.packet 0 (s.see none q.die q.pa (leAt q.packet.body 0 2)))))

/-- The tag of a write for a peer. -/
def peerTag (die tenant va : Nat) : WriteTag := { WriteTag.other die with mark := some (tenant, va) }

/-- WRITE (R49, R198): answered only after it is applied on every die of the owner. -/
def execWrite (s : State) : Outcome State Fault Refusal :=
  let p := s.input.packet
  let size := leAt p.body 0 2
  .next (match s.serve 1 size .write with
    | .ended t => t
    | .at_ t pa die tenant va =>
      let t := t.markDirty tenant va size
      let first := t.nextId
      let t := t.issueQueued tenant (peerTag die tenant va) (linePieces size pa ((p.body.drop 32).take size))
      (t.owe first p []).settleAnswers)

/-- The size of an atomic, from the fn byte of its request. -/
def rmwSize (p : Packet) : Nat := if leAt p.body 2 1 % 4 = 2 then 4 else 8

/-- A read-modify-write for a peer (R194): performed where its bytes are serialised, answered once it is
applied on every die; a failed `cas`, once what it has read is applied on its observer's (R188). Where that die cannot
apply it yet the request waits. -/
def State.peerRmw (s : State) (ev : Instr) (f : Packet → Nat → Nat → Option Nat) : State :=
  s.peerRequest ev 2 (rmwSize s.input.packet) .atomic (fun q s =>
    let size := rmwSize q.packet
    match s.rmwAt (peerTag q.die q.tenant q.va) q.pa size (f q.packet (8 * size)) with
    | none => none
    | some (t, old) =>
      let t := t.markDirty q.tenant q.va size
      let bs := leBytes size old
      some ((if (f q.packet (8 * size) old).isSome then t.owe s.nextId q.packet bs
        else t.oweSeen q.die q.pa size q.packet bs).settleAnswers))

/-- AMO_REQUEST (R194). -/
def execAmoRequest (s : State) : Outcome State Fault Refusal :=
  .next (s.peerRmw .amoRequest (fun p n old =>
    some (amoOp (leAt p.body 2 1 / 4) n old (leAt p.body 8 8 % 2 ^ n))))

/-- CAS_REQUEST (R307). -/
def execCasRequest (s : State) : Outcome State Fault Refusal :=
  .next (s.peerRmw .casRequest (fun p n old =>
    if old = leAt p.body 8 8 % 2 ^ n then some (leAt p.body 16 8 % 2 ^ n) else none))

/-! ### Parcels (R177, R178) -/

/-- The requester number of a packet's source within its module: the bank, for this module's own. DESIGN CHOICE (log entry
117): a request packet names the core and no bank (R40), so that of another module's is that of the core's first bank. -/
def State.packetNumber (s : State) (p : Packet) : Nat :=
  if p.source = s.boot.moduleNo then
    match (s.core p.core).slots.find? (fun x => x.1 = p.slot % 8) with
    | some (_, sl) => sl.bank
    | none => 2 * p.core
  else 2 * p.core

/-- PTRY (R177): the try goes before the parcel receive unit of the die named; one whose token fails check
1 or 2 of R49 is refused and counted nowhere. -/
def execPtry (s : State) : Outcome State Fault Refusal :=
  let p := s.input.packet
  let n := leAt p.body 0 2 - 1
  let key := instPRU (n % 4)
  let length := leAt p.body 16 8
  let a := Asker.peer p.source (s.packetNumber p) p.slot
  .next (
    if ! s.requestOk p then s
    else
      let c := s.grantCheck p.token p.source p.tenant 3 0 length
      if c = 1 ∨ c = 2 ∨ s.instPresent key = false then s.reply 0x81 p 0 (tryAnswer false false 0)
      else
        let w := s.hubReg (offGWIN (bitsOf p.token 63 52))
        let t : Try :=
          { asker := a, tenant := gwinTenant w, k := 1,
            pos := n / 4 % 4, first := key, list := 0,
            desc := leBytes 8 (leAt p.body 8 8) ++ leBytes 8 p.token, va := length,
            id := if c = 0 then 0 else 1, walk := 0, cycle := 0, ptry := p, gwin := w }
        s.addTry key t)

/-- The data of a packet of a delivery lands once the memory ports have served its write (R105); until then its event
looks again. Where its granule has been declared free in the meantime the delivery bounces (log entry 123). -/
def State.landData (s : State) (entry id : Nat) : State :=
  match s.receiving (fun d => d.entry = entry) with
  | none => s
  | some d =>
    match d.queue.find? (fun x => x.1 = id) with
    | none => s
    | some (_, pa, p) =>
      let size := leAt p.body 0 2
      if s.queued id then s.schedule .pdata { Input.none with ok := true, sub := id, third := entry }
      else if s.freeGranule pa then s.bounce d
      else
        let d := { d with done := d.done + size, queue := d.queue.filter (fun x => x.1 ≠ id) }
        let s := (s.pokeBytes pa ((p.body.drop 32).take size)).putDelivery d
        if d.length ≤ d.done then s.deliveryDone d else s

/-- The write of one packet of a delivery goes to the memory ports, or is held while a fault of its page waits. -/
def State.deliverData (s : State) (d : Delivery) (p : Packet) : State :=
  let size := leAt p.body 0 2
  match s.parcels.table.find? (fun q => q.id = d.entry) with
  | none => s
  | some q =>
    let va := q.base + (p.addr - d.off)
    match s.hubXlat q.tenant va .write with
    | .error k =>
      (s.putDelivery { d with waiting := true, held := d.held ++ [p] }).collect d.die q.tenant va
        (k.bit ||| 128) (some (.delivery d.entry))
    | .ok pa =>
      let id := s.nextId
      let s := ({ s.markDirty q.tenant va size with nextId := id + 1 } : State).enqueueAll q.tenant id
        (spanLines64 [(pa, size)])
      (s.putDelivery { d with waiting := false, queue := d.queue ++ [(id, pa, p)] }).landData d.entry id

/-- PDATA (R178): a packet of an admitted delivery is written into its span; where its token no longer
passes ingress the delivery bounces (R179). With `input.ok` a delivery goes on that waits for a memory port (R105): entry
`input.third`, with `input.size` 1 at the sender, else at the receiver with the write named `input.sub`. -/
def execPdata (s : State) : Outcome State Fault Refusal :=
  let p := s.input.packet
  let size := leAt p.body 0 2
  .next (
    if s.input.ok then
      (if s.input.size = 1 then s.stream s.input.third (parcelFuel s s.input.third) else s.landData s.input.third s.input.sub)
    else if ! s.requestOk p then s
    else match s.receiving (fun d => decide (d.handle = leAt p.body 8 8 ∧ d.peer = p.source ∧ d.off ≤ p.addr ∧
        p.addr + size ≤ d.off + d.length)) with
      | none => s
      | some d =>
        if s.grantCheck p.token p.source p.tenant 3 p.addr size ≠ 0 then s.bounce d
        else if d.waiting then s.putDelivery { d with held := d.held ++ [p] }
        else s.deliverData d p)

/-! ### Responses (R46, R47, R156) -/

/-- The answer to a `post`'s try. -/
def State.respTry (s : State) (c i : Nat) (sl : Slot) (p : Packet) : State :=
  let s := s.updCore c (·.returnSlot i)
  let b := sl.bank
  let B := s.bank b
  let x := leAt p.body 0 8
  let d : Decision :=
    if bitsOf p.addr 7 0 = 0 ∧ x % 2 = 1 then
      match decodeWord (B.wordAt B.wc.pc) with
      | some (.post _ _ _ j _ _) =>
        .admitted (BitVec.ofNat 64 (x / 4096 * 2 ^ 18 + (if bitAt x 1 then 2 ^ 17 else 0) + sl.pos * 2 ^ 15 +
          listEntry (B.routeList j.toNat) sl.pos))
      | _ => .declined sl.pos
    else .declined sl.pos
  (s.decide_ b d).pumpCore c

/-- A request in a slot completes with PEER_RESET (R47, R45); a try counts as refused at its entry. -/
def State.slotReset (s : State) (c i : Nat) (sl : Slot) : State :=
  let s := s.updCore c (·.returnSlot i)
  let s := if sl.op = 5 then s.decide_ sl.bank (.declined sl.pos) else s.failRequest sl.bank sl.access sl.req cPeerReset
  s.pumpCore c

/-- The delivery of entry `entry` has sent its last byte, and FTMO has passed since without an acknowledgement: its
requests end with PEER_RESET (R47, R179). -/
def State.deliveryTimeout (s : State) (entry : Nat) : State :=
  match s.parcels.deliveries.find? (fun d => d.sender.isSome && decide (d.entry = entry)) with
  | some d =>
    if d.length ≤ d.done ∧ s.timeoutUs * 1000000 ≤ s.time - d.at_ then s.failSending d else s
  | none => s

/-- REQUEST_TIMEOUT (R47): slot `input.sub` of core `input.who` has been in use for FTMO; with `input.size` 1, the
requests of the delivery of entry `input.sub`. -/
def execRequestTimeout (s : State) : Outcome State Fault Refusal :=
  let c := s.input.who
  .next (
    if s.input.size = 1 then s.deliveryTimeout s.input.sub
    else match (s.core c).slots.find? (fun x => x.1 = s.input.sub) with
      | none => s
      | some (i, sl) =>
        if s.timeoutUs * 1000000 ≤ s.time - sl.sent then s.slotReset c i sl else s)

/-! ### Registers of the fabric (R45, R50) -/

/-- Every slot to a module completes with PEER_RESET. -/
def State.resetSlots (s : State) (n : Nat) : State :=
  s.cores.foldl (fun s c => c.2.slots.foldl (fun s x =>
    if x.2.req.peer = n then s.slotReset c.1 x.1 x.2 else s) s) s

/-- Every ticket held against a module, and every request that waits to be sent to it again, completes
with PEER_RESET. -/
def State.resetTickets (s : State) (n : Nat) : State :=
  let s := s.banks.foldl (fun s x => x.2.out.tkt.foldl (fun s t =>
    if t.2.owner = n ∨ t.2.req.peer = n then s.failRequest x.1 t.2.access t.2.req cPeerReset else s) s) s
  let gone := s.fab.retries.filter (fun r => r.req.peer = n)
  let s := { s with fab := { s.fab with retries := s.fab.retries.filter (fun r => r.req.peer ≠ n) } }
  gone.foldl (fun s r => s.failRequest r.bank r.access r.req cPeerReset) s

/-- Deliveries to and from a module bounce (R179), and the entries that wait BOUNCED for it are OPEN again (R176). -/
def State.resetDeliveries (s : State) (n : Nat) : State :=
  let waiting := s.parcels.table.filter (fun p => decide (p.state = .bounced ∧ p.peer = n))
  let s := s.parcels.deliveries.foldl (fun s d =>
    if d.peer ≠ n then s else if d.sender.isSome then s.senderBounced d.entry true else s.bounce d) s
  waiting.foldl (fun s p => s.reopen p.id) s

/-- GWIN_WRITE (R50): window `input.who` takes `input.value`; a window that is no longer valid bounces the
deliveries under it (R179). -/
def execGwinWrite (s : State) : Outcome State Fault Refusal :=
  let n := s.input.who
  let v := s.input.value.toNat / 2 ^ 64 * 2 ^ 64
  let s := s.setHub (offGWIN n) v
  .next (if gwinValid v then s
    else s.parcels.deliveries.foldl (fun s d =>
      if d.sender.isNone && decide (bitsOf d.token 63 52 = n) then s.bounce d else s) s)

/-- INGRESS_KEY_REPLACE (R50): every token minted before is invalid, and deliveries under way bounce. -/
def execIngressKeyReplace (s : State) : Outcome State Fault Refusal :=
  let s := { s with boot := { s.boot with ingressKey := Config.randomKey s.freeCtr }, freeCtr := s.freeCtr + 1 }
  .next (s.parcels.deliveries.foldl (fun s d => if d.sender.isNone then s.bounce d else s) s)

end Sys2Proof.Machine
end

