-- ==== Sys2Proof/Machine/Faults.lean ====
section
/-! DEFINITION. Fault collection and its answers (R143, R150-R153, R158), bank switches (R124) and the taking of
a trap (R127, R163). -/

namespace Sys2Proof.Machine

open Sys2Proof Host

/-! ### Migrate requests and batches (R143, R150-R152) -/

/-- MIGRATE_REQUEST (R143): a MIGRATE entry of the last level of die `input.who` has counted to its threshold;
it adds a migrate request and stops counting. -/
def execMigrateRequest (s : State) : Outcome State Fault Refusal :=
  let die := s.input.who
  let due := fun (t : TlbEntry) => decide (t.place = lastLevel die) && decide (leafMode t.leaf = 3) &&
    ! t.reported && decide (2 ^ (leafMclass t.leaf + 4) ≤ t.count)
  .next (match s.tlb.find? due with
    | none => s
    | some t =>
      let s := { s with tlb := s.tlb.map (fun u => if u = t then { u with reported := true } else u) }
      s.collect die t.tenant t.va 64 none)

/-- The entries of a batch in order: by tenant, then by address. -/
def sortEntries (es : List FaultEntry) : List FaultEntry :=
  sortBy (fun a b => decide (a.tenant < b.tenant ∨ (a.tenant = b.tenant ∧ a.granule < b.granule))) es

/-- A migrate request stands alone in its range (R151). -/
def FaultEntry.alone (e : FaultEntry) : Bool := decide (e.kinds = 64)

/-- A range of one entry. -/
def FaultEntry.range (e : FaultEntry) : FaultRange :=
  { tenant := e.tenant, va := e.granule * 4096, count := 1, kinds := e.kinds, faulters := e.faulters,
    answered := false }

/-- Merges consecutive granules of one tenant into ranges. -/
def mergeEntries : List FaultEntry → List FaultRange
  | [] => []
  | e :: rest =>
    match mergeEntries rest with
    | [] => [e.range]
    | r :: rs =>
      if r.tenant = e.tenant ∧ r.va = e.granule * 4096 + 4096 ∧ e.alone = false ∧ r.kinds ≠ 64 then
        { r with va := e.granule * 4096, count := r.count + 1, kinds := r.kinds ||| e.kinds,
                 faulters := e.faulters ++ r.faulters } :: rs
      else e.range :: r :: rs

/-- BATCH_CLOSE (R150, R152): the open batch of die `input.who` closes at 64 entries, or 4 us after its first
one; it waits while an earlier closed batch of the die waits. Faults held until then enter the new one. -/
def execBatchClose (s : State) : Outcome State Fault Refusal :=
  let die := s.input.who
  let o := s.openBatch die
  .next (
    if o.entries.isEmpty ∨ s.faults.closed.any (fun b => b.die = die) = true ∨
        (o.entries.length < batchMost ∧ s.time - o.since < 4000000) then s
    else
      let b : Batch := { die := die, serial := s.faults.nextSerial, time := s.time / 1000,
                         ranges := mergeEntries (sortEntries o.entries) }
      let next : OpenBatch := { entries := o.waiting.take batchMost, since := s.time, waiting := o.waiting.drop batchMost }
      { s with faults := { s.faults with dies := KV.put s.faults.dies die next
                                         closed := s.faults.closed ++ [b]
                                         nextSerial := s.faults.nextSerial + 1 } })

/-- Slots of the fault buffer. -/
def fcSlots (r : Nat) : Nat := 2 ^ Nat.min 12 (bitsOf r 3 0)

/-- The bytes of a range's record. -/
def FaultRange.bytes (r : FaultRange) : List Byte :=
  leBytes 8 r.va ++ leBytes 4 r.count ++ leBytes 1 r.tenant ++ leBytes 1 r.kinds ++
    leBytes 2 (Nat.min 65535 r.faulters.length) ++ List.replicate 16 0

/-- The bytes of a batch in its slot. -/
def Batch.bytes (b : Batch) : List Byte :=
  leBytes 4 0x544C4646 ++ leBytes 1 b.die ++ leBytes 1 b.ranges.length ++ leBytes 2 0 ++ leBytes 8 b.serial ++
    leBytes 8 b.time ++ List.replicate 40 0 ++ (b.ranges.map FaultRange.bytes).flatten

/-- The fault buffer has a free slot and is enabled (R152). -/
def State.fcRoom (s : State) : Bool :=
  let r := s.hubReg offFCBUF
  bitAt r 4 && decide ((s.hubReg offFCTAIL + 2 ^ 32 - s.hubReg offFCHEAD) % 2 ^ 32 < fcSlots r)

/-- BATCH_DELIVER (R151, R152): the oldest closed batch is written into the next slot, FCTAIL advances and the
system cores are interrupted. -/
def execBatchDeliver (s : State) : Outcome State Fault Refusal :=
  .next (match s.faults.closed with
    | [] => s
    | b :: rest =>
      if ! s.fcRoom then s
      else
        let r := s.hubReg offFCBUF
        let tail := s.hubReg offFCTAIL
        let s := s.pokeBytes (bitsOf r 51 12 * 4096 + tail % fcSlots r * 4096) b.bytes
        let s := s.setHub offFCTAIL ((tail + 1) % 2 ^ 32)
        ({ s with faults := { s.faults with closed := rest, delivered := s.faults.delivered ++ [b] } } : State).irq 1)

/-- Batches that wait are written now that there may be room. -/
def State.roomMade (s : State) : State :=
  if s.fcRoom && ! s.faults.closed.isEmpty then s.schedule .batchDeliver Input.none else s

/-- FCHEAD_WRITE (R152): the count of slots consumed takes `input.value`. -/
def execFcheadWrite (s : State) : Outcome State Fault Refusal :=
  .next (s.setHub offFCHEAD (s.input.value.toNat % 2 ^ 32)).roomMade

/-- FCBUF_WRITE (R152): the buffer's register takes `input.value`. -/
def execFcbufWrite (s : State) : Outcome State Fault Refusal :=
  .next (s.setHub offFCBUF (s.input.value.toNat &&& 0x000FFFFFFFFFF01F)).roomMade

/-! ### Answers (R148, R153, R158) -/

/-- The bank goes on once none of its faults is left. -/
def Bank.drainEnds (B : Bank) : Bank :=
  if B.out.faults.isEmpty then (B.onOut (fun o => { o with out := false })).moved else B

/-- A local fault lies in an answered range. -/
def LocalFault.within (f : LocalFault) (r : FaultRange) : Bool :=
  decide (r.va ≤ f.va ∧ f.va < r.va + r.count * 4096)

/-- A transfer command is in the window and not abandoned. -/
def Bank.hasCommand (B : Bank) (w : Nat) : Bool := B.xfer.window.any (fun c => decide (c.walk = w) && ! c.dropped)

/-- The faults of a bank's strand or command in a range are answered (R148). An answer of retry ends the drain: every
faulting word and granule of the bank is translated afresh. With ACCESS, the control strand's word traps and the
granule raises a deferred ACCESS, its command held back (R166). -/
def Bank.answerFault (B : Bank) (xfer : Option Nat) (r : FaultRange) (access : Bool) : Bank :=
  let hit := fun (f : LocalFault) => decide (f.xfer = xfer) && f.within r
  match B.out.faults.filter hit with
  | [] => B
  | f :: _ =>
    if ! access then (B.onOut (fun o => { o with faults := [] })).drainEnds
    else
      let B := B.onOut (fun o => { o with faults := o.faults.filter (fun f => ! hit f) })
      (match xfer with
       | none => B.onOut (fun o => { o with denied := some (f.va, f.handler) })
       | some w => if B.hasCommand w then (B.holdCommand w).raiseDeferred cAccess (BitVec.ofNat 64 f.va) else B).drainEnds

/-- The packet of a notice to a ticket's requester. -/
def State.notice (s : State) (t : OwnerTicket) (body : List Byte) : State :=
  (s.send { dest := t.source, source := s.boot.moduleNo, inter := 0x3FF, op := 0x82, tenant := t.tenant,
            sinc := s.boot.incarnation, tinc := t.sinc, core := t.core, slot := 0, rsv := 0, addr := 0, token := 0,
            body := body }).getD s

/-- The kind of a ticket on a page that migrates (R154). -/
def tktMigrating : Nat := 1

/-- The owner answers a ticket (R158, R160): FAILED; MIGRATED to a MIGRATING ticket whose page has a new home; else
READY. -/
def State.answerTicket (s : State) (n : Nat) (access : Bool) : State :=
  match s.fab.owner.find? (fun t => t.number = n) with
  | none => s
  | some t =>
    let s := { s with fab := { s.fab with owner := s.fab.owner.filter (fun u => u.number ≠ n) } }
    if access then s.notice t (noticeBody n 2 0 0 0 0)
    else if t.tkind ≠ tktMigrating then s.notice t (noticeBody n 0 0 0 0 0)
    else
      match s.walk (s.present.headD 0) t.owner t.va .read with
      | .leaf level e =>
        if leafRemote e then
          let peer := leafPeer e
          let off := leafOffset level e t.va
          s.notice t (noticeBody n 1 peer (s.peerInc peer) (off / 4096 * 4096)
            (Config.homeToken peer t.source t.tenant))
        else s.notice t (noticeBody n 0 0 0 0 0)
      | .fault _ => s.notice t (noticeBody n 0 0 0 0 0)

/-- Writes the packets that a delivery held, until one faults again. -/
def State.redeliver (s : State) (entry : Nat) : List Packet → State
  | [] => s
  | p :: rest =>
    match s.receiving (fun d => d.entry = entry) with
    | none => s
    | some d =>
      let s := if d.waiting then s.putDelivery { d with held := d.held ++ [p] } else s.deliverData d p
      s.redeliver entry rest

/-- A delivery's fault is answered: it goes on, or bounces (R179). -/
def State.answerDelivery (s : State) (entry : Nat) (access : Bool) : State :=
  match s.parcels.deliveries.find? (fun d => d.entry = entry) with
  | none => s
  | some d =>
    match d.sender with
    | some _ =>
      if access then s.failSending d
      else
        (match s.parcels.table.find? (fun p => p.id = entry) with
         | some _ => (s.putDelivery { d with waiting := false }).stream entry (d.length / 2048)
         | none => s)
    | none =>
      if access then s.bounce d
      else (s.putDelivery { d with waiting := false, held := [] }).redeliver entry d.held

/-- The fault that a job waits on lies in an answered range. -/
def Job.faultIn (j : Job) (r : FaultRange) : Bool :=
  match j.fault with
  | some va => decide (r.va ≤ va ∧ va < r.va + r.count * 4096)
  | none => false

/-- One faulter of an answered range. -/
def State.answerFaulter (s : State) (r : FaultRange) (access : Bool) : Faulter → State
  | .ctl b => s.updBank b (·.answerFault none r access)
  | .granule b w => s.updBank b (·.answerFault (some w) r access)
  | .ticket n => s.answerTicket n access
  | .loader g => if access then s.killGroup g cAccess else s
  | .job key n =>
    let x := s.inst key
    s.setInst key { x with jobs := x.jobs.map (fun j =>
      if j.number = n ∧ j.faultIn r = true then { j with fault := none, denied := access } else j) }
  | .delivery e => s.answerDelivery e access
  | .header id => s.answerHeader id access
  | .host vi => s.hostAnswered vi access

/-- Marks range `i` of a batch answered. -/
def Batch.answer (b : Batch) (i : Nat) : Batch :=
  { b with ranges := (b.ranges.zipIdx).map (fun x => if x.2 = i then { x.1 with answered := true } else x.1) }

/-- FCANS (R153): the answer applies to every faulter of its range; one that names no delivered range that
waits, or a migrate request, is ignored. -/
def State.fcAnswer (s : State) (v : Nat) (access : Bool) : State :=
  let serial := bitsOf v 63 24
  let i := bitsOf v 23 16
  match s.faults.delivered.find? (fun b => b.serial % 2 ^ 40 = serial) with
  | none => s
  | some b =>
    match b.ranges[i]? with
    | none => s
    | some r =>
      if r.answered ∨ r.kinds = 64 then s
      else
        let s := { s with faults := { s.faults with delivered := s.faults.delivered.map (fun c =>
          if c.serial = b.serial then c.answer i else c) } }
        r.faulters.foldl (fun s f => s.answerFaulter r access f) s

/-- FCANS_RETRY (R153): a write of `input.value`; results 2 and 3 are ignored. -/
def execFcansRetry (s : State) : Outcome State Fault Refusal :=
  let v := s.input.value.toNat
  .next (if v % 4 = 0 then s.fcAnswer v false else s)

/-- FCANS_ACCESS (R153). -/
def execFcansAccess (s : State) : Outcome State Fault Refusal :=
  let v := s.input.value.toNat
  .next (if v % 4 = 1 then s.fcAnswer v true else s)

/-! ### Bank switches (R124) -/

/-- BANK_SWITCH_OUT (R124, R148): bank `input.who` has had a local fault unanswered for FSWITCH ac. -/
def execBankSwitchOut (s : State) : Outcome State Fault Refusal :=
  let b := s.input.who
  let B := s.bank b
  .next (
    if B.status = .live ∧ B.out.faults.any (fun f => decide (bitsOf (B.csrGet csrFSWITCH).toNat 15 0 ≤ f.age)) = true then
      s.updBank b (·.onOut (fun o => { o with out := true }))
    else s)

/-! ### QUEUE (R127) -/

/-- The control strand waits for work outstanding elsewhere (R127, R247): a decision, a barrier, an
interrupt's ordering, `tkt.wait`. -/
def Bank.waitsOutside (B : Bank) : Bool :=
  decide (B.wc.stall = .decision) || ! B.out.intrs.isEmpty ||
    (match decodeWord (B.wordAt B.wc.pc) with | some .tktWait => ! B.out.tkt.isEmpty | _ => false)

/-- A bank has nothing outstanding that could let it move (R127). -/
def State.nothingOut (s : State) (b : Nat) : Bool :=
  let B := s.bank b
  B.mat.window.isEmpty && B.xfer.window.isEmpty && B.vec.isEmpty && B.out.acc.isEmpty && B.out.scop.isNone &&
    B.out.tkt.isEmpty && B.out.faults.isEmpty && s.writes.all (fun w => ! w.madeBy b) &&
    (s.core (coreOf b)).slots.all (fun x => decide (x.2.bank ≠ b)) && ! s.hasJob b && ! B.waitsOutside &&
    ! B.atHeader

/-- The strands that stand, as TVAL holds them: bit 3 C, 2 V, 1 M, 0 X. -/
def Bank.stalledBits (B : Bank) : Nat :=
  ([(Strand.c, 8), (.v, 4), (.m, 2), (.x, 1)].map (fun x => if B.stoppedAtEnd x.1 then 0 else x.2)).foldl (· + ·) 0

/-- QUEUE_TRAP (R127): bank `input.who` has not moved for 256 ac, with nothing outstanding. -/
def execQueueTrap (s : State) : Outcome State Fault Refusal :=
  let b := s.input.who
  let B := s.bank b
  .next (
    if B.status = .live ∧ isSys b = false ∧ 256 ≤ B.n.idle ∧ s.nothingOut b = true ∧ B.activeTraps.isEmpty = true then
      s.updBank b (fun B => { B.raisePrecise .c cQueue (BitVec.ofNat 64 B.stalledBits) with
        n := { B.n with idle := 0 } })
    else s)

/-! ### Taking a trap (R163) -/

/-- A strand below the trap stands at a word that only a stopped strand could release (R163 step 2): a queue head, a
path FIFO, the slip window, a header that nothing satisfies. -/
def State.standsBelow (s : State) (b : Nat) (e : Strand) : Bool :=
  let B := s.bank b
  match (B.walker e).stall with
  | .queue => true
  | .path => true
  | .slip => true
  | .header => ! s.hasJob b && ! s.hasDelivery b && B.out.splits.isEmpty && B.mat.window.isEmpty &&
      B.xfer.window.all (fun c => c.held)
  | _ => ! B.slipOk e

/-- The gate is held shut, at a walk index, by a strand that stands so (R133). -/
def State.gateStands (s : State) (b walk : Nat) : Bool :=
  let B := s.bank b
  [Strand.c, .m, .x].any (fun e => decide ((B.walker e).walk < walk) && ! B.stoppedAtEnd e && s.standsBelow b e)

/-- What a control-strand access writes: a scalar, or a predicate as 64 and its number. -/
def Access.fills (a : Access) : List Nat :=
  match a.op with
  | .cas k => [a.dst, 64 + k]
  | _ => [a.dst]

/-- A strand stands at a word that waits for what the gate keeps back, which a strand stopped below the trap holds
shut: the data of an access, room behind a command, or an order after them (R163 step 2). -/
def State.gateStops (s : State) (b : Nat) (e : Strand) : Bool :=
  let B := s.bank b
  let kept := fun (a : Access) => a.own && s.gateStands b a.walk
  match (B.walker e).stall with
  | .pending rs => B.out.acc.any (fun a => kept a && a.fills.any (fun n => rs.contains n && B.pendingReg n))
  | .arrival id => B.out.acc.any (fun a => kept a && decide (a.id = id))
  | .window =>
    if e = .m then (match B.mat.window with | [] => false | c :: _ => ! c.ranges.isEmpty && s.gateStands b c.walk)
    else (match B.xferHead with | none => false | some c => ! c.ranges.isEmpty && s.gateStands b c.walk)
  | .order => B.out.acc.any kept || s.writes.any (fun w => w.madeBy b && w.own && s.gateStands b w.walk)
  | _ => false

/-- A strand below the trap stops where it stands (R163 step 2). -/
def State.stopsBelow (s : State) (b : Nat) (e : Strand) : Bool := s.standsBelow b e || s.gateStops b e

/-- A footprint waits only for the gate, which a stopped strand holds shut (R133). -/
def Bank.gated (B : Bank) (walk : Nat) : Bool := ! B.gateOpen walk

/-- A transfer command whose granules start next cannot start them: it is held, or the gate or the control strand
keeps it, or a matrix command that waits for a `vacc` (R133, R345). -/
def State.xferStuck (s : State) (b : Nat) (c : XferWin) : Bool :=
  let B := s.bank b
  c.held || (! c.ranges.isEmpty && B.gated c.walk) || ! B.xferAhead c ||
    (! s.released b c.walk c.id c.ranges && (match B.mat.window with | [] => false | m :: _ => B.accHeld m))

/-- The transfer engine of a bank has nothing that goes on by itself. -/
def State.xferQuiet (s : State) (b : Nat) : Bool :=
  let B := s.bank b
  B.xfer.window.all (fun c => c.flight.isEmpty && (c.held || ! c.finished)) &&
    (match B.xferHead with | none => true | some c => s.xferStuck b c)

/-- The head of the matrix window cannot begin: the gate keeps it, an earlier `vacc`, or a transfer command that is
held. -/
def State.matStuck (s : State) (b : Nat) (c : MatWin) : Bool :=
  let B := s.bank b
  ! c.begun && ((! c.ranges.isEmpty && B.gated c.walk) || B.accHeld c ||
    (B.xfer.window.any (·.held) && ! s.released b c.walk c.id c.ranges))

/-- Every command and access that a bank has issued is complete; open tickets and admitted jobs are left to
their own time, as is what only a stopped strand, or a transfer command that has trapped, holds back (R163 step 3). -/
def State.trapQuiet (s : State) (b : Nat) : Bool :=
  let B := s.bank b
  let held := B.xfer.window.any (·.held)
  B.vec.isEmpty && (match B.mat.window with | [] => true | c :: _ => s.matStuck b c) && s.xferQuiet b &&
    B.out.acc.all (fun a => (a.own && B.gated a.walk) || (held && ! s.queued a.id && ! s.accReady b a) || (a.remote && a.unsent.isEmpty &&
      a.reqs.all (fun r => B.out.tkt.any (fun t => decide (t.2.access = a.id ∧ t.2.req = r))))) &&
    (B.out.scop.isNone || held) && B.out.faults.isEmpty &&
    (match B.out.dec with | .asked _ => B.out.splits.any (fun x => decide (x.2 = 16)) | .reading => false | _ => true) &&
    s.writes.all (fun w => ! w.madeBy b || w.ord.isSome || (w.own && B.gated w.walk) || (held && ! s.writeReady w))

/-- A pending trap of a bank may be taken (R163). -/
def State.trapReady (s : State) (b : Nat) (t : PendTrap) : Bool :=
  let B := s.bank b
  let i := B.trapWalk t
  let e := if t.deferred then Strand.c else t.strand
  B.trap.handler ||
    ((isSys b || [Strand.c, .v, .m, .x].all (fun f => decide (f = e) || decide (i ≤ (B.walker f).walk) ||
      B.stoppedAtEnd f || s.stopsBelow b f)) && s.trapQuiet b)

/-- HANDLER_ENTRY (R163): bank `input.who` takes its next trap. With TVEC.en 0, or in handler mode, the
Chanter kills the group with the trap's code; a system core, which has no group, stays where it stands (log entry 7). A
task that has stopped, and whose record is not written, takes a trap that has come since and goes on to its next yield
point (log entry 111). -/
def execHandlerEntry (s : State) : Outcome State Fault Refusal :=
  let b := s.input.who
  let B := s.bank b
  .next (match B.nextTrap with
    | none => s
    | some t =>
      if B.status ≠ .live ∧ B.status ≠ .stopped ∧ isSys b = false then s
      else if ! s.trapReady b t then s
      else if B.trap.handler || ! bitAt (B.csrGet csrTVEC).toNat 15 then
        (if isSys b then s else s.killGroup B.place.group t.code)
      else s.updBank b (fun B =>
        let B := B.enterHandler t
        if B.status = .stopped then { B with status := .live } else B))

end Sys2Proof.Machine
end

