-- ==== Sys2Proof/Machine/Special.lean ====
section
/-! DEFINITION. The functions of the special-function engine (R274, R387) and the combine step of the collective
engine (R100).

Every value of these functions at a number of a format, but for the special operands named, is irrational. It is
worked out to far more places than any target has and stood for by a value between two whole numbers of its last
place, so that it rounds as the exact one does. -/

namespace Sys2Proof.Machine

open Sys2Proof

/-- Places of the fixed point: values in units of 2^−400. -/
def sfePlaces : Nat := 400

/-- 1. -/
def sfeOne : Nat := 2 ^ sfePlaces

/-- The series of e^x by Horner's rule, from the `k`-th term inward; `x` is at most 1/4. -/
def expSeries (x : Nat) : Nat → Nat → Nat
  | 0, acc => acc
  | k + 1, acc => expSeries x k (sfeOne + x * acc / ((k + 1) * sfeOne))

/-- The square, `n` times over. -/
def squares : Nat → Nat → Nat
  | 0, v => v
  | n + 1, v => squares n (v * v / sfeOne)

/-- e^x for x = m 2^e below 256: the argument over 1,024, and ten squares. -/
def expOf (m : Nat) (e : Int) : Nat :=
  let x := if 0 ≤ e + 390 then m * 2 ^ (e + 390).toNat else m / 2 ^ (- e - 390).toNat
  squares 10 (expSeries x 80 sfeOne)

/-- A magnitude is at least 2^k. -/
def atLeast (m : Nat) (e k : Int) : Bool := decide (k ≤ (m.log2 : Int) + e)

/-- exp (R387). -/
def Num.exp (x : Num) : Num :=
  match x with
  | .nan => .nan
  | .inf n => if n then .fin false 0 0 else .inf false
  | .fin n m e =>
    if m = 0 then .fin false 1 0
    else if atLeast m e 8 then .fin false 1 (if n then -1024 else 1024)
    else if n then between false (sfeOne * sfeOne / expOf m e) (- sfePlaces) false
    else between false (expOf m e) (- sfePlaces) false

/-- The series 1 + w/3 + w²/5 + … by Horner's rule, from the `k`-th term inward. -/
def atanhSeries (w : Nat) : Nat → Nat → Nat
  | 0, acc => acc
  | k + 1, acc => atanhSeries w k (sfeOne / (2 * k + 1) + w * acc / sfeOne)

/-- 2 artanh z for z up to 1/3. -/
def artanh2 (z : Nat) : Nat := 2 * (z * atanhSeries (z * z / sfeOne) 140 0 / sfeOne)

/-- The natural logarithm of 2. -/
def sfeLn2 : Nat := artanh2 (sfeOne / 3)

/-- log and the flags it raises before rounding (R387): m 2^e is f 2^k with f from 3/4 to 3/2. -/
def Num.log (x : Num) : Num × Nat :=
  match x with
  | .nan => (.nan, 0)
  | .inf n => if n then (.nan, flINVALID) else (.inf false, 0)
  | .fin n m e =>
    if m = 0 then (.inf true, flDIVZERO)
    else if n then (.nan, flINVALID)
    else
      let l := m.log2
      let big := decide (3 * 2 ^ l ≤ 2 * m)
      let d := if big then 2 * 2 ^ l else 2 ^ l
      let k : Int := e + l + (if big then 1 else 0)
      if m = d ∧ k = 0 then (.fin false 0 0, 0)
      else
        let z := ((m : Int) - d).natAbs * sfeOne / (m + d)
        let v : Int := k * sfeLn2 + (if m < d then - (artanh2 z : Int) else artanh2 z)
        (between (decide (v < 0)) v.natAbs (- sfePlaces) false, 0)

/-- tanh (R387): near 0 it lies just below its operand. -/
def Num.tanh (x : Num) : Num :=
  match x with
  | .nan => .nan
  | .inf n => .fin n 1 0
  | .fin n m e =>
    if m = 0 then x
    else if ! atLeast m e (-40) then between n (m * 2 ^ 60 - 1) (e - 60) false
    else if atLeast m e 8 then between n (sfeOne - 1) (- sfePlaces) false
    else
      let v := expOf m e
      let w := v * v / sfeOne
      between n ((w - sfeOne) * sfeOne / (w + sfeOne)) (- sfePlaces) false

/-- sigmoid (R387). -/
def Num.sigmoid (x : Num) : Num :=
  match x with
  | .nan => .nan
  | .inf n => .fin false (if n then 0 else 1) 0
  | .fin n m e =>
    if m = 0 then .fin false 1 (-1)
    else if atLeast m e 8 then
      (if n then .fin false 1 (-1024) else between false (sfeOne - 1) (- sfePlaces) false)
    else
      let v := expOf m e
      between false ((if n then sfeOne else v) * sfeOne / (v + sfeOne)) (- sfePlaces) false

/-- silu, x × sigmoid(x) (R387). -/
def Num.silu (x : Num) : Num :=
  match x with
  | .inf n => if n then .fin true 0 0 else .inf false
  | y => (y.mul y.sigmoid).1

/-- Function `op` of R274 and the flags it raises before rounding. -/
def sfeValue (op : Nat) (x : Num) : Num × Nat :=
  match op with
  | 0 => (x.exp, 0)
  | 1 => x.log
  | 2 => (x.tanh, 0)
  | 3 => (x.sigmoid, 0)
  | 4 => (x.silu, 0)
  | _ => x.rsqrt

/-- Rounding to nearest even, overflow going to infinity. -/
def Rounding.nearest : Rounding := { mode := 0, spec := true, random := 0 }

/-- The code and flags of a special function at a code of format `t`. -/
def sfeCode (op t c : Nat) : Nat × Nat :=
  let (v, f) := sfeValue op (valueOf t c)
  let (d, g) := encodeTag t .nearest v
  (d, f ||| g)

/-! ### Collectives (R100) -/

/-- A contribution widened: f16 and bf16 exactly to f32. -/
def colWiden (t c : Nat) : Nat := if t = 10 ∨ t = 11 then (encodeTag 12 .nearest (valueOf t c)).1 else c

/-- The combine step: operation 0 sum, 1 minimum, 2 maximum, in f32 or in integers of format `t`. -/
def colCombine (op t x y : Nat) : Nat × Nat :=
  if t = 5 ∨ t = 7 then
    let w := tagBits t
    let a := intOf true w x
    let b := intOf true w y
    (if op = 0 then intCode w (a + b) else if decide (a ≤ b) == decide (op = 1) then x else y, 0)
  else
    let a := valueOf 12 x
    let b := valueOf 12 y
    if op = 0 then
      let (v, inv) := a.add false b
      let (c, g) := encodeTag 12 .nearest v
      (c, g ||| if inv then flINVALID else 0)
    else (encodeTag 12 .nearest (a.pick (decide (op = 2)) b))

/-- Contributions combined in order of arrival, and the flags. -/
def colFold (op t : Nat) : Nat → Nat → List Nat → Nat × Nat
  | acc, f, [] => (acc, f)
  | acc, f, x :: rest =>
    let (c, g) := colCombine op t acc x
    colFold op t c (f ||| g) rest

/-- The result of a collective for one element: f16 and bf16 are rounded once at the end. -/
def colResult (op t : Nat) : List Nat → Nat × Nat
  | [] => (0, 0)
  | x :: rest =>
    let (c, f) := colFold op t (colWiden t x) 0 (rest.map (colWiden t))
    if t = 10 ∨ t = 11 then
      let (d, g) := encodeTag t .nearest (valueOf 12 c)
      (d, f ||| g)
    else (c, f)

end Sys2Proof.Machine
end

