-- ==== Sys2Proof/Machine/Jobs.lean ====
section
/-! DEFINITION. The work of the shared engines (R274, R275, R276, R100): special functions, gathers, collectives and
fabric copies; and the end of a job: its writes, status, counter and flag. -/

namespace Sys2Proof.Machine

open Sys2Proof Host

/-! ### Descriptors (R273) -/

def Job.op (j : Job) : Nat := leAt j.desc 0 1
def Job.flagByte (j : Job) : Nat := leAt j.desc 1 1
def Job.parm (j : Job) : Nat := leAt j.desc 2 1
def Job.cscope (j : Job) : Nat := leAt j.desc 3 1 % 8
def Job.count (j : Job) : Nat := leAt j.desc 4 4
def Job.src (j : Job) : Nat := leAt j.desc 8 8
def Job.dst (j : Job) : Nat := leAt j.desc 16 8
def Job.aux (j : Job) : Nat := leAt j.desc 24 8
def Job.counter (j : Job) : Nat := leAt j.desc 32 8
def Job.key (j : Job) : Nat := leAt j.desc 40 4
def Job.members (j : Job) : Nat := leAt j.desc 44 2
def Job.rank (j : Job) : Nat := leAt j.desc 46 2

/-- The bank whose task a job is for. -/
def Job.bank (j : Job) : Nat := match j.asker with | .bank b => b | _ => 0

/-- A job of an instance by its number. -/
def State.jobAt (s : State) (key n : Nat) : Option Job := (s.inst key).jobs.find? (fun j => j.number = n)

/-- Replaces a job. -/
def State.putJob (s : State) (key : Nat) (j : Job) : State := s.setInst key ((s.inst key).putJob j)

/-! ### Reading and writing in the tenant's space (R275) -/

/-- The bytes from an address on, cut at granules; the fuel is the number of bytes. -/
def pageSpans : Nat → Nat → Nat → List (Nat × Nat)
  | 0, _, _ => []
  | fuel + 1, va, n =>
    if n = 0 then []
    else
      let k := Nat.min n (4096 - va % 4096)
      (va, k) :: pageSpans fuel (va + k) (n - k)

/-- Where bytes of a job lie. -/
inductive JobXlat where
  /-- in this module's memory: spans of virtual address, physical address and length -/
  | ok (spans : List (Nat × Nat × Nat))
  /-- in a peer's window -/
  | remote (peer gi off : Nat)
  | fault (va : Nat) (k : FaultKind)
  /-- on a page that no job reaches -/
  | bad
deriving DecidableEq, Repr

/-- Translates bytes of a job span by span, as transfer granules are (R369). -/
def State.jobXlat (s : State) (b : Nat) (kind : AccKind) (acc : List (Nat × Nat × Nat)) :
    List (Nat × Nat) → State × JobXlat
  | [] => (s, .ok acc)
  | (va, n) :: rest =>
    let vi := (s.bank b).place.vi
    if 2 ^ 57 ≤ va then (s, .bad)
    else match s.translate (some b) true vi va kind with
      | (s, .fault k) => (s, .fault va k)
      | (s, .remote peer gi off _) => (s, .remote peer gi off)
      | (s, .transit) => (s, .bad)
      | (s, .phys pa m) =>
        if m = 4 ∧ s.parcelOpen vi va = false then (s, .bad)
        else if kind ≠ .read ∧ (s.headerHit vi va n).isSome = true then (s, .bad)
        else s.jobXlat b kind (acc ++ [(va, pa, n)]) rest

/-- Translates `n` bytes. -/
def State.jobSpan (s : State) (b : Nat) (kind : AccKind) (va n : Nat) : State × JobXlat :=
  s.jobXlat b kind [] (pageSpans n va n)

/-- The bytes of spans, as an observer on a die reads them. -/
def State.spanBytes (s : State) (die : Nat) (spans : List (Nat × Nat × Nat)) : List Byte :=
  (spans.map (fun x => s.see none die x.2.1 x.2.2)).flatten

/-- Puts writes of a job in flight, span by span; they queue at their memory ports and mark the dirty log (R61). -/
def State.spanWrites (s : State) (die vi : Nat) : List (Nat × Nat × Nat) → List Byte → State
  | [], _ => s
  | (va, pa, n) :: rest, bs =>
    let t := { WriteTag.other die with mark := some (vi, va) }
    let s := (linePieces n pa (bs.take n)).foldl (fun s x => (s.issueWrite t x.1 x.2).enqueue vi s.nextId x.1)
      (s.markDirty vi va n)
    s.spanWrites die vi rest (bs.drop n)

/-- A job writes bytes; it keeps the names of its writes. -/
def State.jobWrites (s : State) (key n : Nat) (spans : List (Nat × Nat × Nat)) (bs : List Byte) : State :=
  match s.jobAt key n with
  | none => s
  | some j =>
    let first := s.nextId
    let s := s.spanWrites (instDie key) j.tenant spans bs
    s.putJob key { j with ids := j.ids.filter (fun i => s.writes.any (fun w => w.id = i)) ++
      (List.range (s.nextId - first)).map (first + ·) }

/-- A job meets a fault: it is collected, and the job waits for its answer (R150). -/
def State.jobFault (s : State) (key : Nat) (j : Job) (va : Nat) (k : FaultKind) : State :=
  (s.collect (instDie key) j.tenant va k.bit (some (.job key j.number))).putJob key { j with fault := some va }

/-- A job ends with a status code. -/
def State.jobEnds (s : State) (key : Nat) (j : Job) (code : Nat) : State :=
  s.putJob key { j with ending := code, fault := none, denied := false }

/-- A fabric copy's request has come to nothing: the job ends with a status code, unless it is ending already. -/
def State.copyEnds (s : State) (key : Nat) (j : Job) (code : Nat) : State :=
  let j := { j with work := { j.work with copy := none } }
  if j.ending = 0 then s.jobEnds key j code else s.putJob key j

/-- A job has completed `n` more of its elements, raising flags. -/
def State.jobDone (s : State) (key n k flags : Nat) : State :=
  match s.jobAt key n with
  | none => s
  | some j => s.putJob key { j with done := Nat.min j.count (j.done + k), flags := j.flags ||| flags,
                                     work := { j.work with idx := none } }

/-- What a translation comes to for a job of kinds 1 to 3: `f` goes on with spans, else the job waits or ends. -/
def State.jobGoes (key : Nat) (j : Job) (x : State × JobXlat) (f : State → List (Nat × Nat × Nat) → State) : State :=
  match x with
  | (s, .ok spans) => f s spans
  | (s, .fault va k) => s.jobFault key j va k
  | (s, _) => s.jobEnds key j 3

/-- The lines of spans. -/
def jobLines (spans : List (Nat × Nat × Nat)) : List Nat :=
  spans.flatMap (fun x => (List.range ((x.2.1 % 64 + x.2.2 + 63) / 64)).map (x.2.1 + 64 * ·))

/-- A job's read returns poison, or reaches a granule that has been declared free: its task traps with MACHINE (R52,
R117), and the job ends with FAULT (log entry 103). -/
def State.jobPoison (s : State) (key va : Nat) (j : Job) : State :=
  (s.jobEnds key j 3).updBank j.bank (fun B => (B.raiseDeferred cMachine (BitVec.ofNat 64 va)).moved)

/-- Reads bytes of a job: the read is queued at its memory ports, and `f` goes on once they have served it (R105). -/
def State.jobRead (s : State) (key : Nat) (j : Job) (spans : List (Nat × Nat × Nat))
    (f : State → Job → List Byte → State) : State :=
  let id := j.work.read.getD s.nextId
  let s := if j.work.read.isSome then s
    else ({ s with nextId := s.nextId + 1 } : State).enqueueAll j.tenant id (jobLines spans)
  if s.queued id then s.putJob key { j with work := { j.work with read := some id, lines := jobLines spans } }
  else
    let j := { j with work := { j.work with read := none, lines := [] } }
    if decide (s.input.check = .fail) || spans.any (fun x => s.freeGranule x.2.1) then
      s.jobPoison key ((spans.map (·.1)).headD 0) j
    else f (s.putJob key j) j (s.spanBytes (instDie key) spans)

/-- A write of the job to some of the bytes of spans is under way. -/
def State.jobOverlaps (s : State) (j : Job) (spans : List (Nat × Nat × Nat)) : Bool :=
  s.writes.any (fun w => j.ids.contains w.id && ! w.scr &&
    spans.any (fun x => decide (w.addr < x.2.1 + x.2.2 ∧ x.2.1 < w.addr + w.bytes.length)))

/-- One element or row: `n` bytes at `va` are read, and what `f` makes of them is written at `wa`, after the job's
earlier writes to the same bytes (R274: in increasing e). -/
def State.jobMove (s : State) (key : Nat) (j : Job) (va wa n : Nat) (f : List Byte → List Byte × Nat) : State :=
  State.jobGoes key j (s.jobSpan j.bank .read va n) (fun s src =>
    State.jobGoes key j (s.jobSpan j.bank .write wa n) (fun s dst =>
      if s.jobOverlaps j dst then s
      else s.jobRead key j src (fun s j bs =>
        let (bs, g) := f bs
        (s.jobWrites key j.number dst bs).jobDone key j.number 1 g)))

/-! ### The engines -/

/-- Special functions: one element (R274 kind 1). -/
def State.sfeUnit (s : State) (key : Nat) (j : Job) : State :=
  let n := tagBits j.parm / 8
  s.jobMove key j (j.src + j.done * n) (j.dst + j.done * n) n (fun bs =>
    let (c, g) := sfeCode j.op j.parm (ofLeBytes bs)
    (leBytes n c, g))

/-- Gathers: the index of a row, then the row (R274 kind 2). -/
def State.gthUnit (s : State) (key : Nat) (j : Job) : State :=
  match j.work.idx with
  | none =>
    State.jobGoes key j (s.jobSpan j.bank .read (j.aux + 4 * j.done) 4) (fun s src =>
      s.jobRead key j src (fun s j bs => s.putJob key { j with work := { j.work with idx := some (ofLeBytes bs) } }))
  | some i =>
    let n := 2 ^ j.parm
    let (va, wa) := if j.op = 0 then (j.src + i * n, j.dst + j.done * n) else (j.src + j.done * n, j.dst + i * n)
    s.jobMove key j va wa n (fun bs => (bs, 0))

/-- The members of a collective that are at work. -/
def State.colMembers (s : State) (key : Nat) (j : Job) : List Job :=
  (s.inst key).jobs.filter (fun i => decide (i.key = j.key ∧ i.ending = 0))

/-- Members in the order in which their whole contributions have arrived; those of one ring cycle by rank (R100). -/
def colOrder (ms : List Job) : List Job :=
  let at_ := fun (m : Job) => m.work.arrived.getD 0
  sortBy (fun a b => decide (at_ a < at_ b ∨ (at_ a = at_ b ∧ a.rank < b.rank))) ms

/-- Bytes of a unit of a collective, and its elements: a pair of 4-bit elements shares a byte (R201). -/
def colUnit (t : Nat) : Nat × Nat := if tagBits t = 4 then (1, 2) else (tagBits t / 8, 1)

/-- Bytes that a member contributes; of a broadcast rank 0 alone has a contribution (R274). -/
def Job.contribution (j : Job) : Nat :=
  let (n, k) := colUnit j.parm
  if j.op = 3 ∧ j.rank ≠ 0 then 0 else (j.count + k - 1) / k * n

/-- A member's contribution has grown; the whole of it arrives in the present cycle of the rings, which run at
1.2 GHz (R101). -/
def State.contributes (s : State) (key : Nat) (j : Job) (bs : List Byte) : State :=
  let got := j.work.got ++ bs
  s.putJob key { j with work := { j.work with
    got := got, arrived := if j.contribution ≤ got.length then some s.serviceCycle else none } }

/-- A member reads the next unit of its contribution. -/
def State.colRead (s : State) (key : Nat) (j : Job) : State :=
  if j.contribution ≤ j.work.got.length then s.contributes key j []
  else
    State.jobGoes key j (s.jobSpan j.bank .read (j.src + j.work.got.length) (colUnit j.parm).1) (fun s src =>
      s.jobRead key j src (fun s j bs => s.contributes key j bs))

/-- Translates a unit of each member's destination. -/
def State.colSpans (s : State) (key off n : Nat) : List Job → State × Option (List (List (Nat × Nat × Nat)))
  | [] => (s, some [])
  | j :: rest =>
    match s.jobSpan j.bank .write (j.dst + off) n with
    | (s, .ok spans) =>
      let (s, xs) := s.colSpans key off n rest
      (s, xs.map (spans :: ·))
    | (s, .fault va k) => (s.jobFault key j va k, none)
    | (s, _) => (s.jobEnds key j 3, none)

/-- The result of the `n` bytes from `off` on of the members' contributions, in order of arrival, and its flags. -/
def colBytes (j : Job) (ms : List Job) (off n : Nat) : List Byte × Nat :=
  let part := fun (m : Job) => (m.work.got.drop off).take n
  if j.op = 3 then
    (match ms.find? (fun m => m.rank = 0) with
     | some m => (part m, 0)
     | none => (List.replicate n 0, 0))
  else
    let (c, f) := colResult j.op j.parm (ms.map (fun m => ofLeBytes (part m)))
    (leBytes n c, f)

/-- Writes a unit's result to each member's destination; the last element of an odd number of 4-bit ones leaves the
other half of its byte. -/
def State.colWrites (s : State) (key k flags : Nat) (bs : List Byte) (half : Bool) :
    List (Job × List (Nat × Nat × Nat)) → State
  | [] => s
  | (j, spans) :: rest =>
    let old := ofLeBytes (s.spanBytes (instDie key) spans)
    let bs' := if half then leBytes 1 (old / 16 * 16 + ofLeBytes bs % 16) else bs
    ((s.jobWrites key j.number spans bs').jobDone key j.number k flags).colWrites key k flags bs half rest

/-- Collectives: one unit of the results, once every member's contribution has arrived (R100). -/
def State.colStep (s : State) (key : Nat) (j : Job) : State :=
  let ms := colOrder (s.colMembers key j)
  if ms.length ≠ j.members ∨ ms.any (fun m => m.work.arrived.isNone || m.fault.isSome || m.denied) = true then s
  else
    let (n, k) := colUnit j.parm
    let off := j.done / k * n
    match s.colSpans key off n ms with
    | (s, none) => s
    | (s, some ys) =>
      let (bs, f) := colBytes j ms off n
      s.colWrites key k f bs (decide (k = 2 ∧ j.count - j.done = 1)) (ms.zip ys)

/-- Collectives: a unit of a member's contribution, then of the results (R274 kind 3). -/
def State.colGo (s : State) (key : Nat) (j : Job) : State :=
  if j.work.arrived.isNone then s.colRead key j else s.colStep key j

/-- The token that a bank's grant register gives a remote page (R144). -/
def State.jobToken (s : State) (b gi : Nat) : Nat := (KV.get 0 (s.bank b).r.g gi).toNat

/-- The slot byte of a copy's packets, which its responses bring back: the low bits of the job's number serve as slot and
generation (R46, log entry 41). -/
def Job.slotByte (j : Job) : Nat := j.number % 128

/-- A fabric copy's request goes out: a read or a write (R298). Without a path, or to a peer of another incarnation, the
copy ends with PEER_RESET (R36, R45). -/
def State.copySend (s : State) (key : Nat) (j : Job) (c : CopyReq) : State :=
  let p : Packet :=
    { dest := c.peer, source := s.boot.moduleNo, inter := 0x3FF, op := if j.op = 0 then 2 else 1, tenant := j.tenant,
      sinc := s.boot.incarnation, tinc := c.inc, core := 512 + key % 512, slot := j.slotByte, rsv := 0, addr := c.off,
      token := c.token, body := requestBody c.size 0 0 0 0 c.data }
  match (if c.inc = 0 ∨ s.peerInc c.peer ≠ c.inc then none else s.send p) with
  | none => s.copyEnds key j 6
  | some s => s.putJob key { j with work := { j.work with copy := some { c with state := .sent, at_ := s.time } } }

/-- Fabric copies: up to 512 bytes, within a granule of both sides, are asked for or sent (R274 kind 4). -/
def State.fcpAsk (s : State) (key : Nat) (j : Job) : State :=
  let va := j.src + j.done
  let wa := j.dst + j.done
  let n := Nat.min (Nat.min 512 (j.count - j.done)) (Nat.min (4096 - va % 4096) (4096 - wa % 4096))
  State.jobGoes key j (s.jobSpan j.bank (if j.op = 0 then .read else .write) (if j.op = 0 then va else wa) n)
    (fun s spans =>
      match s.jobSpan j.bank (if j.op = 0 then .write else .read) (if j.op = 0 then wa else va) n with
      | (s, .fault va k) => s.jobFault key j va k
      | (s, .remote peer gi off) =>
        let token := s.jobToken j.bank gi
        let c : CopyReq := { peer := peer, off := off, token := token, size := n, inc := s.peerInc peer, state := .again,
                             at_ := s.time, data := [], number := 0 }
        if token = 0 then s.jobEnds key j 5
        else if j.op = 0 then
          s.jobRead key j spans (fun s j bs => (s.markDirty j.tenant wa n).copySend key j { c with data := bs })
        else s.copySend key j c
      | (s, _) => s.jobEnds key j 3)

/-- The bytes that a copy has read from its peer are written. -/
def State.fcpLand (s : State) (key : Nat) (j : Job) : State :=
  let bs := j.work.got
  State.jobGoes key j (s.jobSpan j.bank .write (j.dst + j.done) bs.length) (fun s spans =>
    let s := s.putJob key { j with work := { j.work with got := [] } }
    (s.jobWrites key j.number spans bs).jobDone key j.number bs.length 0)

/-- The page has moved (R157): the request goes to its new home. -/
def State.copyMoved (s : State) (key : Nat) (j : Job) (c : CopyReq) (body : List Byte) : State :=
  let home := leAt body 4 2
  if s.peerInc home ≠ leAt body 6 2 then s.copyEnds key j 6
  else s.copySend key j { c with peer := home, off := leAt body 8 8 + c.off % 4096, token := leAt body 16 8,
                                 inc := s.peerInc home }

/-- A copy's job with its request changed. -/
def Job.withCopy (j : Job) (x : Option CopyReq) : Job := { j with work := { j.work with copy := x } }

/-- The response to a copy's request, by its code (R154, R274). A job that is ending sends nothing any more: a write that
the peer has performed counts, and anything else leaves nothing to wait for (R275). -/
def State.copyResp (s : State) (key : Nat) (j : Job) (c : CopyReq) (p : Packet) : State :=
  let code := bitsOf p.addr 7 0
  if j.op = 0 ∧ code = 0 then (s.putJob key (j.withCopy none)).jobDone key j.number c.size 0
  else if j.ending ≠ 0 then s.putJob key (j.withCopy none)
  else match code with
    | 0 =>
      let j : Job := { j.withCopy none with work := { j.work with
        copy := none, got := (p.body ++ List.replicate c.size 0).take c.size } }
      (s.putJob key j).fcpLand key j
    | 1 => s.putJob key (j.withCopy (some { c with state := .ticket, number := bitsOf p.addr 31 16 }))
    | 2 => s.putJob key (j.withCopy (some { c with state := .again, at_ := s.time + 1000000 }))
    | 3 => s.copyEnds key j 5
    | _ => s.copyMoved key j c p.body

/-- A notice for a copy's ticket (R157). -/
def State.copyNotice (s : State) (key : Nat) (j : Job) (c : CopyReq) (body : List Byte) : State :=
  if j.ending ≠ 0 then s.putJob key (j.withCopy none)
  else match leAt body 2 1 with
    | 0 => s.copySend key j c
    | 1 => s.copyMoved key j c body
    | 2 => s.copyEnds key j 3
    | _ => s

/-- Fabric copies: the next step of one (R274 kind 4). A peer that has reset, and FTMO without a response, end it with
PEER_RESET (R45, R47). -/
def State.fcpStep (s : State) (key : Nat) (j : Job) : State :=
  match j.work.copy with
  | none => if j.work.got.isEmpty then s.fcpAsk key j else s.fcpLand key j
  | some c =>
    if s.peerInc c.peer ≠ c.inc then s.copyEnds key j 6
    else if c.state = .again then (if s.time < c.at_ then s else s.copySend key j c)
    else if c.state = .sent ∧ s.timeoutUs * 1000000 ≤ s.time - c.at_ then s.copyEnds key j 6
    else s

/-- One step of a job's work. -/
def State.jobUnit (s : State) (key : Nat) (j : Job) : State :=
  match entryKind key with
  | 1 => s.sfeUnit key j
  | 2 => s.gthUnit key j
  | 3 => s.colGo key j
  | _ => s.fcpStep key j

/-- A job has work left that it may do now. -/
def Job.working (j : Job) : Bool := decide (j.ending = 0 ∧ j.done < j.count) && j.fault.isNone && ! j.denied

/-- Up to `n` steps of a job's work. -/
def State.jobRun (key num : Nat) : Nat → State → State
  | 0, s => s
  | n + 1, s =>
    match s.jobAt key num with
    | none => s
    | some j => if j.working then State.jobRun key num n (s.jobUnit key j) else s

/-! ### The end of a job (R275) -/

/-- The scope at which a job's writes are performed before its status. -/
def Job.endScope (j : Job) : Nat := if j.counter = 0 then 1 else j.cscope

/-- Every write that a job has made is performed at a scope, of the task that asked for it (R183). -/
def State.jobWritesAt (s : State) (j : Job) (scope : Nat) : Bool :=
  s.writes.all (fun w => ! j.ids.contains w.id ||
    (s.scopeDies j.tenant (dieOf j.bank) scope).all (fun d => w.dies.contains d))

/-- The status word (R275). -/
def Job.status (j : Job) : Nat := j.done * 2 ^ 16 + j.flags % 128 * 2 ^ 8 + j.ending

/-- The next step of a job's end: status. -/
def State.jobStatus (s : State) (key : Nat) (j : Job) : State :=
  if j.denied || (j.fault.isSome && s.jobOverdue key j) then
    s.putJob key { j with stage := 1, denied := false, fault := none }
  else match s.jobSpan j.bank .write (j.va + 48) 8 with
    | (s, .fault va k) => s.jobFault key j va k
    | (s, .ok spans) =>
      let s := s.putJob key { j with stage := 1 }
      s.jobWrites key j.number spans (leBytes 8 j.status)
    | (s, _) => s.putJob key { j with stage := 1 }

/-- The counter rises by 1 as a release at its scope (R197); a job that was abandoned leaves it (R277). -/
def State.jobCounter (s : State) (key : Nat) (j : Job) : State :=
  let past := { j with stage := 2, denied := false, fault := none }
  if j.counter = 0 ∨ j.ending = 4 ∨ (j.denied || (j.fault.isSome && s.jobOverdue key j)) = true then s.putJob key past
  else match s.jobSpan j.bank .atomic j.counter 8 with
    | (s, .fault va k) => s.jobFault key j va k
    | (s, .ok ((va, pa, n) :: _)) =>
      State.jobRead s key j [(va, pa, n)] (fun s j _ =>
        let t := { WriteTag.other (instDie key) with rel := some j.cscope, mark := some (j.tenant, va) }
        match s.rmwAt t pa 8 (fun m => some ((m + 1) % 2 ^ 64)) with
        | none => s
        | some (s, _) => (s.markDirty j.tenant va 8).putJob key { past with work := j.work })
    | (s, _) => s.putJob key past

/-- The flag rises, and the job is gone. -/
def State.jobFlag (s : State) (key : Nat) (j : Job) : State :=
  let s := if bitAt j.flagByte 7 then s.incFlag j.bank (j.flagByte % 16) else s
  (s.setInst key ((s.inst key).dropJob j.number)).updBank j.bank (·.moved)

/-- A write that a copy has sent has not been answered, and FTMO has not passed since (R47). -/
def State.copyAwaited (s : State) (j : Job) : Bool :=
  match j.work.copy with
  | some c => decide (j.op = 0 ∧ c.state = .sent ∧ s.time - c.at_ < s.timeoutUs * 1000000)
  | none => false

/-- One step of a job's end, each once the writes before it are performed: of a fabric copy, those that it has sent
(R275). -/
def State.jobEndStep (s : State) (key : Nat) (j : Job) : State :=
  if (j.fault.isSome && ! s.jobOverdue key j) || ! s.jobWritesAt j j.endScope || s.copyAwaited j then s
  else match j.stage with
    | 0 => s.jobStatus key j
    | 1 => s.jobCounter key j
    | _ => s.jobFlag key j

/-- A job that has done its work ends with DONE; an answer of ACCESS while it worked ends it with FAULT. -/
def State.jobSettle (s : State) (key : Nat) (j : Job) : State :=
  if j.ending ≠ 0 then s
  else if j.denied then s.jobEnds key j 3
  else if j.count ≤ j.done then s.putJob key { j with ending := 1 }
  else s

/-- What the first read of a job waits for (R276): every earlier control-strand access of its task, and every matrix
and transfer command issued earlier, is performed at a scope. -/
def State.jobReady (s : State) (j : Job) (scope : Nat) : Bool :=
  let B := s.bank j.bank
  s.earlierCtlAt j.bank j.id scope &&
  B.mat.window.all (fun c => decide (j.walk ≤ c.walk)) && B.xfer.window.all (fun c => decide (j.walk ≤ c.walk)) &&
  s.writes.all (fun w => match w.writer with
    | .granule b k => decide (b ≠ j.bank) || decide (j.walk ≤ k) || s.writeAt b w scope
    | _ => true)

/-- JOB_COMPLETE (R275): job `input.sub` of instance `input.who` goes on: with up to `input.size` steps of its work,
with 0 as many as it may need, once its own task's earlier accesses and commands are performed (R276); and with the
steps of its end. -/
def execJobComplete (s : State) : Outcome State Fault Refusal :=
  let key := s.input.who
  let num := s.input.sub
  .next (match s.jobAt key num with
    | none => s
    | some j =>
      if entryKind key = 0 ∨ 4 < entryKind key then s
      else
        let steps := if s.input.size = 0 then 4 * j.count + 4 else s.input.size
        let scope := if entryKind key ≤ 2 then 2 else 4
        let s := if j.working && s.jobReady j scope then State.jobRun key num steps s else s
        match s.jobAt key num with
        | none => s
        | some j =>
          let s := s.jobSettle key j
          match s.jobAt key num with
          | none => s
          | some j => if j.ending = 0 then s else s.jobEndStep key j)

end Sys2Proof.Machine
end

