-- ==== Sys2Proof/Machine/Answers.lean ====
section
/-! DEFINITION. Responses and notices as they reach the requests of this module, those of fabric copies among them (R46,
R156, R157), and the end of every request to a peer that has a new incarnation (R45). -/

namespace Sys2Proof.Machine

open Sys2Proof Host

/-- The fabric copy whose request the core number of a response or notice, and `p`, name: its engine, job and request. -/
def State.copyFor (s : State) (core : Nat) (p : Job → CopyReq → Bool) : Option (Nat × Job × CopyReq) :=
  let key := 4 * 4096 + (core - 512) % 512
  (s.inst key).jobs.findSome? (fun j => match j.work.copy with
    | some c => if p j c then some (key, j, c) else none
    | none => none)

/-- RESP (R156): a response whose slot generation does not match is dropped (R46); one of a status code
above 4, or with reserved bits set, is discarded. One to a core number from 512 on is for a fabric copy. -/
def execResp (s : State) : Outcome State Fault Refusal :=
  let p := s.input.packet
  let i := p.slot % 8
  let c := s.core p.core
  .next (
    if ! s.responseOk p || decide (4 < bitsOf p.addr 7 0 ∨ bitsOf p.addr 15 10 ≠ 0 ∨ bitsOf p.addr 63 32 ≠ 0) then s
    else if 512 ≤ p.core then
      (match s.copyFor p.core (fun j c => decide (c.state = .sent ∧ c.peer = p.source ∧ j.slotByte = p.slot)) with
       | some (key, j, c) => s.copyResp key j c p
       | none => s)
    else match c.slots.find? (fun x => x.1 = i) with
      | none => s
      | some (_, sl) =>
        if KV.get 0 c.gens i ≠ p.slot / 8 % 16 then s
        else if sl.op = 5 then s.respTry p.core i sl p
        else s.respAccess p.core i sl p)

/-- NOTICE (R157): it is matched to an entry of either bank of the core by source module and number;
without a match it is discarded. One to a core number from 512 on is for a
fabric copy. -/
def execNotice (s : State) : Outcome State Fault Refusal :=
  let p := s.input.packet
  let number := leAt p.body 0 2
  .next (
    if ! s.responseOk p || ! noticeReserved p.body then s
    else if 512 ≤ p.core then
      (match s.copyFor p.core (fun _ c => decide (c.state = .ticket ∧ c.peer = p.source ∧ c.number = number)) with
       | some (key, j, c) => s.copyNotice key j c p.body
       | none => s)
    else
      let b := 2 * p.core
      match (s.bank b).ticketOf p.source number with
      | some k => s.applyNotice b k p.body
      | none =>
        match (s.bank (b + 1)).ticketOf p.source number with
        | some k => s.applyNotice (b + 1) k p.body
        | none => s)

/-! ### A peer's new incarnation (R45) -/

/-- Every request of a fabric copy to a module completes with PEER_RESET. -/
def State.resetCopies (s : State) (n : Nat) : State :=
  s.svc.inst.foldl (fun s x =>
    if entryKind x.1 ≠ 4 then s
    else x.2.jobs.foldl (fun s j => match j.work.copy with
      | some c => if c.peer = n then s.copyEnds x.1 j 6 else s
      | none => s) s) s

/-- PEERINC_WRITE (R45): a write that changes PEERINC of module `input.who` to `input.value`; a write to
this module's own is ignored. -/
def execPeerincWrite (s : State) : Outcome State Fault Refusal :=
  let n := s.input.who
  let v := s.input.value.toNat % 65536
  .next (
    if n = s.boot.moduleNo ∨ s.hubReg (offPEERINC n) = v then s
    else ((((s.setHub (offPEERINC n) v).resetSlots n).resetTickets n).resetCopies n).resetDeliveries n)

end Sys2Proof.Machine
end

