-- ==== Sys2Proof/Machine/Matrix.lean ====
section
/-! DEFINITION. The matrix words (chapter 17, R349-R363): the checks at issue, the commands in their window, and what
each does to tiles, accumulators, matrix state and scratchpad when it completes. -/

namespace Sys2Proof.Machine

open Sys2Proof Host

/-! ### Scratchpad operands (R131, R351) -/

/-- The footprint of `rows` rows of `len` bytes. -/
def rowsFoot (d : MqDesc) (rows len : Nat) (wr : Bool) : Range :=
  footprint d.rho d.base (d.base + (rows - 1) * d.rowPitch + len - 1) wr

/-- The byte at a linear window address. -/
def State.winByte (s : State) (b rho x : Nat) : Byte := s.scr.read (s.windowBase b + rot x rho)

/-- Bytes from a linear window address on. -/
def State.winBytes (s : State) (b rho x n : Nat) : List Byte := (List.range n).map (fun i => s.winByte b rho (x + i))

/-- Writes bytes from a linear window address on. -/
def State.winWrite (s : State) (b rho : Nat) : Nat → List Byte → State
  | _, [] => s
  | x, v :: rest => State.winWrite { s with scr := s.scr.write (s.windowBase b + rot x rho) v } b rho (x + 1) rest

/-- Row `r` of an operand, as a number. -/
def State.operandRow (s : State) (b : Nat) (d : MqDesc) (r len : Nat) : Nat :=
  ofLeBytes (s.winBytes b d.rho (d.base + r * d.rowPitch) len)

/-! ### What a command will find (R350) -/

/-- Sets the tag of a tile. -/
def Regs.retag (r : Regs) (k : Nat) (t : BitVec 6) : Regs :=
  { r with t := KV.put r.t k { r.readT k with tag := t } }

/-- Tags, MSHAPE and MFMT as a command in the window leaves them. -/
def Bank.foresee (B : Bank) (c : MatWin) : Bank :=
  match c.instr with
  | .mshape m n k => { B with mat := { B.mat with m := m.toNat + 1, n := n.toNat + 1, k := k.toNat + 1 } }
  | .mfmt a b => { B with mat := { B.mat with fa := a, fb := b } }
  | .mldt k t n _ => B.onRegs (fun r => (List.range (n.toNat + 1)).foldl (fun r q => r.retag (k.toNat + q) t) r)
  | .mmov d a => B.onRegs (fun r => r.retag d.toNat (r.readT a.toNat).tag)
  | .mmovFmt d t _ _ _ => B.onRegs (fun r => r.retag d.toNat t)
  | _ => B

/-- The bank as a matrix command that issues now will find it, so far as the checks at issue read it. -/
def Bank.matView (B : Bank) : Bank := B.mat.window.foldl Bank.foresee B

/-! ### Issue (R350) -/

/-- What a MAT word is checked for when it issues: its tags, the level it needs, the descriptors that it pops, and
its footprint by those. -/
structure MatPlan where
  tagOk : Bool
  level : Nat
  pops : Nat
  fa : BitVec 6
  fb : BitVec 6
  ranges : List MqDesc → List Range

/-- A word that is not checked beyond its bits and has no scratchpad operand. -/
def MatPlan.simple : MatPlan := { tagOk := true, level := 0, pops := 0, fa := 0, fb := 0, ranges := fun _ => [] }

/-- A word of one scratchpad operand. -/
def MatPlan.one (ranges : MqDesc → Range) : MatPlan :=
  { MatPlan.simple with pops := 1, ranges := fun ds => ds.map ranges }

/-- The command of a MAT word that issues. -/
def Bank.matCommand (B : Bank) (id : Nat) (i : Instr) (p : MatPlan) : MatWin :=
  let V := B.matView
  let ds := B.q.mq.take p.pops
  { id := id, walk := B.wm.walk, mark := B.wm.mark, instr := i, descs := ds, m := V.mat.m, n := V.mat.n,
    k := V.mat.k, fa := p.fa, fb := p.fb, ranges := p.ranges ds, begun := false }

/-- A MAT word pops its descriptors and enters the window. -/
def State.issueMat (s : State) (b : Nat) (i : Instr) (p : MatPlan) : State :=
  let c := (s.bank b).matCommand s.nextId i p
  ({ s with nextId := s.nextId + 1 } : State).updBank b (fun B =>
    { B with q := { B.q with mq := B.q.mq.drop p.pops }, mat := { B.mat with window := B.mat.window ++ [c] } }.notePop
      qcMq p.pops)

/-- Entries of a command window (R128). -/
def windowDepth : Nat := 8

/-- What a MAT word comes to in the matrix strand (R350). -/
def matRes (i : Instr) (plan : Bank → MatPlan) (b : Nat) (s : State) : Res :=
  if ! i.legal then .trap cIllegal (wordVal i)
  else
    let B := s.bank b
    let p := plan B.matView
    if ! p.tagOk then .trap cFormatTag (wordVal i)
    else if B.level < p.level then .trap cPowerOver (BitVec.ofNat 64 p.level)
    else if windowDepth ≤ B.mat.window.length then .stall .window
    else if B.poppable qcMq B.q.mq.length < p.pops then .stall .queue
    else match B.firstInvalid (p.ranges (B.q.mq.take p.pops)) with
      | some a => .trap cScratchBounds (BitVec.ofNat 64 a)
      | none => .done (s.issueMat b i p)

/-- The control strand passes a MAT word, and notes it (R221). -/
def noteMat (b : Nat) (s : State) : State :=
  s.updBank b (fun B =>
    let w := B.wc.walk + 1
    (if B.trap.handler then B else B.onOut (fun o => { o with lastMat := w })).glide .c)

/-- The vector strand passes a MAT word, and notes one that writes an accumulator (R345). -/
def noteMacc (b : Nat) (i : Instr) (s : State) : State :=
  match accWritten i with
  | some k =>
    s.updBank b (fun B =>
      let keep := fun (x : Nat × Nat) => decide (B.wm.walk ≤ x.1) || B.mat.window.any (fun c => decide (c.walk = x.1))
      (B.onOut (fun o => { o with maccs := o.maccs.filter keep ++ [(B.wv.walk, k)] })).glide .v)
  | none => skip b .v s

/-- A MAT word: the matrix strand executes it, every other strand skips it (R118); on a system core it raises
ILLEGAL (R290). -/
def matStep (i : Instr) (plan : Bank → MatPlan) (s : State) : State :=
  let b := s.cur.bank
  if isSys b then finish b s.cur.strand s (.trap cIllegal (wordVal i))
  else match s.cur.strand with
    | .m => finish b .m s (matRes i plan b s)
    | .c => noteMat b s
    | .v => noteMacc b i s
    | .x => skip b .x s

/-- The outcome of a MAT word. -/
def matWord (i : Instr) (plan : Bank → MatPlan) (s : State) : Outcome State Fault Refusal :=
  .next (matStep i plan s)

/-! ### The words -/

/-- The classes of formats that `mma` pairs (R357): 1 four-bit integers, 2 eight-bit integers, 3 the binary8 family,
4 f16 and bf16; 0 none. -/
def mmaClass (t : BitVec 6) : Nat :=
  let t := t.toNat
  if tagInt4 t then 1 else if t = 1 ∨ t = 2 then 2 else if tagB8 t then 3 else if t = 10 ∨ t = 11 then 4 else 0

/-- The greatest K of a class. -/
def mmaKmax (c : Nat) : Nat := if c = 1 then 256 else if c = 4 then 64 else 128

/-- The level that a class needs (R112). -/
def mmaLevel (c : Nat) : Nat := if c = 1 ∨ c = 3 then 4 else if c = 2 then 3 else 2

/-- Bytes of a row of `k` elements of `e` bits. -/
def rowBytes (k e : Nat) : Nat := (k * e + 7) / 8

/-- `mma` (R357): operand code 8 is a scratchpad operand; `u` is `.sb`, `v` is `.sa`. -/
def planMma (a b : BitVec 6) (u v : BitVec 1) (B : Bank) : MatPlan :=
  let fa := if a = 8 then B.mat.fa else (B.r.readT a.toNat).tag
  let fb := if b = 8 then B.mat.fb else (B.r.readT b.toNat).tag
  let c := mmaClass fa
  let len := rowBytes B.mat.k (tagBits fa.toNat)
  let rows := (if a = 8 then [B.mat.m] else []) ++ (if b = 8 then [B.mat.n] else [])
  { tagOk := decide (c ≠ 0) && decide (mmaClass fb = c) && decide (B.mat.k ≤ mmaKmax c) &&
      (decide (u = 0 ∧ v = 0) || decide (3 ≤ c)),
    level := mmaLevel c, pops := rows.length, fa := fa, fb := fb,
    ranges := fun ds => (ds.zip rows).map (fun x => rowsFoot x.1 x.2 len false) }

/-- `mma` (R357, R358). -/
def execMma (k a b : BitVec 6) (u v w : BitVec 1) (s : State) := matWord (.mma k a b u v w) (planMma a b u v) s

/-- `mzero` (R355). -/
def execMzero (k : BitVec 6) (s : State) := matWord (.mzero k) (fun _ => .simple) s

/-- `mzero.t` (R355). -/
def execMzeroT (k : BitVec 6) (s : State) := matWord (.mzeroT k) (fun _ => .simple) s

/-- `manch` (R354). -/
def execManch (k : BitVec 6) (i : BitVec 10) (s : State) := matWord (.manch k i) (fun _ => .simple) s

/-- `mshape` (R352). -/
def execMshape (m n : BitVec 7) (k : BitVec 8) (s : State) := matWord (.mshape m n k) (fun _ => .simple) s

/-- `mfmt` (R353). -/
def execMfmt (a b : BitVec 6) (s : State) := matWord (.mfmt a b) (fun _ => .simple) s

/-- The footprint of `mldt` (R360): linear and transposed forms reach the same highest address. -/
def mldtFoot (c : Nat) (d : MqDesc) : Range :=
  footprint d.rho d.base (d.base + c * d.tilePitch + 127 * d.rowPitch + 127) false

/-- `mldt` (R360). -/
def execMldt (k t : BitVec 6) (c : BitVec 3) (l : BitVec 2) (s : State) :=
  matWord (.mldt k t c l) (fun _ => .one (mldtFoot c.toNat)) s

/-- `msta` (R361). -/
def execMsta (e : BitVec 1) (j : BitVec 4) (t : BitVec 6) (k o : BitVec 1) (r : BitVec 3) (s : State) :=
  matWord (.msta e j t k o r)
    (fun B => .one (fun d => rowsFoot d B.mat.m (rowBytes B.mat.n (tagBits t.toNat)) true)) s

/-- `mchk` (R363). -/
def execMchk (e : BitVec 1) (j : BitVec 4) (i c : BitVec 1) (s : State) :=
  matWord (.mchk e j i c) (fun _ => .one (fun d => rowsFoot d 1 32 true)) s

/-- `mmov` from a tile (R362). -/
def execMmov (d a : BitVec 6) (s : State) := matWord (.mmov d a) (fun _ => .simple) s

/-- `mmov` from an accumulator (R362). -/
def execMmovFmt (d t : BitVec 6) (k o : BitVec 1) (r : BitVec 3) (s : State) :=
  matWord (.mmovFmt d t k o r) (fun _ => .simple) s

/-- `mscl.a`, `mscl.b` (R356). -/
def execMscl (x : BitVec 1) (s : State) := matWord (.mscl x) (fun _ => .one (fun d => rowsFoot d 128 8 false)) s

/-- `mscl.a.one`, `mscl.b.one` (R356). -/
def execMsclOne (x : BitVec 1) (s : State) := matWord (.msclOne x) (fun _ => .simple) s

/-! ### Accumulators (R211-R215) -/

/-- An element that is zero and normal. -/
def AccElem.zero : AccElem := { v := 0, st := 0 }

/-- An element by row and column. -/
def Acc.elem (a : Acc) (i j : Nat) : AccElem := KV.get AccElem.zero a.elems (128 * i + j)

/-- Elements by row and column, with the flags that forming them raises. -/
def buildAcc (f : Nat → Nat → AccElem × Nat) : List Nat → KV AccElem × Nat
  | [] => ([], 0)
  | q :: rest =>
    let (x, g) := f (q / 128) (q % 128)
    let (r, h) := buildAcc f rest
    (if x = AccElem.zero then r else (q, x) :: r, g ||| h)

/-- Every element of an accumulator. -/
def accCells : List Nat := List.range 16384

/-- The anchor of an accumulator changes (R212). -/
def Acc.reanchor (a : Acc) (new : Int) : Acc × Nat :=
  let (es, g) := buildAcc (fun i j =>
    let x := a.elem i j
    if x.st ≠ 0 then (x, 0)
    else
      let (v, h) := accAnchor x.v a.anchor new
      ({ v := v, st := 0 }, h)) accCells
  ({ a with elems := es, anchor := new }, g)

/-- The sum of a step's products (R213), from where an element stands. -/
def stepSum (anchor : Int) (x : AccElem) (ps : List (Num × Num)) : StepSum :=
  ps.foldl (fun t p => t.step anchor p.1 p.2)
    { sum := 0, nan := decide (x.st = 3), pinf := decide (x.st = 1), ninf := decide (x.st = 2), flags := 0 }

/-- An element after a step. -/
def stepElem (anchor : Int) (x : AccElem) (ps : List (Num × Num)) : AccElem × Nat :=
  let (v, st, g) := (stepSum anchor x ps).finish x.v
  ({ v := v, st := BitVec.ofNat 2 st }, g)

/-- A matrix step (R358) on the rows of A and of B: `z` clears the elements first. -/
def Acc.step (a : Acc) (z : Bool) (m n : Nat) (ra rb : List (List Num)) : Acc × Nat :=
  let (es, g) := buildAcc (fun i j =>
    let x := a.elem i j
    if i < m ∧ j < n then
      stepElem a.anchor (if z then AccElem.zero else x) ((ra.getD i []).zip (rb.getD j []))
    else (x, 0)) accCells
  ({ a with elems := es }, g)

/-- The codes of a row's elements converted (R215), and the flags; `ctr` names the free values. -/
def Acc.convertRow (a : Acc) (t mode : Nat) (spec : Bool) (ctr i : Nat) : List Nat → List Nat × Nat
  | [] => ([], 0)
  | j :: rest =>
    let r : Rounding := { mode := mode, spec := spec, random := (Config.random (ctr + 128 * i + j)).toNat % 256 }
    let x := a.elem i j
    let (c, g) := encodeTag t r (accValue x.v x.st.toNat a.anchor)
    let (cs, h) := a.convertRow t mode spec ctr i rest
    (c :: cs, g ||| h)

/-- The first `n` elements of row `i`, packed, and the flags. -/
def Acc.packRow (a : Acc) (t mode : Nat) (spec : Bool) (ctr i n : Nat) : Nat × Nat :=
  let (cs, g) := a.convertRow t mode spec ctr i (List.range n)
  (packLanes (tagBits t) cs, g)

/-! ### What a command does when it completes -/

/-- The scale byte of a row and block. -/
def scaleAt (m : KV Byte) (row q : Nat) : Nat := (KV.get 0x7F m (8 * row + q)).toNat

/-- The values of a row of `k` elements of a format, scaled by the row's scales if there are any (R206). -/
def rowValues (t : BitVec 6) (k bits : Nat) (scales : Option (KV Byte)) (row : Nat) : List Num :=
  (List.range k).map (fun q =>
    let x := valueOf t.toNat (lane (tagBits t.toNat) bits q)
    match scales with
    | some m => scaled false (scaleAt m row (q / 32)) x
    | none => x)

/-- The bits of row `r` of an `mma` operand: of the tile that the code names, or of the descriptor's operand. -/
def State.mmaRow (s : State) (b : Nat) (c : BitVec 6) (d : Option MqDesc) (t : BitVec 6) (k r : Nat) : Nat :=
  match d with
  | some d => s.operandRow b d r (rowBytes k (tagBits t.toNat))
  | none => lane 1024 ((s.bank b).r.readT c.toNat).bits.toNat r

/-- The accumulator after an `mma`, and the flags. -/
def State.mmaResult (s : State) (b : Nat) (c : MatWin) (k a x : BitVec 6) (sb sa z : BitVec 1) : Acc × Nat :=
  let B := s.bank b
  let da := if a = 8 then c.descs.head? else none
  let db := if x = 8 then c.descs.getLast? else none
  let ra := (List.range c.m).map (fun i =>
    rowValues c.fa c.k (s.mmaRow b a da c.fa c.k i) (if sa = 1 then some B.mat.sa else none) i)
  let rb := (List.range c.n).map (fun j =>
    rowValues c.fb c.k (s.mmaRow b x db c.fb c.k j) (if sb = 1 then some B.mat.sb else none) j)
  (B.r.readA k.toNat).step (decide (z = 1)) c.m c.n ra rb

/-- The residue record after a step (R363): `suspect` after a droop, `failed` where its first check failed. -/
def MatState.countStep (x : MatState) (walk : Nat) (suspect failed : Bool) : MatState :=
  let sat := fun (v : BitVec 32) => if v = BitVec.allOnes 32 then v else v + 1
  { x with
    steps := x.steps + 1
    rfail := if failed then sat x.rfail else x.rfail
    suspect := if suspect then sat x.suspect else x.suspect
    inject := false
    last := if suspect || failed then BitVec.ofNat 64 walk else x.last }

/-- Writes an accumulator. -/
def Regs.writeA (r : Regs) (k : Nat) (a : Acc) : Regs := { r with a := KV.put r.a k a }

/-- Writes a tile. -/
def Regs.writeT (r : Regs) (k : Nat) (x : TileReg) : Regs := { r with t := KV.put r.t k x }

/-- The linear address of byte `c` of row `r` of a tile that `mldt` loads (R360): layout 0 linear, 1 and 2
transposed. -/
def mldtAddr (l base p r c : Nat) : Nat :=
  if l = 0 then base + r * p + c
  else
    let n := 128 / l
    base + (r / n * n + c / l) * p + r % n * l + c % l

/-- A tile as `mldt` loads it. -/
def State.tileLoad (s : State) (b : Nat) (d : MqDesc) (l q : Nat) : TileBits :=
  BitVec.ofNat 131072 (ofLeBytes ((List.range 16384).map (fun i =>
    s.winByte b d.rho (mldtAddr l (d.base + q * d.tilePitch) d.rowPitch (i / 128) (i % 128)))))

/-- The rows that `msta` stores, from row `i` on, and the flags. -/
def State.storeRows (s : State) (b : Nat) (d : MqDesc) (a : Acc) (t mode : Nat) (spec : Bool) (ctr n : Nat) :
    List Nat → State × Nat
  | [] => (s, 0)
  | i :: rest =>
    let (x, g) := a.packRow t mode spec ctr i n
    let s := s.winWrite b d.rho (d.base + i * d.rowPitch) (leBytes (rowBytes n (tagBits t)) x)
    let (s, h) := s.storeRows b d a t mode spec ctr n rest
    (s, g ||| h)

/-- The residue record's 32 bytes (R363). -/
def MatState.record (x : MatState) : List Byte :=
  leBytes 8 x.steps.toNat ++ leBytes 4 x.rfail.toNat ++ leBytes 4 x.suspect.toNat ++ leBytes 4 x.inject.toNat ++
    leBytes 4 0 ++ leBytes 8 x.last.toNat

/-- A tile of a whole accumulator converted (R362), and the flags. -/
def Acc.toTile (a : Acc) (t mode : Nat) (spec : Bool) (ctr : Nat) : Nat × Nat :=
  let rows := (List.range 128).map (fun i => a.packRow t mode spec ctr i 128)
  (packLanes 1024 (rows.map (·.1)), (rows.map (·.2)).foldl (· ||| ·) 0)

/-- The scale bytes of an operand's 128 rows. -/
def State.scaleRows (s : State) (b : Nat) (d : MqDesc) : KV Byte :=
  (List.range 1024).map (fun i => (i, s.winByte b d.rho (d.base + i / 8 * d.rowPitch + i % 8)))

/-- A completion increments flag `j`, if the word names one (R137). -/
def State.flagUp (s : State) (b : Nat) (e : BitVec 1) (j : BitVec 4) : State :=
  if e = 1 then s.incFlag b j.toNat else s

/-- Changes the matrix state. -/
def State.onMat (s : State) (b : Nat) (f : MatState → MatState) : State :=
  s.updBank b (fun B => { B with mat := f B.mat })

/-- An arithmetic result's flags are raised (R220). -/
def State.matFlags (s : State) (b walk g : Nat) : State := s.updBank b (·.raiseFlags walk (BitVec.ofNat 7 g))

/-- A command of bank `b` has its effect (R352-R363); `suspect` and `failed` say how its check went. -/
def State.matEffect (s : State) (b : Nat) (c : MatWin) (suspect failed : Bool) : State :=
  let B := s.bank b
  let d := c.descs.headD { base := 0, rho := 0, rowPitch := 0, tilePitch := 0 }
  match c.instr with
  | .mma k a x sb sa z =>
    let (r, g) := s.mmaResult b c k a x sb sa z
    let s := s.onRegs b (fun q => q.writeA k.toNat r)
    (s.onMat b (·.countStep c.walk suspect (failed || B.mat.inject))).matFlags b c.walk g
  | .mzero k => s.onRegs b (fun q => q.writeA k.toNat { q.readA k.toNat with elems := [] })
  | .mzeroT k => s.onRegs b (fun q => q.writeT k.toNat { q.readT k.toNat with bits := 0 })
  | .manch k i =>
    let (r, g) := (B.r.readA k.toNat).reanchor i.toInt
    (s.onRegs b (fun q => q.writeA k.toNat r)).matFlags b c.walk g
  | .mshape m n k => s.onMat b (fun x => { x with m := m.toNat + 1, n := n.toNat + 1, k := k.toNat + 1 })
  | .mfmt f g => s.onMat b (fun x => { x with fa := f, fb := g })
  | .mldt k t n l =>
    (List.range (n.toNat + 1)).foldl (fun s' q =>
      s'.onRegs b (fun r => r.writeT (k.toNat + q) { bits := s.tileLoad b d l.toNat q, tag := t })) s
  | .msta e j t k o r =>
    let (s', g) := s.storeRows b d (B.r.readA k.toNat) t.toNat r.toNat (decide (o = 1)) s.freeCtr c.n (List.range c.m)
    (({ s' with freeCtr := s'.freeCtr + 16384 } : State).matFlags b c.walk g).flagUp b e j
  | .mchk e j i clr =>
    let s := s.winWrite b d.rho d.base B.mat.record
    let s := s.onMat b (fun x =>
      let x := if clr = 1 then { x with steps := 0, rfail := 0, suspect := 0, last := BitVec.allOnes 64 } else x
      if i = 1 then { x with inject := true } else x)
    s.flagUp b e j
  | .mmov k a => s.onRegs b (fun q => q.writeT k.toNat (q.readT a.toNat))
  | .mmovFmt x t k o r =>
    let (v, g) := (B.r.readA k.toNat).toTile t.toNat r.toNat (decide (o = 1)) s.freeCtr
    (({ s with freeCtr := s.freeCtr + 16384 } : State).onRegs b (fun q =>
      q.writeT x.toNat { bits := BitVec.ofNat 131072 v, tag := t })).matFlags b c.walk g
  | .mscl x =>
    let rows := s.scaleRows b d
    s.onMat b (fun y => if x = 1 then { y with sb := rows } else { y with sa := rows })
  | .msclOne x => s.onMat b (fun y => if x = 1 then { y with sb := [] } else { y with sa := [] })
  | _ => s

/-! ### Commands begin and complete (R128) -/

/-- The head of a bank's window may begin (R128, R123, R133, R345, R148): the bank has no unanswered fault,
the range checker releases the command, every earlier `vacc` of what it writes has read, earlier acquire fences let its accesses be made (R192), and no step of
the core's other bank is in progress. -/
def State.matMayBegin (s : State) (b : Nat) (c : MatWin) : Bool :=
  let B := s.bank b
  let other := (s.bank (mate b)).mat.window
  ! c.begun && ! B.out.out && decide (B.status = .live ∨ B.status = .stopped) &&
    B.out.faults.isEmpty && s.released b c.walk c.id c.ranges && ! B.accHeld c && ! other.any (·.begun) &&
    (c.ranges.isEmpty || s.acquireFencesLet b c.walk) && s.engineFree b .m

/-- MATRIX_COMMAND_BEGIN (R128): the oldest command of bank `input.who`. -/
def execMatrixCommandBegin (s : State) : Outcome State Fault Refusal :=
  let b := s.input.who
  .next (match (s.bank b).mat.window with
    | [] => s
    | c :: rest =>
      if s.matMayBegin b c then
        (s.onMat b (fun x => { x with window := { c with begun := true } :: rest })).updBank b (·.beginNow .m)
      else s)

/-- An `mma` fails its check twice (R114): neither it nor a later MAT word has had an effect; descriptors go back to
mq. -/
def Bank.failMat (B : Bank) (c : MatWin) : Bank :=
  let q := { B.q with mq := B.mat.window.flatMap (·.descs) ++ B.q.mq }
  ({ B with mat := { B.mat with window := [] }, q := q }.lateTrap .m c.walk c.mark).moved

/-- The word is a matrix step, which is checked (R113). -/
def isMma : Instr → Bool
  | .mma .. => true
  | _ => false

/-- MATRIX_COMMAND_COMPLETE (R358, R128): the command of bank `input.who` that has begun has its effect and leaves
the window; `input.check` says how a step's residue check and its one re-execution go (R114). -/
def execMatrixCommandComplete (s : State) : Outcome State Fault Refusal :=
  let b := s.input.who
  .next (match (s.bank b).mat.window with
    | [] => s
    | c :: rest =>
      if ! c.begun then s
      else
        let suspect := s.isSuspect b c.id
        let t := (s.unsuspect b c.id).updBank b (·.onNow (fun a => { a with ran := true }))
        if isMma c.instr && decide (s.input.check = .fail) then t.setBank b ((t.bank b).failMat c)
        else ((t.matEffect b c suspect (decide (s.input.check ≠ .pass))).onMat b
          (fun x => { x with window := rest })).updBank b (·.moved))

end Sys2Proof.Machine
end

