-- ==== Sys2Proof/Machine/Slots.lean ====
section
/-! DEFINITION. Ring slot tables (R101-R104), memory-port slot tables (R105, R106), quad modes (R19), and jobs
that are ended at E (R83). -/

namespace Sys2Proof.Machine

open Sys2Proof Host

/-! ### Ring slot tables (R103, R104) -/

/-- A station code as it acts: 176-254 act as 255 (R101). -/
def station (n : Nat) : Nat := if 176 ≤ n then 255 else n

/-- The offset of the register that holds a ring position. -/
def ringReg (die ring pos : Nat) : Nat := offRSLOT die ring (pos / 8)

/-- The owner that the table names for a ring position. -/
def State.ringEntry (s : State) (die ring pos : Nat) : Nat :=
  bitsOf (s.hubReg (ringReg die ring pos)) (8 * (pos % 8) + 7) (8 * (pos % 8))

/-- The owner of a ring position in force. -/
def State.ringOwner (s : State) (die ring pos : Nat) : Nat :=
  KV.get 255 s.svc.ring (65536 * die + 256 * ring + pos)

/-- Sets an entry of the table; it takes effect at the next frame boundary. -/
def State.setRing (s : State) (die ring pos own : Nat) : State :=
  let r := ringReg die ring pos
  let s := s.setHub r (putBits (s.hubReg r) (8 * (pos % 8) + 7) (8 * (pos % 8)) own)
  { s with svc := { s.svc with ringNext := s.svc.ringNext ++ [(65536 * die + 256 * ring + pos, own)] } }

/-- Sets an entry on all eight rings. -/
def State.setRings (s : State) (die pos own : Nat) : State :=
  (List.range 8).foldl (fun s ring => s.setRing die ring pos own) s

/-- RSLOT_WRITE (R103): the register at offset `input.sub` takes `input.value`, from the next frame
boundary. -/
def execRslotWrite (s : State) : Outcome State Fault Refusal :=
  let o := s.input.sub - 0x8000000
  let v := s.input.value.toNat
  .next ((List.range 8).foldl (fun s i =>
    s.setRing (o / 0x1000) (o % 0x1000 / 0x100) (o % 0x100 + i) (station (bitsOf v (8 * i + 7) (8 * i)))) s)

/-- The positions that a core owns on every ring, by the table. -/
def State.ownedBy (s : State) (core : Nat) : List Nat :=
  (List.range 256).filter (fun p => (List.range 8).all (fun r =>
    decide (s.ringEntry (core / 128) r p = core % 128)))

/-- The positions that are unowned on all eight rings. -/
def State.unownedOn (s : State) (die : Nat) : List Nat :=
  (List.range 256).filter (fun p => (List.range 8).all (fun r => decide (s.ringEntry die r p = 255)))

/-- The share of a core: the largest rshare among the tenants of its live banks (R104). -/
def State.shareOf (s : State) (core : Nat) : Nat :=
  ([2 * core, 2 * core + 1].map (fun b =>
    match (s.bank b).status with
    | .idle => 0
    | .ended => 0
    | .scrubbing => 0
    | .system => 0
    | _ => Nat.min 8 (bitsOf (s.hubReg (offADMVI (s.bank b).place.vi)) 3 0))).foldl Nat.max 0

/-- Gives a core what it lacks; what cannot be given stays a shortfall. -/
def State.giveRing (s : State) (core : Nat) : State :=
  let need := s.shareOf core - (s.ownedBy core).length
  let got := (s.unownedOn (core / 128)).take need
  let s := got.foldl (fun s p => s.setRings (core / 128) p (core % 128)) s
  let rest := s.svc.shortfalls.filter (· ≠ core)
  let queue := if got.length < need then
      (if s.svc.shortfalls.contains core then s.svc.shortfalls else s.svc.shortfalls ++ [core])
    else rest
  { s with svc := { s.svc with shortfalls := queue } }

/-- Fills the shortfalls of a die in the order in which they arose. -/
def State.fillShortfalls (s : State) (die : Nat) : State :=
  (s.svc.shortfalls.filter (fun c => decide (c / 128 = die))).foldl (fun s c => s.giveRing c) s

/-- SLOT_ALLOCATOR_REQUEST (R104): the needs of core `input.who` have changed: it is given positions, or
returns those above its share. -/
def execSlotAllocatorRequest (s : State) : Outcome State Fault Refusal :=
  let core := s.input.who
  let own := s.ownedBy core
  let share := s.shareOf core
  .next (if own.length ≤ share then s.giveRing core
    else ((own.drop share).foldl (fun s p => s.setRings (core / 128) p 255) s).fillShortfalls (core / 128))

/-- FRAME_BOUNDARY (R103): the changes of die `input.who` that wait take effect together;
positions that are unowned then fill shortfalls (R104). -/
def execFrameBoundary (s : State) : Outcome State Fault Refusal :=
  let die := s.input.who
  let mine := fun (x : Nat × Nat) => decide (x.1 / 65536 = die)
  let now := s.svc.ringNext.filter mine
  let later := s.svc.ringNext.filter (fun x => ! mine x)
  let s := { s with svc := { s.svc with ring := KV.putAll s.svc.ring now, ringNext := later } }
  .next (s.fillShortfalls die)

/-! ### Memory-port slot tables (R105, R106) -/

/-- Entry `i` of a die's table: valid and interface. -/
def State.portEntry (s : State) (die i : Nat) : Nat :=
  bitsOf (s.hubReg (offMPTAB die (i / 4))) (16 * (i % 4) + 8) (16 * (i % 4))

/-- MPTAB_WRITE (R106): the register at offset `input.sub` takes `input.value`; rounds under way keep the old
entries. -/
def execMptabWrite (s : State) : Outcome State Fault Refusal :=
  .next (s.setHub s.input.sub (s.input.value.toNat &&& 0x01FF01FF01FF01FF))

/-- A round begins at a port: it takes the entries as they stand. -/
def State.beginRound (s : State) (port : Nat) : State :=
  let es := (List.range 64).map (fun i => (64 * port + i, s.portEntry (port / 16) i))
  { s with svc := { s.svc with table := KV.putAll s.svc.table es } }

/-- The access that a port slot serves: the oldest of the tenant that its entry names, else the oldest. -/
def portPick (entry : Nat) (q : List PortReq) : Option PortReq :=
  match (if bitAt entry 8 then q.find? (fun r => decide (r.tenant = entry % 256)) else none) with
  | some r => some r
  | none => q.head?

/-- A channel of a die has a bank above 105 degrees (R116). -/
def State.hotChannel (s : State) (die channel : Nat) : Bool :=
  s.power.temps.any (fun t => decide (t.1 / 64 = 64 * die + channel ∧ 105 < t.2))

/-- The accesses that a port slot may serve: a channel above 105 degrees serves in half of its slots, here the even
ones of a round (R116; log entry 104). -/
def State.servable (s : State) (port i : Nat) (q : List PortReq) : List PortReq :=
  q.filter (fun r => decide (i % 2 = 0) || ! s.hotChannel (port / 16) r.channel)

/-- PORT_SLOT (R105): the next slot of port `input.who` (16 die + port) serves one access; `input.third` is 1
where the slot is lost to refresh, calibration or retry. -/
def execPortSlot (s : State) : Outcome State Fault Refusal :=
  let port := s.input.who
  let i := KV.get 0 s.svc.slot port
  let s := if i = 0 then s.beginRound port else s
  let q := KV.get [] s.svc.ports port
  let q := if s.input.third = 1 then q
    else match portPick (KV.get 0 s.svc.table (64 * port + i)) (s.servable port i q) with
      | some r => q.erase r
      | none => q
  let slot := KV.put s.svc.slot port ((i + 1) % 64)
  let ports := KV.put s.svc.ports port q
  .next { s with svc := { s.svc with slot := slot, ports := ports } }

/-! ### Quad modes (R19) -/

/-- The new mode of a quad: a reserved code, or one that the degraded map forbids, keeps the old one. -/
def State.quadNew (s : State) (old new : Nat) : Nat :=
  if new = 3 ∨ (s.degraded = true ∧ new ≠ 2) then old else new

/-- The value that a QMODE register takes. -/
def State.qmodeValue (s : State) (old v : Nat) : Nat :=
  ((List.range 16).map (fun i =>
    s.quadNew (bitsOf old (2 * i + 1) (2 * i)) (bitsOf v (2 * i + 1) (2 * i)) * 2 ^ (2 * i))).foldl (· + ·) 0

/-- The quad of a byte is one of register `n`, and its mode changes. -/
def modeMoves (n old new pa : Nat) : Bool :=
  let i := pa / 2 ^ 32 % 16
  decide (pa < packageEnd ∧ pa / 2 ^ 32 / 16 = n ∧
    bitsOf old (2 * i + 1) (2 * i) ≠ bitsOf new (2 * i + 1) (2 * i))

/-- An access in flight reaches a quad whose mode a write changes: a service job's read that a memory port has not
served among them. -/
def State.quadBusy (s : State) (n old new : Nat) : Bool :=
  let hit := modeMoves n old new
  s.writes.any (fun w => ! w.scr && ! w.bytes.isEmpty && hit w.addr) || s.fab.inbox.any (fun q => hit q.pa) ||
    s.banks.any (fun b => b.2.out.acc.any (fun a => ! a.scr && ! a.remote && a.lanes.any hit) ||
      b.2.out.scop.any (fun r => hit r.pa) ||
      b.2.xfer.window.any (fun c => c.flight.any (fun f => f.src.any hit || f.dst.any hit) ||
        c.count.any (fun x => hit x.2))) ||
    s.svc.inst.any (fun x => x.2.jobs.any (fun j => j.work.read.isSome && j.work.lines.any hit)) ||
    s.parcels.deliveries.any (fun d => d.read.any (fun x => hit x.2) || d.queue.any (fun x => hit x.2.1)) ||
    s.chanter.groups.any (fun g => g.2.reading.any (fun x => hit x.2)) ||
    s.host.vis.any (fun x => match x.2.waits with | .reading _ spans :: _ => spans.any (fun y => hit y.1) | _ => false)

/-- The offset within its quad of the byte that a mode puts at die-local address `l` of a die: the inverse of R17. -/
def quadOffset (mode die l : Nat) : Nat :=
  if mode = 0 then
    let o := bitsOf l 29 12 * 2 ^ 14 + bitsOf l 11 0
    o + (die ^^^ hashPairs o) * 4096
  else if mode = 1 then
    let o := die / 2 * 2 ^ 31 + bitsOf l 29 12 * 2 ^ 13 + bitsOf l 11 0
    o + (die % 2 ^^^ hashBits o) * 4096
  else die * 2 ^ 30 + bitsOf l 29 0

/-- The physical address at which the byte of `pa` is seen once its quad has its new mode. -/
def movedTo (old new pa : Nat) : Nat :=
  let i := pa / 2 ^ 32 % 16
  let (d, dla) := dieLocal (bitsOf old (2 * i + 1) (2 * i)) pa
  pa / 2 ^ 32 * 2 ^ 32 + quadOffset (bitsOf new (2 * i + 1) (2 * i)) d (dla % 2 ^ 30)

/-- Memory as it is seen once quads have changed their modes: no data moves, and each byte is at the address that the
new mode gives it (R19). -/
def Memory.remode (m : Memory) (n old new : Nat) : Memory :=
  (m.filter (fun c => modeMoves n old new c.1)).foldl (fun t c => t.write (movedTo old new c.1) c.2)
    (m.filter (fun c => ! modeMoves n old new c.1))

/-- A write of QMODE completes, field by field. -/
def State.setModes (s : State) (n v : Nat) : State :=
  let old := s.hubReg (offQMODE n)
  let new := s.qmodeValue old v
  { s.setHub (offQMODE n) new with mem := s.mem.remode n old new }

/-- The writes of QMODE that wait are completed in the order in which they were made, up to one whose quads accesses in
flight still reach, which its event looks at again. -/
def State.completeModes (s : State) : List (Nat × Nat) → State
  | [] => { s with svc := { s.svc with modes := [] } }
  | (n, v) :: rest =>
    if s.quadBusy n (s.hubReg (offQMODE n)) (s.qmodeValue (s.hubReg (offQMODE n)) v) then
      ({ s with svc := { s.svc with modes := (n, v) :: rest } } : State).schedule .qmodeWrite
        { Input.none with who := n, ok := true }
    else (s.setModes n v).completeModes rest

/-- QMODE_WRITE (R19): register `input.who` takes `input.value`, field by field, once the accesses in flight to
the quads that change are complete; until then the write waits, and later ones behind it (`input.ok` says that the event
brings no new write). -/
def execQmodeWrite (s : State) : Outcome State Fault Refusal :=
  .next (s.completeModes (s.svc.modes ++ (if s.input.ok then [] else [(s.input.who, s.input.value.toNat)])))

/-! ### Jobs ended at E (R83) -/

/-- The launch that a job of the Chanter stands for. -/
def State.launchOf (s : State) (j : Job) : Option Launch := s.chanter.queue.find? (fun l => l.job = j.number)

/-- Ends a job at E as its service lays down. -/
def State.endAtE (s : State) (key : Nat) (j : Job) : State :=
  match entryKind key with
  | 5 =>
    (match s.receiving (fun d => decide (d.job = j.number ∧ instPRU d.die = key)) with
     | some d => s.bounce d
     | none => s.setInst key ((s.inst key).dropJob j.number))
  | 6 => (match j.asker with | .bank b => s.endRegion b true | _ => s)
  | 7 =>
    (match s.launchOf j with
     | some l => (s.leaveChanter l).tellLaunch l false 7
     | none => s.setInst key ((s.inst key).dropJob j.number))
  | _ =>
    let j := if j.ending = 0 then { j with ending := 2, fault := none, denied := false } else j
    s.setInst key (((s.inst key).putJob j).vacate j.number)

/-- SERVICE_E_EXPIRY (R83): the first job of instance `input.who` that has run for E is ended, and its place
freed. -/
def execServiceEExpiry (s : State) : Outcome State Fault Refusal :=
  let key := s.input.who
  .next (match (s.inst key).jobs.find? (fun j =>
      (j.occupies || decide (j.ending = 0 ∧ entryKind key ≤ 4)) && s.jobOverdue key j) with
    | none => s
    | some j => s.endAtE key j)

end Sys2Proof.Machine
end

