-- ==== Sys2Proof/Machine/Power.lean ====
section
/-! DEFINITION. Power and refresh (chapter 07): the cluster controller (R109, R110), droops (R113), the
registers (R115) and the free bitmap and refresh (R116, R117). -/

namespace Sys2Proof.Machine

open Sys2Proof Host

/-! ### Clusters -/

/-- Changes a field of a cluster's PCLUS. -/
def State.putPclus (s : State) (cl hi lo v : Nat) : State :=
  s.setHub (offPCLUS cl) (putBits (s.hubReg (offPCLUS cl)) hi lo v)

/-- The present step code of a cluster. -/
def State.stepCode (s : State) (cl : Nat) : Nat := Nat.min 18 (bitsOf (s.hubReg (offPCLUS cl)) 29 25)

/-- The voltage of a step code in whole mV (R107). -/
def voltOf (n : Nat) : Nat := 550 + (100 * n + 3) / 6

/-- The trim of a cluster in mV. -/
def State.trim (s : State) (cl : Nat) : Int :=
  let t := bitsOf (s.hubReg (offPCLUS cl)) 19 12
  if t < 128 then (t : Int) else (t : Int) - 256

/-- A cluster asks its regulator for the voltage of a step code: the target in mV, or a refusal (R107). -/
def State.voltTarget (s : State) (cl n : Nat) : Option Nat :=
  let v := (voltOf n : Int) + s.trim cl
  if v < 550 ∨ 850 < v then none else some v.toNat

/-- A step has ended: the next sample window starts. -/
def State.stepEnded (s : State) (cl : Nat) : State :=
  s.updCluster cl (fun c => { c with ctl := .steady, stopped := false, stopping := false, since := s.time, stalled := 0, live := 0 })

/-- A request of a voltage target in a state: it settles, or is refused and counted (R110). -/
def State.askVolt (s : State) (cl n : Nat) (ctl : CtlState) : State :=
  match s.voltTarget cl n with
  | some v => s.updCluster cl (fun c => { c with ctl := ctl, stopped := false, stopping := false, stepAt := s.time, target := v })
  | none => (s.putPclus cl 51 40 (Nat.min 4095 (bitsOf (s.hubReg (offPCLUS cl)) 51 40 + 1))).stepEnded cl

/-- A frequency step begins: the clock stops once the ac in progress has run its full period (R108). -/
def State.startFreq (s : State) (cl : Nat) (ctl : CtlState) : State :=
  s.updCluster cl (fun c => { c with ctl := ctl, stopped := decide (c.frac = 0), stopping := decide (c.frac ≠ 0),
                                     stepAt := s.time })

/-- The effective cap of a cluster in MHz: PCLUS.fmax and the fmax of every region held there (R109). -/
def State.fcap (s : State) (cl : Nat) : Nat :=
  (s.inst instBellows).jobs.foldl (fun m j =>
    match j.asker with
    | .bank b => if clusterOf b = cl then Nat.min m j.fmax else m
    | _ => m) (s.fmaxOf cl)

/-- The stall ratio of a sample (R109, R379). -/
def Cluster.ratio (c : Cluster) : Nat := if c.live = 0 then 256 else c.stalled * 256 / c.live

/-- What a sample decides. -/
inductive PowerMove where
  | lower
  | stay
  | raise
deriving DecidableEq, Repr

/-- The decision of a sample (R109). -/
def State.powerMove (s : State) (cl : Nat) : PowerMove :=
  let f := s.mhz cl
  let cap := s.fcap cl
  let r := (s.cluster cl).ratio
  let cfg := s.hubReg offPWRCFG
  if cap < f then .lower
  else if ! bitAt (s.hubReg (offPCLUS cl)) 0 then .stay
  else if bitsOf cfg 31 24 ≤ r ∧ 300 < f then .lower
  else if r ≤ bitsOf cfg 23 16 ∧ f < cap then .raise
  else .stay

/-- POWER_SAMPLE (R109, R110): 10 us after its window began, the sample of cluster `input.who` is decided; one
that falls within a step is discarded. -/
def execPowerSample (s : State) : Outcome State Fault Refusal :=
  let cl := s.input.who
  let c := s.cluster cl
  .next (
    if c.ctl ≠ .steady ∨ s.time - c.since < 10000000 then s
    else match s.powerMove cl with
      | .lower => s.startFreq cl .fdn
      | .raise => s.askVolt cl (s.stepCode cl + 1) .vup
      | .stay => s.stepEnded cl)

/-- VOLTAGE_STEP_DONE (R108, R110): the voltage of cluster `input.who` has settled, 2 us after its request. -/
def execVoltageStepDone (s : State) : Outcome State Fault Refusal :=
  let cl := s.input.who
  let c := s.cluster cl
  .next (
    if s.time - c.stepAt < 2000000 then s
    else match c.ctl with
      | .vup => (s.putPclus cl 39 30 c.target).startFreq cl .fup
      | .vdn => (s.putPclus cl 39 30 c.target).stepEnded cl
      | _ => s)

/-- FREQUENCY_STEP_DONE (R108, R110): the loop of cluster `input.who`, whose clock stands, has relocked. -/
def execFrequencyStepDone (s : State) : Outcome State Fault Refusal :=
  let cl := s.input.who
  .next (if ! (s.cluster cl).stopped then s else match (s.cluster cl).ctl with
    | .fup => (s.putPclus cl 29 25 (s.stepCode cl + 1)).stepEnded cl
    | .fdn =>
      let s := s.putPclus cl 29 25 (s.stepCode cl - 1)
      s.askVolt cl (s.stepCode cl) .vdn
    | _ => s)

/-! ### Droops (R113) -/

/-- The matrix steps and vector operations of a cluster in flight. -/
def State.inFlight (s : State) (cl : Nat) : List (Nat × Nat) :=
  ((List.range 16).map (fun i => 16 * cl + i)).flatMap (fun b =>
    ((s.bank b).vec.map (fun j => (b, j.id))) ++
      (((s.bank b).mat.window.filter (·.begun)).map (fun c => (b, c.id))))

/-- DROOP (R113): in cluster `input.who`. -/
def execDroop (s : State) : Outcome State Fault Refusal :=
  let cl := s.input.who
  let c := s.cluster cl
  let s := s.putPclus cl 63 52 (Nat.min 4095 (bitsOf (s.hubReg (offPCLUS cl)) 63 52 + 1))
  let start := ! c.stretched && decide (c.quiet = 0)
  .next (s.updCluster cl (fun c => { c with
    stretched := c.stretched || start
    stretch := if start then 128 else c.stretch
    suspect := s.inFlight cl }))

/-- STRETCH_END (R113): the 128 stretched ac of cluster `input.who` have passed. -/
def execStretchEnd (s : State) : Outcome State Fault Refusal :=
  let cl := s.input.who
  .next (s.updCluster cl (fun c =>
    if c.stretched && decide (c.stretch = 0) then { c with stretched := false, quiet := 1024 } else c))

/-! ### Registers (R115) -/

/-- PCLUS_WRITE (R115): cluster `input.who` takes fmax, trim and auto from `input.value`. -/
def execPclusWrite (s : State) : Outcome State Fault Refusal :=
  let r := offPCLUS s.input.who
  .next (s.setHub r ((s.input.value.toNat &&& 0x1FFF001) ||| (s.hubReg r &&& (2 ^ 64 - 1 - 0x1FFF001))))

/-- PWRCFG_WRITE (R115): a value with lo at or above hi is refused whole. -/
def execPwrcfgWrite (s : State) : Outcome State Fault Refusal :=
  let v := s.input.value.toNat
  .next (if bitsOf v 31 24 ≤ bitsOf v 23 16 then s else s.setHub offPWRCFG (v &&& 0xFFFF0000))

/-! ### Free granules and refresh (R116, R117) -/

/-- REFCFG_SYNC (R117): REFCFG of die `input.who` takes `input.value`; with sync the channels start to load the
bitmap, and sync reads 1 until they have. -/
def execRefcfgSync (s : State) : Outcome State Fault Refusal :=
  let d := s.input.who
  let v := s.input.value.toNat
  let on := bitAt v 1 || KV.get false s.power.loading d
  let s := s.setHub (offREFCFG d) (putBits (v &&& 0x000FFFFFFFE00001) 1 1 (if on then 1 else 0))
  .next { s with power := { s.power with loading := KV.put s.power.loading d on } }

/-- Bit `i` of a die's bitmap. -/
def State.freeBit (s : State) (d i : Nat) : Bool :=
  bitAt (s.mem.read (bitsOf (s.hubReg (offREFCFG d)) 51 21 * 2 ^ 21 + i / 8)).toNat (i % 8)

/-- The granule of a die's channels that holds a byte. -/
def State.granuleAt (s : State) (pa : Nat) : Nat × Nat :=
  let (d, dla) := dieLocal (s.quadMode (pa / 2 ^ 32)) pa
  (d, dla / 2 ^ 21)

/-- A byte lies in a granule of a die that returns to use with a load of its bitmap. -/
def State.returns (s : State) (d pa : Nat) : Bool :=
  decide (pa < packageEnd) && decide ((s.granuleAt pa).1 = d) &&
    KV.get false s.power.free (d * 2 ^ 18 + (s.granuleAt pa).2) && ! s.freeBit d (s.granuleAt pa).2

/-- The writes in flight to granules of a die that return to use are lost (R117): nothing of them is read there. -/
def State.loseReturning (s : State) (d : Nat) : State :=
  ((s.writes.filter (fun w => ! w.scr && ! w.bytes.isEmpty && s.returns d w.addr)).foldl (fun s w => s.writeLost w)
    s).settleAnswers

/-- BITMAP_LOADED (R117): the channels of die `input.who` have loaded the bitmap; granules that are free no
more hold zeros, and sync reads 0. -/
def execBitmapLoaded (s : State) : Outcome State Fault Refusal :=
  let d := s.input.who
  .next (
    if ! KV.get false s.power.loading d then s
    else
      let s := s.loseReturning d
      let free := ((List.range 196608).filter (s.freeBit d)).map (fun i => (d * 2 ^ 18 + i, true))
      let mem := s.mem.filter (fun c => ! s.returns d c.1)
      let others := s.power.free.filter (fun x => decide (x.1 / 2 ^ 18 ≠ d))
      let s := s.setHub (offREFCFG d) (putBits (s.hubReg (offREFCFG d)) 1 1 0)
      { s with mem := mem
               power := { s.power with free := KV.putAll others free
                                       loading := KV.put s.power.loading d false } })

/-- The refresh interval of a channel's bank by its temperature (R116). -/
def State.refreshInterval (s : State) (key : Nat) : Nat :=
  let t := KV.get 25 s.power.temps key
  if t ≤ 85 then Config.refreshBase else if t ≤ 95 then Config.refreshBase / 2 else Config.refreshBase / 4

/-- Every row of a channel's bank lies in granules that have been declared free (R117). -/
def State.rowsFree (s : State) (key : Nat) : Bool :=
  (Config.bankGranules key).all (fun g => KV.get false s.power.free (key / 4096 * 2 ^ 18 + g))

/-- REFRESH (R116): the interval of bank `input.who` (4096 die + 64 channel + bank) has passed, and it is
refreshed; with REFCFG.skip, not where every row of it lies in free granules. Which granules those of a bank are the
spec does not give (log entry 105). -/
def execRefresh (s : State) : Outcome State Fault Refusal :=
  let key := s.input.who
  .next (
    if s.time - KV.get 0 s.power.refreshed key < s.refreshInterval key then s
    else if bitAt (s.hubReg (offREFCFG (key / 4096))) 0 && s.rowsFree key then s
    else { s with power := { s.power with refreshed := KV.put s.power.refreshed key s.time } })

/-- TEMPERATURE_EVENT (R116): bank `input.who` reads `input.celsius`; above 105 degrees its channel interrupts
the system cores, and serves half its port slots. -/
def execTemperatureEvent (s : State) : Outcome State Fault Refusal :=
  let key := s.input.who
  let old := KV.get 25 s.power.temps key
  let s := { s with power := { s.power with temps := KV.put s.power.temps key s.input.celsius } }
  .next (if old ≤ 105 ∧ 105 < s.input.celsius then s.irq 3 else s)

end Sys2Proof.Machine
end

