-- ==== Sys2Proof/Machine/Transfer.lean ====
section
/-! DEFINITION. The transfer words (R364-R367, R372) and the transfer engine: granules start, are translated, move
their bytes and complete (R149, R368, R369), and a command completes (R370, R371). -/

namespace Sys2Proof.Machine

open Sys2Proof Host

/-! ### The words -/

/-- Changes the transfer state of a bank. -/
def State.onXfer (s : State) (b : Nat) (f : XferState → XferState) : State :=
  s.updBank b (fun B => { B with xfer := f B.xfer })

/-- An XFR word: the transfer strand executes it, every other strand skips it (R118); `note` is what the control
strand notes as it passes. On a system core it raises ILLEGAL (R290). -/
def xferStep (i : Instr) (note : Bank → Bank) (body : Nat → State → Res) (s : State) : State :=
  let b := s.cur.bank
  if isSys b then finish b s.cur.strand s (.trap cIllegal (wordVal i))
  else match s.cur.strand with
    | .x => finish b .x s (if i.legal then body b s else .trap cIllegal (wordVal i))
    | .c => s.updBank b (fun B => (note B).glide .c)
    | e => skip b e s

/-- The outcome of an XFR word. -/
def xferWord (i : Instr) (note : Bank → Bank) (body : Nat → State → Res) (s : State) :
    Outcome State Fault Refusal :=
  .next (xferStep i note body s)

/-- Sets staging field `k`. -/
def Staging.put (t : Staging) (k : Nat) (x : Word) : Staging :=
  match k with
  | 0 => { t with src := x }
  | 1 => { t with dst := x }
  | 2 => { t with shape := x }
  | 3 => { t with pitch := x }
  | 4 => { t with layout := x }
  | _ => { t with ctr := x }

/-- Sets staging fields from `k` on. -/
def Staging.fill (t : Staging) : Nat → List Word → Staging
  | _, [] => t
  | k, x :: rest => (t.put k x).fill (k + 1) rest

/-- The transfer strand at `xset`: it stalls until xq holds enough, then pops them. -/
def xsetBody (d n : Nat) (b : Nat) (s : State) : Res :=
  if (s.bank b).poppable qcXq (s.bank b).q.xq.length < n then .stall .queue
  else .done (s.updBank b (fun B =>
    { B with q := { B.q with xq := B.q.xq.drop n },
             xfer := { B.xfer with staging := B.xfer.staging.fill d (B.q.xq.take n) } }.notePop qcXq n))

/-- `xset` (R365). -/
def execXset (d : BitVec 6) (c : BitVec 3) (s : State) :=
  xferWord (.xset d c) id (xsetBody d.toNat (c.toNat + 1)) s

/-- `xclr` (R372): every staging field is zero. -/
def execXclr (s : State) :=
  xferWord .xclr id (fun b s => .done (s.onXfer b (fun x => { x with staging := XferState.start.staging }))) s

/-- `xclr.drop` (R372): every command that holds a progress record is abandoned; one with granules in flight leaves
when they are complete. -/
def execXclrDrop (s : State) :=
  xferWord .xclrDrop id (fun b s => .done (s.onXfer b (fun x =>
    let drop := fun (c : XferWin) => if c.record then { c with dropped := true, held := false } else c
    { x with window := (x.window.map drop).filter (fun c => ! c.dropped || ! c.flight.isEmpty) }))) s

/-- The control strand notes an `xgo` with an acquire half that it passes (R371); notes that hold nothing back any
more go. -/
def Bank.noteAcquire (B : Bank) (next : Nat) : Bank :=
  if ! B.trap.handler && hasAcquire (B.annot .c).ord then
    B.onOut (fun o => { o with xacq := o.xacq.filter (fun x => ! B.xferRead x.1) ++ [(B.wc.walk, next)] })
  else B

/-- Commands in a bank's transfer window that count for its depth. -/
def Bank.xferDepth (B : Bank) : Nat := (B.xfer.window.filter (fun c => ! c.dropped)).length

/-- The command of an `xgo` that issues. -/
def Bank.xferCommand (B : Bank) (id : Nat) (an : Annot) (flag : Option Nat) (dir : Nat) : XferWin :=
  { id := id, walk := B.wx.walk, st := B.xfer.staging, flag := flag, dir := dir, ord := an.ord, scope := an.scope, policy := an.cache,
    ranges := B.xfer.staging.ranges dir, flight := [], gidx := 0, mask := 0, record := false, held := false,
    dropped := false, count := none }

/-- The transfer strand at `xgo` (R366): the checks in order, then the window. -/
def xgoBody (i : Instr) (flag : Option Nat) (dir : Nat) (b : Nat) (s : State) : Res :=
  let B := s.bank b
  let an := B.annot .x
  if 2 ≤ an.space ∨ B.xfer.staging.ok dir = false then .trap cIllegal (wordVal i)
  else match B.firstInvalid (B.xfer.staging.ranges dir) with
    | some a => .trap cScratchBounds (BitVec.ofNat 64 a)
    | none =>
      if windowDepth ≤ B.xferDepth then .stall .window
      else
        let c := B.xferCommand s.nextId an flag dir
        .done (({ s with nextId := s.nextId + 1 } : State).onXfer b (fun x => { x with window := x.window ++ [c] }))

/-- `xgo` (R366): `e` and `j` name the flag that rises, `r` the direction. -/
def execXgo (e : BitVec 1) (j : BitVec 4) (r : BitVec 2) (s : State) :=
  xferWord (.xgo e j r) (fun B => B.noteAcquire s.nextId)
    (xgoBody (.xgo e j r) (if e = 1 then some j.toNat else none) r.toNat) s

/-! ### Commands in the window -/

/-- A command of a bank by its walk index. -/
def State.xferAt (s : State) (b walk : Nat) : Option XferWin := (s.bank b).xfer.window.find? (fun c => c.walk = walk)

/-- Replaces a command; one that is abandoned and has nothing in flight leaves. -/
def State.putCommand (s : State) (b : Nat) (c : XferWin) : State :=
  (s.onXfer b (fun x =>
    let put := fun (d : XferWin) => if d.walk = c.walk then c else d
    { x with window := (x.window.map put).filter (fun d => ! d.dropped || ! d.flight.isEmpty) })).updBank b (·.moved)

/-- A granule of a command, or its counter, raises a deferred trap: the command keeps its entry and its progress
record and is held back (R166, R369); of an abandoned one nothing is left to do. -/
def State.xferTrap (s : State) (b : Nat) (c : XferWin) (code va : Nat) : State :=
  let s := s.putCommand b c
  if c.dropped then s
  else s.updBank b (fun B => (B.holdCommand c.walk).raiseDeferred code (BitVec.ofNat 64 va))

/-- A granule, or the counter, meets a local fault: it is collected, and the bank drains (R147, R148). -/
def State.xferFault (s : State) (b : Nat) (c : XferWin) (va : Nat) (k : FaultKind) : State :=
  let s := s.putCommand b c
  if c.dropped then s else s.localFault b (some c.walk) va k

/-! ### Translation (R369) -/

/-- What the checks of one global side come to. -/
inductive Side where
  | ok (pa : Nat)
  | fault (k : FaultKind)
  | trap (code tval : Nat)
deriving DecidableEq, Repr

/-- The checks of one global side of a granule of `n` bytes, or of the counter. -/
def State.xferSide (s : State) (b va n : Nat) (kind : AccKind) : State × Side :=
  let vi := (s.bank b).place.vi
  if 2 ^ 57 ≤ va then (s, .trap cAccess va)
  else
    let (s, x) := s.translate (some b) true vi va kind
    match x with
    | .fault k => (s, .fault k)
    | .remote .. => (s, .trap cAccess va)
    | .transit => (s, .trap cParcelGone va)
    | .phys pa m =>
      if m = 4 ∧ s.parcelOpen vi va = false then (s, .trap cParcelGone va)
      else if kind = .read then (s, .ok pa)
      else match s.headerHit vi va n with
        | some h => (s, .trap cRefForm h)
        | none => (s, .ok pa)

/-- A granule in flight with its global sides translated. -/
def XferWin.setFlight (c : XferWin) (f : Flight) : XferWin :=
  { c with flight := c.flight.map (fun h => if h.g = f.g then f else h) }

/-- Translates the source and the destination of a granule before any of its bytes moves (R149): source `va` of
`n` bytes and destination `wa`. Its read queues at a memory port (R105). -/
def State.granuleXlat (s : State) (b : Nat) (c : XferWin) (f : Flight) (va wa n : Nat) : State :=
  let vi := (s.bank b).place.vi
  let (s, src) := if globalSrc c.dir then s.xferSide b va n .read else (s, .ok 0)
  match src with
  | .trap code t => s.xferTrap b (c.returns f.g) code t
  | .fault k => s.xferFault b (c.returns f.g) va k
  | .ok pa =>
    let (s, dst) := if globalDst c.dir then s.xferSide b wa n .write else (s, .ok 0)
    match dst with
    | .trap code t => s.xferTrap b (c.returns f.g) code t
    | .fault k => s.xferFault b (c.returns f.g) wa k
    | .ok qa =>
      let s := s.putCommand b (c.setFlight { f with
        src := if globalSrc c.dir then some pa else none
        dst := if globalDst c.dir then some qa else none
        ready := true })
      if globalSrc c.dir then s.enqueue vi f.id pa else s

/-- Translates granule `f` of a command. -/
def State.granuleReady (s : State) (b : Nat) (c : XferWin) (f : Flight) : State :=
  match c.granule f.g with
  | none => s
  | some (r, k, n) => s.granuleXlat b c f (c.srcAt r k) (c.dstAt r k) n

/-! ### Starting (R123, R128, R368) -/

/-- Granules in flight for the two banks of a core. -/
def State.granulesOfCore (s : State) (b : Nat) : Nat :=
  let count := fun (B : Bank) => (B.xfer.window.map (fun c => c.flight.length)).foldl (· + ·) 0
  count (s.bank (b / 2 * 2)) + count (s.bank (b / 2 * 2 + 1))

/-- The release half of a command lets it start (R371): at scope 2 or wider the entries that older accesses opened are
FREE (R159), and at scope 5 every earlier control-strand access is performed (R198). -/
def State.releaseLets (s : State) (b : Nat) (c : XferWin) : Bool :=
  ! hasRelease c.ord || ((decide (c.scope < 2) || (s.bank b).ticketsBefore c.walk) &&
    (decide (c.scope ≠ 5) || s.ctlBeforeAt b c.walk 5))

/-- A granule of a command of a bank may start. -/
def State.mayStart (s : State) (b : Nat) (c : XferWin) : Bool :=
  let B := s.bank b
  decide (B.status = .live) && s.releaseLets b c && ! isSys b && ! B.out.out && B.out.faults.isEmpty && ! c.held &&
    s.released b c.walk c.id c.ranges && B.xferAhead c && decide (s.granulesOfCore b < 32) &&
    s.engineFree b .x

/-- TRANSFER_GRANULE_START (R368): the next granule of bank `input.who` starts; `input.ok` says that it is translated
at once. -/
def execTransferGranuleStart (s : State) : Outcome State Fault Refusal :=
  let b := s.input.who
  .next (match (s.bank b).xferHead with
    | none => s
    | some c =>
      if ! s.mayStart b c then s
      else match c.startable with
        | [] => s
        | g :: _ =>
          let f : Flight := { g := g, id := s.nextId, src := none, dst := none, ready := false, moved := false, ids := [] }
          let c := { c with flight := c.flight ++ [f] }
          let s := (({ s with nextId := s.nextId + 1 } : State).putCommand b c).updBank b (·.beginNow .x)
          if s.input.ok then s.granuleReady b c f else s)

/-! ### Moving (R367, R368) -/

/-- Two spans of bytes overlap. -/
def spansMeet (a n x m : Nat) : Bool := decide (a < x + m ∧ x < a + n)

/-- The bytes of one side of a granule, as spans: of virtual addresses and, where the granule is translated, physical
ones; or, in scratchpad, of window addresses. A transposed granule takes in a span from its lowest to its highest
byte. -/
structure SideSpan where
  scr : Bool
  lo : Nat
  len : Nat
  pa : Option Nat
deriving DecidableEq, Repr

/-- The source side of granule `(r, k, n)`. -/
def XferWin.srcSpan (c : XferWin) (pa : Option Nat) (r k n : Nat) : SideSpan :=
  if globalSrc c.dir then { scr := false, lo := c.srcAt r k, len := n, pa := pa }
  else
    let w := footprint (if c.dir = 1 then c.st.rho else 0) (c.srcAt r k) (c.srcAt r k + n - 1) false
    { scr := true, lo := w.lo, len := w.hi + 1 - w.lo, pa := none }

/-- The destination side of granule `(r, k, n)`. -/
def XferWin.dstSpan (c : XferWin) (pa : Option Nat) (r k n : Nat) : SideSpan :=
  if globalDst c.dir then { scr := false, lo := c.dstAt r k, len := n, pa := pa }
  else
    let lo := if c.st.kind = 0 then c.dstAt r k else c.st.dst.toNat + r / squareRows c.st.kind * 128
    let hi := if c.st.kind = 0 then lo + n - 1 else lo + (squareRows c.st.kind - 1) * c.st.dp + 127
    let w := footprint c.st.rho lo hi true
    { scr := true, lo := w.lo, len := w.hi + 1 - w.lo, pa := none }

/-- Two sides may share a byte. -/
def SideSpan.meets (x y : SideSpan) : Bool :=
  (x.scr == y.scr) && (spansMeet x.lo x.len y.lo y.len ||
    (match x.pa, y.pa with
     | some p, some q => spansMeet p x.len q y.len
     | _, _ => false))

/-- Two source rows of a transposed kind touch no byte in common, though their spans meet. -/
def XferWin.squareApart (c : XferWin) (r q : Nat) : Bool :=
  let n := squareRows c.st.kind
  decide (c.st.kind ≠ 0 ∧ r ≠ q ∧ 128 ≤ c.st.dp) &&
    (decide (r / n = q / n) || decide (c.st.rows / n * 128 ≤ c.st.dp))

/-- The physical address of a global side of a granule of `n` bytes: that at which it has been translated, else that which
its translation gives now (log entry 65). -/
def State.sideAt (s : State) (b va n : Nat) (kind : AccKind) (known : Option Nat) : Option Nat :=
  match known with
  | some pa => some pa
  | none =>
    match (s.xferSide b va n kind).2 with
    | .ok pa => some pa
    | _ => none

/-- A lower granule of the command that is not complete shares bytes with granule `f`, and one of the two writes
them: `f` waits for it (R368). -/
def State.behind (s : State) (b : Nat) (c : XferWin) (f : Flight) (r k n : Nat) : Bool :=
  ((List.range 33).map (c.gidx + ·)).any (fun g =>
    decide (g < f.g) && ! c.complete g &&
      (match c.granule g with
       | none => false
       | some (r', k', n') =>
         let h := c.flight.find? (fun h => h.g = g)
         let s' := c.srcSpan (s.sideAt b (c.srcAt r' k') n' .read (h.bind (·.src))) r' k' n'
         let d' := c.dstSpan (s.sideAt b (c.dstAt r' k') n' .write (h.bind (·.dst))) r' k' n'
         let s1 := c.srcSpan f.src r k n
         let d1 := c.dstSpan f.dst r k n
         (d1.meets d' && ! c.squareApart r r') || d1.meets s' || s1.meets d'))

/-- The bytes that a granule reads. -/
def State.granuleBytes (s : State) (b : Nat) (c : XferWin) (f : Flight) (r k n : Nat) : List Byte :=
  match f.src with
  | some pa => s.see (some (.granule b c.walk, s.nextId)) (dieOf b) pa n
  | none => s.winBytes b (if c.dir = 1 then c.st.rho else 0) (c.srcAt r k) n

/-- Where a granule's bytes, from byte `k` of source row `r` on, go in the window: linear address and bytes (R367). -/
def XferWin.pieces (c : XferWin) (r k : Nat) (bs : List Byte) : List (Nat × List Byte) :=
  if c.st.kind = 0 then linePieces bs.length (c.dstAt r k) bs
  else
    let e := c.st.kind
    let n := squareRows e
    bs.zipIdx.map (fun x =>
      (c.st.dst.toNat + (k + x.2) / e * c.st.dp + r / n * 128 + r % n * e + (k + x.2) % e, [x.1]))

/-- The tag of a command's writes: with a release half, each of its global writes is a release (R371). -/
def XferWin.tag (c : XferWin) (b : Nat) (scr : Bool) (mark : Option (Nat × Nat)) : WriteTag :=
  { writer := .granule b c.walk, die := dieOf b, walk := c.walk, scr := scr, own := false,
    rel := if hasRelease c.ord && ! scr then some c.scope else none, acq := none, mark := mark, foot := none,
    name := none, fence := false }

/-- The writes of a granule: in flight, global ones queued at their memory port and marked in the dirty log (R61). -/
def State.granuleWrites (s : State) (b : Nat) (c : XferWin) (f : Flight) (r k : Nat) (bs : List Byte) : State :=
  let vi := (s.bank b).place.vi
  match f.dst with
  | some pa =>
    let va := c.dstAt r k
    (linePieces bs.length pa bs).foldl (fun s x =>
      (s.issueWrite (c.tag b false (some (vi, va))) x.1 x.2).enqueue vi s.nextId x.1) (s.markDirty vi va bs.length)
  | none =>
    (c.pieces r k bs).foldl (fun s x => s.issueWrite (c.tag b true none) (s.windowBase b + rot x.1 c.st.rho) x.2) s

/-- An acquire at domain scope drops the REMOTE_CACHED lines of its die once its reads are performed (R198). -/
def State.xferAcquired (s : State) (b : Nat) (c : XferWin) : State :=
  if hasAcquire c.ord && decide (c.scope = 5) && c.allMoved then s.domainAcquire b else s

/-- The first bytes of the 64-byte lines that `n` bytes at a translated side lie in. -/
def lineAddrs (n : Nat) : Option Nat → List Nat
  | none => []
  | some pa => (List.range ((pa + n - 1) / 64 - pa / 64 + 1)).map (fun i => (pa / 64 + i) * 64)

/-- A granule that is translated moves its bytes, if nothing holds it back; `fail` says that its read could not be
corrected (R166). -/
def State.granuleMove (s : State) (b : Nat) (c : XferWin) (f : Flight) (fail : Bool) : State :=
  match c.granule f.g with
  | none => s
  | some (r, k, n) =>
    if (f.src.isSome && s.queued f.id) || ! s.granuleLets b c.walk false || s.behind b c f r k n then s
    else
      let free := fun (x : Option Nat) => match x with | some pa => s.freeGranule pa | none => false
      if (fail && f.src.isSome) || free f.src then s.xferTrap b (c.returns f.g) cMachine (c.srcAt r k)
      else if free f.dst then s.xferTrap b (c.returns f.g) cMachine (c.dstAt r k)
      else
        let first := s.nextId
        let s := s.granuleWrites b c f r k (s.granuleBytes b c f r k n)
        let s := s.touchLines b c.policy (lineAddrs n f.src ++ lineAddrs n f.dst)
        let c := c.setFlight { f with moved := true, ids := (List.range (s.nextId - first)).map (first + ·) }
        (s.putCommand b c).xferAcquired b c

/-! ### Completing (R149, R370) -/

/-- A granule whose writes are all visible in its core is complete. -/
def State.granuleEnd (s : State) (b : Nat) (c : XferWin) (f : Flight) : State :=
  if s.writes.all (fun w => ! f.ids.contains w.id || (! w.scr && w.dies.contains (dieOf b))) then
    s.putCommand b (c.completes f.g)
  else s

/-- The scope at which a command's writes are performed before its counter and flag (R370). -/
def XferWin.endScope (c : XferWin) : Nat := if c.st.ctr = 0 then 1 else Nat.max 1 c.scope

/-- Every write of a command is performed at a scope. -/
def State.commandAt (s : State) (b walk scope : Nat) : Bool :=
  s.writes.all (fun w => decide (w.writer ≠ .granule b walk) || s.writeAt b w scope)

/-- A command leaves its window, its flag raised. -/
def State.commandLeaves (s : State) (b : Nat) (c : XferWin) : State :=
  let s := s.onXfer b (fun x => { x with window := x.window.filter (fun d => d.walk ≠ c.walk) })
  match c.flag with
  | some j => s.incFlag b j
  | none => s.updBank b (·.moved)

/-- The counter of a command may rise: as a release at the command's scope, whatever its ordering (R371), it waits for
the entries that older accesses opened (R159); of a command with a release half, for every earlier access. -/
def State.countLets (s : State) (b : Nat) (c : XferWin) : Bool :=
  s.granuleLets b c.walk true && (decide (c.endScope < 2) || (s.bank b).ticketsBefore c.walk) &&
    (! hasRelease c.ord || s.ctlBeforeAt b c.walk c.scope)

/-- The increment of a command's counter at `pa` is queued at its memory port (R105). -/
def State.askCount (s : State) (b : Nat) (c : XferWin) (pa : Nat) : State :=
  let id := s.nextId
  (({ s with nextId := id + 1 } : State).enqueue (s.bank b).place.vi id pa).putCommand b { c with count := some (id, pa) }

/-- The counter of a command rises by 1, as a release at the command's scope (R197), once its port has served it; where a
granule that has been declared free holds it, the task traps with MACHINE (R117). -/
def State.countCommand (s : State) (b : Nat) (c : XferWin) (id pa : Nat) : State :=
  let vi := (s.bank b).place.vi
  let va := c.st.ctr.toNat
  let t := { c.tag b false (some (vi, va)) with rel := some c.endScope }
  if s.queued id then s
  else if s.freeGranule pa then s.xferTrap b { c with count := none } cMachine va
  else
    match s.rmwAt t pa 8 (fun m => some ((m + 1) % 2 ^ 64)) with
    | none => s
    | some (t, _) => (t.markDirty vi va 8).commandLeaves b c

/-- TRANSFER_COMMAND_COMPLETE (R370): every granule is complete; the writes are performed, then the counter and the
flag rise, and the command leaves. -/
def State.commandEnd (s : State) (b : Nat) (c : XferWin) : State :=
  let waits := (s.bank b).out.faults.any (fun f => decide (f.xfer = some c.walk))
  if waits || c.held || ! s.commandAt b c.walk c.endScope then s
  else if c.st.ctr = 0 then s.commandLeaves b c
  else match c.count with
    | some (id, pa) => s.countCommand b c id pa
    | none =>
      if ! s.countLets b c then s
      else
        let va := c.st.ctr.toNat
        let (s, x) := s.xferSide b va 8 .atomic
        match x with
        | .trap code t => s.xferTrap b c code t
        | .fault k => s.xferFault b { c with record := true } va k
        | .ok pa => s.askCount b c pa

/-- What comes next of granule `g` of a command: it is translated, it moves its bytes, or it completes; with none
left, the command does. -/
def State.granuleStep (s : State) (b : Nat) (c : XferWin) (g : Nat) (fail : Bool) : State :=
  match c.flight.find? (fun f => f.g = g) with
  | some f =>
    if ! f.ready then s.granuleReady b c f
    else if ! f.moved then s.granuleMove b c f fail
    else s.granuleEnd b c f
  | none => if c.flight.isEmpty && c.finished && ! c.dropped then s.commandEnd b c else s

/-- TRANSFER_GRANULE_COMPLETE (R149, R370): granule `input.third` of the command of bank `input.who` at walk index
`input.sub` goes on, and the command with its last one; `input.check` says how its read goes. -/
def execTransferGranuleComplete (s : State) : Outcome State Fault Refusal :=
  let b := s.input.who
  .next (match s.xferAt b s.input.sub with
    | none => s
    | some c => s.granuleStep b c s.input.third (decide (s.input.check = .fail)))

end Sys2Proof.Machine
end

