-- ==== Sys2Proof/Machine/Vector.lean ====
section
/-! DEFINITION. The vector words (chapter 16). Each plan says which tags and level the word needs, what it reads, and
what it writes; `vecWord` does the rest. -/

namespace Sys2Proof.Machine

open Sys2Proof Host

/-! ### Lane arithmetic -/

/-- An operation on the integers that two lanes of a tag stand for, its result held in the lane modulo 2^w. -/
def intLane (t : Nat) (f : Int → Int → Int) (x y : Nat) : Nat × Nat :=
  let w := tagBits t
  let v := intOf (tagSigned t) w
  (intCode w (f (v x) (v y)), 0)

/-- A value of a floating lane, rounded once under VMODE, with INVALID where the operation was invalid (R217). -/
def Bank.floatLane (B : Bank) (ctr k t : Nat) (v : Num × Bool) : Nat × Nat :=
  let (c, f) := encodeTag t (B.vmode ctr k) v.1
  (c, f ||| (if v.2 then flINVALID else 0))

/-- VMODE rounds downward. -/
def Bank.roundsDown (B : Bank) : Bool := decide (bitsOf (B.csrGet csrVMODE).toNat 2 0 = 2)

/-- The least of three numbers in the middle: a value held within a range. -/
def within (lo hi x : Int) : Int := max lo (min hi x)

/-- The two sources of a lane. -/
def lane0 (xs : List Nat) : Nat := xs.headD 0
def lane1 (xs : List Nat) : Nat := xs.getD 1 0

/-- An elementwise word of two sources of equal tags, integer or floating: `ints` and `floats` say whether the form
accepts each class. -/
def arithPlan (B : Bank) (ctr : Nat) (d a b : BitVec 6) (m : BitVec 3) (ints floats : Bool) (level : Nat)
    (fi : Int → Int → Int) (ff : Num → Num → Num × Bool) : VecPlan :=
  let t := B.opTag a
  lanewise B (decide (B.opTag b = t) && ((tagInt t && ints) || (tagFloat t && floats)))
    (if t = 12 then level else 0) (tagBits t) t d m [a, b]
    (fun l xs =>
      if tagFloat t then B.floatLane ctr l t (ff (valueOf t (lane0 xs)) (valueOf t (lane1 xs)))
      else intLane t fi (lane0 xs) (lane1 xs))

/-- A sum or difference that saturates in the tag's range if `f` is 1. -/
def satIf (t : Nat) (f : BitVec 3) (x : Int) : Int := if f = 1 then within (intMin t) (intMax t) x else x

/-- `vadd` (R330). -/
def planVadd (d a b : BitVec 6) (m f : BitVec 3) (B : Bank) (ctr : Nat) : VecPlan :=
  arithPlan B ctr d a b m true (decide (f = 0)) 0 (fun x y => satIf (B.opTag a) f (x + y))
    (fun x y => x.add B.roundsDown y)

/-- `vadd` (R330). -/
def execVadd (d a b : BitVec 6) (m f : BitVec 3) (s : State) := vecWord (.vadd d a b m f) (planVadd d a b m f) s

/-- `vsub` (R330). -/
def planVsub (d a b : BitVec 6) (m f : BitVec 3) (B : Bank) (ctr : Nat) : VecPlan :=
  arithPlan B ctr d a b m true (decide (f = 0)) 0 (fun x y => satIf (B.opTag a) f (x - y))
    (fun x y => x.add B.roundsDown y.neg)

/-- `vsub` (R330). -/
def execVsub (d a b : BitVec 6) (m f : BitVec 3) (s : State) := vecWord (.vsub d a b m f) (planVsub d a b m f) s

/-- `vmul` (R330). -/
def planVmul (d a b : BitVec 6) (m f : BitVec 3) (B : Bank) (ctr : Nat) : VecPlan :=
  arithPlan B ctr d a b m true (decide (f = 0)) 1
    (fun x y => if f = 1 then x * y / 2 ^ tagBits (B.opTag a) else x * y) Num.mul

/-- `vmul` (R330). -/
def execVmul (d a b : BitVec 6) (m f : BitVec 3) (s : State) := vecWord (.vmul d a b m f) (planVmul d a b m f) s

/-- `vmin` and `vmax` (R330). -/
def planPick (max_ : Bool) (d a b : BitVec 6) (m f : BitVec 3) (B : Bank) (ctr : Nat) : VecPlan :=
  arithPlan B ctr d a b m (decide (f = 0)) true 0 (fun x y => if max_ then max x y else min x y)
    (fun x y => (if f = 1 then Num.pickNum max_ x y else Num.pick max_ x y, false))

/-- `vmin` (R330). -/
def execVmin (d a b : BitVec 6) (m f : BitVec 3) (s : State) :=
  vecWord (.vmin d a b m f) (planPick false d a b m f) s

/-- `vmax` (R330). -/
def execVmax (d a b : BitVec 6) (m f : BitVec 3) (s : State) :=
  vecWord (.vmax d a b m f) (planPick true d a b m f) s

/-! ### Words that read their destination (R331) -/

/-- An elementwise word whose destination is its third source. -/
def thirdPlan (B : Bank) (ctr : Nat) (d a b : BitVec 6) (m : BitVec 3) (level : Nat)
    (fi : Int → Int → Int → Int) (ff : Num → Num → Num → Num × Bool) : VecPlan :=
  let old := B.r.readV d.toNat
  let t := old.tag.toNat
  let w := tagBits t
  let v := intOf (tagSigned t) w
  lanewise B (decide (B.opTag a = t ∧ B.opTag b = t) && (tagInt t || tagFloat t))
    (if t = 12 then level else 0) w t d m [a, b]
    (fun l xs =>
      let z := lane w old.bits.toNat l
      if tagFloat t then B.floatLane ctr l t (ff (valueOf t (lane0 xs)) (valueOf t (lane1 xs)) (valueOf t z))
      else (intCode w (fi (v (lane0 xs)) (v (lane1 xs)) (v z)), 0))

/-- The value negated if `n`. -/
def Num.negIf (n : Bool) (x : Num) : Num := if n then x.neg else x

/-- `vfma` (R331): bit 1 of f negates the product, bit 0 the addend. -/
def planVfma (d a b : BitVec 6) (m f : BitVec 3) (B : Bank) (ctr : Nat) : VecPlan :=
  let p := f.getLsbD 1
  let q := f.getLsbD 0
  thirdPlan B ctr d a b m 1
    (fun x y z => (if p then - (x * y) else x * y) + (if q then - z else z))
    (fun x y z => Num.fma B.roundsDown (x.negIf p) y (z.negIf q))

/-- `vfma` (R331). -/
def execVfma (d a b : BitVec 6) (m f : BitVec 3) (s : State) := vecWord (.vfma d a b m f) (planVfma d a b m f) s

/-- `vclamp` (R331): the lane of d held between those of a and b. -/
def planVclamp (d a b : BitVec 6) (m : BitVec 3) (B : Bank) (ctr : Nat) : VecPlan :=
  thirdPlan B ctr d a b m 0 (fun x y z => min (max z x) y)
    (fun x y z => (Num.pick false (Num.pick true z x) y, false))

/-- `vclamp` (R331). -/
def execVclamp (d a b : BitVec 6) (m : BitVec 3) (s : State) := vecWord (.vclamp d a b m) (planVclamp d a b m) s

/-! ### Unary operations (R332, R347) -/

/-- The integer functions of `vun`. -/
def unInt (f : Nat) (t x : Nat) : Nat :=
  let w := tagBits t
  let v := intOf (tagSigned t) w x
  match f with
  | 0 => intCode w (- v)
  | 1 => intCode w (if v < 0 then - v else v)
  | 2 => 2 ^ w - 1 - x
  | 4 => popOf w x
  | _ => clzOf w x

/-- The floating functions of `vun` on a lane. -/
def Bank.unFloat (B : Bank) (ctr l f t x : Nat) : Nat × Nat :=
  let F := floatFmt t
  let v := valueOf t x
  if v.isNan then (F.nanCode, 0)
  else match f with
    | 0 => (x ^^^ F.signBit, 0)
    | 1 => (x % F.signBit, 0)
    | _ => B.floatLane ctr l t v.sqrt

/-- `vun` (R332). -/
def planVun (d a : BitVec 6) (m f : BitVec 3) (B : Bank) (ctr : Nat) : VecPlan :=
  let t := B.opTag a
  let f := f.toNat
  lanewise B ((tagInt t && decide (f ≠ 3)) || (tagFloat t && decide (f = 0 ∨ f = 1 ∨ f = 3))) 0 (tagBits t) t d m [a]
    (fun l xs => if tagFloat t then B.unFloat ctr l f t (lane0 xs) else (unInt f t (lane0 xs), 0))

/-- `vun` (R332). -/
def execVun (d a : BitVec 6) (m f : BitVec 3) (s : State) := vecWord (.vun d a m f) (planVun d a m f) s

/-- The functions of `vfn` and the flags that they raise before rounding. -/
def fnValue (f : Nat) (x : Num) : Num × Nat :=
  match f with
  | 0 => x.rcp
  | 1 => x.rsqrt
  | 2 => (x.exp2, 0)
  | _ => x.log2

/-- `vfn` (R347): rounded under RNE, with VMODE's overflow mode. -/
def planVfn (d a : BitVec 6) (m f : BitVec 3) (B : Bank) (ctr : Nat) : VecPlan :=
  let t := B.opTag a
  lanewise B (decide (t = 10 ∨ t = 12)) (if t = 12 then 1 else 0) (tagBits t) t d m [a]
    (fun l xs =>
      let (v, g) := fnValue f.toNat (valueOf t (lane0 xs))
      let (c, h) := encodeTag t { B.vmode ctr l with mode := 0 } v
      (c, g ||| h))

/-- `vfn` (R347). -/
def execVfn (d a : BitVec 6) (m f : BitVec 3) (s : State) := vecWord (.vfn d a m f) (planVfn d a m f) s

/-! ### Compares, selects and masks (R333-R335) -/

/-- The condition of `vcmp` on two values in order: less, equal, or neither comparable. -/
def vcmpCond (f : Nat) (nan lt eq : Bool) : Bool :=
  match f with
  | 0 => ! nan && eq
  | 1 => nan || ! eq
  | 2 => ! nan && lt
  | 3 => ! nan && (lt || eq)
  | 4 => ! nan && ! (lt || eq)
  | 5 => ! nan && ! lt
  | 6 => nan
  | _ => ! nan

/-- A lane's condition. -/
def vcmpLane (f t x y : Nat) : Bool :=
  let u := valueOf t x
  let v := valueOf t y
  vcmpCond f (u.isNan || v.isNan) (u.lt v) (! u.lt v && ! v.lt u)

/-- A mask that keeps the bits of inactive lanes below `n` and has none from `n` on. -/
def maskOver (old : MaskBits) (act c : Nat → Bool) (n : Nat) : Nat :=
  packLanes 1 ((List.range n).map (fun l => (if act l then c l else old.getLsbD l).toNat))

/-- `vcmp` (R333). -/
def planVcmp (d a b : BitVec 6) (m f : BitVec 3) (B : Bank) (_ : Nat) : VecPlan :=
  let t := B.opTag a
  let e := tagBits t
  { tagOk := decide (B.opTag b = t) && (tagInt t || tagFloat t), level := 0, srcs := [(a, e), (b, e)], dst := none,
    make := fun xs =>
      { dest := .mask d.toNat (maskOver (B.r.readM d.toNat) (B.active m)
          (fun l => vcmpLane f.toNat t (lane e (lane0 xs) l) (lane e (lane1 xs) l)) (B.laneCount e)),
        hist := [], flags := 0 } }

/-- `vcmp` (R333). -/
def execVcmp (d a b : BitVec 6) (m f : BitVec 3) (s : State) := vecWord (.vcmp d a b m f) (planVcmp d a b m f) s

/-- `vsel` (R334): every lane is written. -/
def planVsel (d a b : BitVec 6) (m : BitVec 3) (B : Bank) (_ : Nat) : VecPlan :=
  let t := B.opTag a
  lanewise B (decide (t ≠ 0 ∧ B.opTag b = t)) 0 (moveBits t) t d 0 [a, b]
    (fun l xs => (if B.mbit m l then lane0 xs else lane1 xs, 0))

/-- `vsel` (R334). -/
def execVsel (d a b : BitVec 6) (m : BitVec 3) (s : State) := vecWord (.vsel d a b m) (planVsel d a b m) s

/-- The functions of `vmsk` on two masks. -/
def maskOp (f : Nat) (x y : MaskBits) : MaskBits :=
  match f with
  | 0 => x &&& y
  | 1 => x ||| y
  | 2 => x ^^^ y
  | _ => x &&& ~~~ y

/-- A word without tags, level or lanes. -/
def plainPlan (srcs : List (BitVec 6 × Nat)) (dst : Option (BitVec 6)) (make : List Nat → VecDest) : VecPlan :=
  { tagOk := true, level := 0, srcs := srcs, dst := dst,
    make := fun xs => { dest := make xs, hist := [], flags := 0 } }

/-- `vmsk.and`, `.or`, `.xor`, `.andn` (R335). -/
def execVmskLogic (d a b : BitVec 6) (f : BitVec 2) (s : State) :=
  vecWord (.vmskLogic d a b f) (fun B _ => plainPlan [] none (fun _ =>
    .mask d.toNat (maskOp f.toNat (B.r.readM a.toNat) (B.r.readM b.toNat)).toNat)) s

/-- `vmsk.ld` (R335). -/
def execVmskLd (d a : BitVec 6) (s : State) :=
  vecWord (.vmskLd d a) (fun B _ => plainPlan [(a, tagBits (B.opTag a))] none (fun xs =>
    .mask d.toNat (lane0 xs % 2 ^ 512))) s

/-- `vmsk.st` (R335). -/
def execVmskSt (d a : BitVec 6) (s : State) :=
  vecWord (.vmskSt d a) (fun B _ => plainPlan [] (some d) (fun _ => .op d.toNat (B.r.readM a.toNat).toNat 2)) s

/-- `vmsk.pop` (R335). -/
def execVmskPop (d a : BitVec 6) (s : State) :=
  vecWord (.vmskPop d a) (fun B _ => plainPlan [] (some d) (fun _ =>
    .op d.toNat (popOf 512 (B.r.readM a.toNat).toNat) 6)) s

/-! ### Logic and shifts (R336) -/

/-- The functions of `vlog` on lanes of `e` bits. -/
def vlogLane (f e x y : Nat) : Nat :=
  let nx := fun v => 2 ^ e - 1 - v
  match f with
  | 0 => x &&& y
  | 1 => x ||| y
  | 2 => x ^^^ y
  | 3 => x &&& nx y
  | 4 => x ||| nx y
  | _ => nx (x ^^^ y)

/-- `vlog` (R336). -/
def planVlog (d a b : BitVec 6) (m f : BitVec 3) (B : Bank) (_ : Nat) : VecPlan :=
  let t := B.opTag a
  let u := B.opTag b
  let e := moveBits t
  lanewise B (decide (t ≠ 0 ∧ u ≠ 0 ∧ moveBits u = e)) 0 e t d m [a, b]
    (fun _ xs => (vlogLane f.toNat e (lane0 xs) (lane1 xs), 0))

/-- `vlog` (R336). -/
def execVlog (d a b : BitVec 6) (m f : BitVec 3) (s : State) := vecWord (.vlog d a b m f) (planVlog d a b m f) s

/-- The functions of `vshf` on a lane of `w` bits. -/
def vshfLane (f w x y : Nat) : Nat :=
  let k := y % w
  match f with
  | 0 => x <<< k % 2 ^ w
  | 1 => x >>> k
  | 2 => intCode w (intOf true w x / 2 ^ k)
  | 3 => (x <<< k ||| x >>> (w - k)) % 2 ^ w
  | _ => (x >>> k ||| x <<< (w - k)) % 2 ^ w

/-- `vshf` (R336). -/
def planVshf (d a b : BitVec 6) (m f : BitVec 3) (B : Bank) (_ : Nat) : VecPlan :=
  let t := B.opTag a
  let u := B.opTag b
  lanewise B (tagInt t && tagInt u && decide (tagBits t = tagBits u)) 0 (tagBits t) t d m [a, b]
    (fun _ xs => (vshfLane f.toNat (tagBits t) (lane0 xs) (lane1 xs), 0))

/-- `vshf` (R336). -/
def execVshf (d a b : BitVec 6) (m f : BitVec 3) (s : State) := vecWord (.vshf d a b m f) (planVshf d a b m f) s

/-! ### Conversions and block scaling (R337, R338) -/

/-- The rounding that f selects for `vcvt`. -/
def cvtRounding (f : Nat) (r : Rounding) : Rounding :=
  if f = 0 then r
  else if f ≤ 5 then { r with mode := f - 1 }
  else { r with spec := decide (f = 7) }

/-- Lanes of `e` bits of which the first `big` are given by `f` and the others are zero. -/
def Bank.convert (B : Bank) (d : BitVec 6) (m : BitVec 3) (e tag big : Nat) (f : Nat → Nat × Nat) : VecOut :=
  B.lanesOut d e tag
    (runLanes (fun l => decide (big ≤ l) || B.active m l) (fun l => if big ≤ l then (0, 0) else f l)
      (List.range (B.laneCount e)))

/-- `vcvt` (R337). -/
def planVcvt (d a t : BitVec 6) (m f : BitVec 3) (B : Bank) (ctr : Nat) : VecPlan :=
  let u := B.opTag a
  let es := tagBits u
  let et := tagBits t.toNat
  { tagOk := decide (u ≠ 0), level := 0, srcs := [(a, es)], dst := some d,
    make := fun xs => B.convert d m et t.toNat (B.laneCount (max 8 (max es et))) (fun l =>
      encodeTag t.toNat (cvtRounding f.toNat (B.vmode ctr l)) (valueOf u (lane es (lane0 xs) l))) }

/-- `vcvt` (R337). -/
def execVcvt (d a t : BitVec 6) (m f : BitVec 3) (s : State) := vecWord (.vcvt d a t m f) (planVcvt d a t m f) s

/-- The output format of `vscale`. -/
def scaleTag (f : Nat) : Nat := 10 + f % 4

/-- `vscale` (R338). -/
def planVscale (d a b : BitVec 6) (m f : BitVec 3) (B : Bank) (ctr : Nat) : VecPlan :=
  let u := B.opTag a
  let t := scaleTag f.toNat
  let es := tagBits u
  let eo := tagBits t
  { tagOk := (tagFloat u || tagB8 u) && decide (B.opTag b = 13), level := 0, srcs := [(a, es), (b, 8)],
    dst := some d,
    make := fun xs => B.convert d m eo t (B.laneCount (max es eo)) (fun l =>
      encodeTag t (B.vmode ctr l)
        (scaled (f.getLsbD 2) (lane 8 (lane1 xs) (l / 32)) (valueOf u (lane es (lane0 xs) l)))) }

/-- `vscale` (R338). -/
def execVscale (d a b : BitVec 6) (m f : BitVec 3) (s : State) :=
  vecWord (.vscale d a b m f) (planVscale d a b m f) s

/-! ### Reductions and scans (R218, R219, R339) -/

/-- A combination of two partial results: the value, the flags, and the next free value. -/
structure Comb where
  /-- of integer lanes the code, of floating lanes a code of f32 or, exactly, of the lane's own format -/
  code : Nat
  flags : Nat
  next : Nat
deriving DecidableEq, Repr

/-- The format in which a sum of floating lanes is combined: f32. -/
def combTag (t f : Nat) : Nat := if tagFloat t && decide (f = 0) then 12 else t

/-- A sum of widened lanes rounded to f32: what overflows goes to infinity in every mode. -/
def wideSum (r : Rounding) (v : Num) : Nat × Nat :=
  let (c, g) := encodeTag 12 { r with spec := true } v
  (if bitAt g 2 then (floatFmt 12).withSign v.isNeg (floatFmt 12).infCode else c, g)

/-- Combines two partial results under function `f`; `k` numbers the free value. Sums of f16 and bf16 are combined in
f32, where an overflow goes to infinity. -/
def Bank.comb (B : Bank) (ctr f t k x y : Nat) : Nat × Nat :=
  if tagFloat t then
    let u := combTag t f
    if f = 0 then
      let r := B.vmode ctr k
      let (v, inv) := (valueOf u x).add B.roundsDown (valueOf u y)
      let (c, g) := if t = 12 then encodeTag u r v else wideSum r v
      (c, g ||| (if inv then flINVALID else 0))
    else encodeTag u { mode := 0, spec := true, random := 0 } (Num.pick (decide (f = 2)) (valueOf u x) (valueOf u y))
  else match f with
    | 0 => intLane t (fun a b => a + b) x y
    | 1 => intLane t (fun a b => min a b) x y
    | 2 => intLane t (fun a b => max a b) x y
    | 3 => (x &&& y, 0)
    | 4 => (x ||| y, 0)
    | _ => (x ^^^ y, 0)

/-- The identity of a function, as a code of the format in which it is combined. -/
def combIdentity (f t : Nat) : Nat :=
  let w := tagBits t
  if tagFloat t then
    (match f with
     | 0 => 0
     | 1 => (floatFmt t).infCode
     | _ => (floatFmt t).withSign true (floatFmt t).infCode)
  else match f with
    | 0 => 0
    | 1 => intCode w (intMax t)
    | 2 => intCode w (intMin t)
    | 3 => 2 ^ w - 1
    | _ => 0

/-- A lane in the format in which it is combined, which holds it exactly. -/
def combWiden (f t x : Nat) : Nat :=
  if combTag t f = t then x else (encodeTag 12 { mode := 0, spec := true, random := 0 } (valueOf t x)).1

/-- A partial result rounded into the lane format under VMODE; a NaN is the canonical one (R202). -/
def Bank.combOut (B : Bank) (ctr f t k x : Nat) : Nat × Nat :=
  if combTag t f ≠ t then encodeTag t (B.vmode ctr k) (valueOf 12 x)
  else if tagFloat t && (valueOf t x).isNan then ((floatFmt t).nanCode, 0)
  else (x, 0)

/-- One level of the tree: neighbours are combined; an absent one with `x` gives `x`, and the last of an odd number
goes up as it is. -/
def treeLevel (comb : Nat → Nat → Nat → Nat × Nat) (k : Nat) : List (Option Nat) → List (Option Nat) × Nat
  | some x :: some y :: rest =>
    let (z, g) := comb k x y
    let (r, h) := treeLevel comb (k + 1) rest
    (some z :: r, g ||| h)
  | x :: y :: rest =>
    let (r, h) := treeLevel comb (k + 1) rest
    ((match x with | some v => some v | none => y) :: r, h)
  | [x] => ([x], 0)
  | [] => ([], 0)

/-- The tree of R218, and the flags; each level has free values of its own. -/
def tree (comb : Nat → Nat → Nat → Nat × Nat) : Nat → List (Option Nat) → Option Nat × Nat
  | 0, xs => (xs.headD none, 0)
  | n + 1, xs =>
    let (ys, g) := treeLevel comb (128 * n) xs
    let (r, h) := tree comb n ys
    (r, g ||| h)

/-- `vred` (R339). -/
def planVred (d a : BitVec 6) (m f : BitVec 3) (B : Bank) (ctr : Nat) : VecPlan :=
  let t := B.opTag a
  let e := tagBits t
  let f := f.toNat
  { tagOk := tagInt t || (tagFloat t && decide (f ≤ 2)), level := 0, srcs := [(a, e)], dst := some d,
    make := fun xs =>
      let n := B.laneCount e
      let start := (List.range n).map (fun l =>
        if B.active m l then some (combWiden f t (lane e (lane0 xs) l)) else none)
      let (r, g) := tree (B.comb ctr f t) 9 start
      let (c, h) := match r with
        | some x => B.combOut ctr f t 2000 x
        | none => (combIdentity f t, 0)
      B.lanesOut d e t (some c :: List.replicate (n - 1) (some 0), g ||| h) }

/-- `vred` (R339). -/
def execVred (d a : BitVec 6) (m f : BitVec 3) (s : State) := vecWord (.vred d a m f) (planVred d a m f) s

/-- A scan of the lanes from `l` on after a partial result and the output of the lane before, which an inactive lane
copies. -/
def scanFrom (act : Nat → Bool) (x : Nat → Nat) (comb : Nat → Nat → Nat → Nat × Nat) (out : Nat → Nat → Nat × Nat)
    (prev before : Nat) : List Nat → List (Option Nat) × Nat
  | [] => ([], 0)
  | l :: rest =>
    if act l then
      let (p, g) := comb l prev (x l)
      let (c, h) := out (512 + l) p
      let (r, k) := scanFrom act x comb out p c rest
      (some c :: r, g ||| h ||| k)
    else
      let (r, k) := scanFrom act x comb out prev before rest
      (some before :: r, k)

/-- `vscan` (R339, R219): lane 0 starts with itself, or with the identity where it is inactive. -/
def planVscan (d a : BitVec 6) (m f : BitVec 3) (B : Bank) (ctr : Nat) : VecPlan :=
  let t := B.opTag a
  let e := tagBits t
  let f := f.toNat
  { tagOk := tagInt t || (tagFloat t && decide (f ≤ 2)), level := 0, srcs := [(a, e)], dst := some d,
    make := fun xs =>
      let x := fun l => combWiden f t (lane e (lane0 xs) l)
      let first := if B.active m 0 then x 0 else combIdentity f t
      let (c, g) := B.combOut ctr f t 512 first
      let (r, h) := scanFrom (B.active m) x (B.comb ctr f t) (B.combOut ctr f t) first c
        ((List.range (B.laneCount e)).tail)
      B.lanesOut d e t (some c :: r, g ||| h) }

/-- `vscan` (R339). -/
def execVscan (d a : BitVec 6) (m f : BitVec 3) (s : State) := vecWord (.vscan d a m f) (planVscan d a m f) s

/-! ### Moving lanes (R340-R343) -/

/-- A word that copies whole lanes: `f` gives, for each lane, the source and the lane it comes from; a lane that is
not there reads zero. -/
def movePlan (B : Bank) (tagOk : Bool) (d : BitVec 6) (m : BitVec 3) (srcs : List (BitVec 6)) (t : Nat)
    (f : List Nat → Nat → Nat → Nat × Int) : VecPlan :=
  let e := moveBits t
  let n := B.laneCount e
  { tagOk := decide (t ≠ 0) && tagOk, level := 0, srcs := srcs.map (fun c => (c, e)), dst := some d,
    make := fun xs => B.lanesOut d e t (runLanes (B.active m) (fun l =>
      let (k, i) := f xs n l
      (if i < 0 ∨ (n : Int) ≤ i then 0 else lane e (xs.getD k 0) i.toNat, 0)) (List.range n)) }

/-- `vperm` (R340). -/
def planVperm (d a b : BitVec 6) (m f : BitVec 3) (B : Bank) (_ : Nat) : VecPlan :=
  let t := B.opTag a
  let e := moveBits t
  let u := B.opTag b
  movePlan B (tagInt u && decide (tagBits u = e) && (decide (f = 0) || decide (e ≤ 8))) d m [a, b] t
    (fun xs _ l => (0, (lane e (lane1 xs) l + 256 * f.toNat : Nat)))

/-- `vperm` (R340). -/
def execVperm (d a b : BitVec 6) (m f : BitVec 3) (s : State) := vecWord (.vperm d a b m f) (planVperm d a b m f) s

/-- `vslide` (R341): the even functions slide down, the odd ones up, by c times 1, 8 or 64. -/
def planVslide (d a c : BitVec 6) (m f : BitVec 3) (B : Bank) (_ : Nat) : VecPlan :=
  let by_ : Int := (c.toNat * 8 ^ (f.toNat / 2) : Nat)
  movePlan B true d m [a] (B.opTag a)
    (fun _ _ l => (0, if f.getLsbD 0 then (l : Int) - by_ else (l : Int) + by_))

/-- `vslide` (R341). -/
def execVslide (d a c : BitVec 6) (m f : BitVec 3) (s : State) :=
  vecWord (.vslide d a c m f) (planVslide d a c m f) s

/-- `vbcast` (R340). -/
def planVbcast (d a l : BitVec 6) (m h : BitVec 3) (B : Bank) (_ : Nat) : VecPlan :=
  movePlan B true d m [a] (B.opTag a) (fun _ _ _ => (0, (l.toNat + 64 * h.toNat : Nat)))

/-- `vbcast` (R340). -/
def execVbcast (d a l : BitVec 6) (m h : BitVec 3) (s : State) :=
  vecWord (.vbcast d a l m h) (planVbcast d a l m h) s

/-- Where a lane of `vsh` comes from (R342). -/
def vshSource (f n l : Nat) : Nat × Int :=
  let h := n / 2
  if f < 2 then (l % 2, (h * f + l / 2 : Nat))
  else if l < h then (0, (2 * l + (f - 2) : Nat))
  else (1, (2 * (l - h) + (f - 2) : Nat))

/-- `vsh` (R342). -/
def planVsh (d a b : BitVec 6) (m f : BitVec 3) (B : Bank) (_ : Nat) : VecPlan :=
  let t := B.opTag a
  movePlan B (decide (B.opTag b = t)) d m [a, b] t (fun _ n l => vshSource f.toNat n l)

/-- `vsh` (R342). -/
def execVsh (d a b : BitVec 6) (m f : BitVec 3) (s : State) := vecWord (.vsh d a b m f) (planVsh d a b m f) s

/-- Where a lane of `vtrn` comes from (R342). -/
def vtrnSource (f l : Nat) : Nat × Int :=
  let g := 2 ^ (f / 2)
  let hi : Int := if f % 2 = 1 then g else 0
  if l / g % 2 = 0 then (0, (l : Int) + hi) else (1, (l : Int) + hi - g)

/-- `vtrn` (R342). -/
def planVtrn (d a b : BitVec 6) (m f : BitVec 3) (B : Bank) (_ : Nat) : VecPlan :=
  let t := B.opTag a
  movePlan B (decide (B.opTag b = t)) d m [a, b] t (fun _ _ l => vtrnSource f.toNat l)

/-- `vtrn` (R342). -/
def execVtrn (d a b : BitVec 6) (m f : BitVec 3) (s : State) := vecWord (.vtrn d a b m f) (planVtrn d a b m f) s

/-- `vmov` (R343): under m0 all 4,096 bits, under another mask the active lanes. -/
def planVmov (d a : BitVec 6) (m : BitVec 3) (B : Bank) (_ : Nat) : VecPlan :=
  let t := B.opTag a
  if m = 0 then plainPlan [(a, moveBits t)] (some d) (fun xs => .op d.toNat (lane0 xs) t)
  else movePlan B true d m [a] t (fun _ _ l => (0, l))

/-- `vmov` (R343). -/
def execVmov (d a : BitVec 6) (m : BitVec 3) (s : State) := vecWord (.vmov d a m) (planVmov d a m) s

/-- `vtag` (R343). -/
def execVtag (d a t : BitVec 6) (s : State) :=
  vecWord (.vtag d a t) (fun _ _ => plainPlan [(a, tagBits t.toNat)] (some d) (fun xs =>
    .op d.toNat (lane0 xs) t.toNat)) s

/-! ### Accumulator reads, histograms, lane indices (R344-R348) -/

/-- The value of an accumulator's element at a row and column (R211). -/
def Acc.valueAt (a : Acc) (row col : Nat) : Num :=
  let x := KV.get { v := 0, st := 0 } a.elems (128 * row + col)
  accValue x.v x.st.toNat a.anchor

/-- The target tag of `vacc`. -/
def accTag (f : Nat) : Nat :=
  match f with
  | 0 => 12
  | 1 => 10
  | 2 => 11
  | 3 => 5
  | 4 => 3
  | _ => 1

/-- `vacc` (R344). -/
def planVacc (d r : BitVec 6) (k h : BitVec 1) (m f : BitVec 3) (B : Bank) (ctr : Nat) : VecPlan :=
  let t := accTag f.toNat
  let row := r.toNat + 64 * h.toNat
  { tagOk := true, level := 0, srcs := [], dst := some d,
    make := fun _ => B.lanesOut d (tagBits t) t (runLanes (B.active m)
      (fun l => encodeTag t (B.vmode ctr l) ((B.r.readA k.toNat).valueAt row l)) (List.range 128)) }

/-- `vacc` (R344, R345). -/
def execVacc (d r : BitVec 6) (k h : BitVec 1) (m f : BitVec 3) (s : State) :=
  vecWord (.vacc d r k h m f) (planVacc d r k h m f) s

/-- `vhist` (R346). -/
def planVhist (a b : BitVec 6) (m f : BitVec 3) (B : Bank) (_ : Nat) : VecPlan :=
  let t := B.opTag a
  let u := B.opTag b
  let e := tagBits t
  { tagOk := tagInt t && (decide (f = 0) || (tagInt u && decide (tagBits u = e))), level := 0,
    srcs := if f = 0 then [(a, e)] else [(a, e), (b, e)], dst := none,
    make := fun xs =>
      { dest := .nothing, flags := 0,
        hist := ((List.range (B.laneCount e)).filter (fun l =>
            B.active m l && decide (lane e (lane0 xs) l < 256))).map (fun l =>
          (lane e (lane0 xs) l, if f = 0 then 1 else lane e (lane1 xs) l)) } }

/-- `vhist` (R346). -/
def execVhist (a b : BitVec 6) (m f : BitVec 3) (s : State) := vecWord (.vhist a b m f) (planVhist a b m f) s

/-- `viota` (R348). -/
def planViota (d t : BitVec 6) (m f : BitVec 3) (B : Bank) (_ : Nat) : VecPlan :=
  let w := tagBits t.toNat
  lanewise B true 0 w t.toNat d m []
    (fun l _ => ((if f = 0 then l else ((List.range l).filter (B.active m)).length) % 2 ^ w, 0))

/-- `viota` (R348). -/
def execViota (d t : BitVec 6) (m f : BitVec 3) (s : State) := vecWord (.viota d t m f) (planViota d t m f) s

end Sys2Proof.Machine
end

