-- ==== Sys2Proof/Machine/Dispatch.lean ====
section
/-! DEFINITION. The meaning of each instruction: one arm per constructor. -/

namespace Sys2Proof.Machine

open Sys2Proof Host

def exec (i : Instr) (s : State) : Host.Outcome State Fault Refusal :=
  match i with
  | .add d a b => Sys2Proof.Machine.execAdd d a b s
  | .sub d a b => Sys2Proof.Machine.execSub d a b s
  | .and d a b => Sys2Proof.Machine.execAnd d a b s
  | .or d a b => Sys2Proof.Machine.execOr d a b s
  | .xor d a b => Sys2Proof.Machine.execXor d a b s
  | .andn d a b => Sys2Proof.Machine.execAndn d a b s
  | .orn d a b => Sys2Proof.Machine.execOrn d a b s
  | .sll d a b => Sys2Proof.Machine.execSll d a b s
  | .srl d a b => Sys2Proof.Machine.execSrl d a b s
  | .sra d a b => Sys2Proof.Machine.execSra d a b s
  | .rol d a b => Sys2Proof.Machine.execRol d a b s
  | .ror d a b => Sys2Proof.Machine.execRor d a b s
  | .mul d a b => Sys2Proof.Machine.execMul d a b s
  | .mulh d a b => Sys2Proof.Machine.execMulh d a b s
  | .mulhu d a b => Sys2Proof.Machine.execMulhu d a b s
  | .div d a b => Sys2Proof.Machine.execDiv d a b s
  | .divu d a b => Sys2Proof.Machine.execDivu d a b s
  | .rem d a b => Sys2Proof.Machine.execRem d a b s
  | .remu d a b => Sys2Proof.Machine.execRemu d a b s
  | .min d a b => Sys2Proof.Machine.execMin d a b s
  | .max d a b => Sys2Proof.Machine.execMax d a b s
  | .minu d a b => Sys2Proof.Machine.execMinu d a b s
  | .maxu d a b => Sys2Proof.Machine.execMaxu d a b s
  | .adds d a b => Sys2Proof.Machine.execAdds d a b s
  | .subs d a b => Sys2Proof.Machine.execSubs d a b s
  | .clz d a => Sys2Proof.Machine.execClz d a s
  | .ctz d a => Sys2Proof.Machine.execCtz d a s
  | .popc d a => Sys2Proof.Machine.execPopc d a s
  | .bswap d a => Sys2Proof.Machine.execBswap d a s
  | .addi d a im => Sys2Proof.Machine.execAddi d a im s
  | .andi d a im => Sys2Proof.Machine.execAndi d a im s
  | .ori d a im => Sys2Proof.Machine.execOri d a im s
  | .xori d a im => Sys2Proof.Machine.execXori d a im s
  | .shi d a k n => Sys2Proof.Machine.execShi d a k n s
  | .movw d q im => Sys2Proof.Machine.execMovw d q im s
  | .movk d q im => Sys2Proof.Machine.execMovk d q im s
  | .cmp p a b c m => Sys2Proof.Machine.execCmp p a b c m s
  | .cmpi p a c im => Sys2Proof.Machine.execCmpi p a c im s
  | .plog p a b t c => Sys2Proof.Machine.execPlog p a b t c s
  | .sel d a b n k => Sys2Proof.Machine.execSel d a b n k s
  | .br p n o => Sys2Proof.Machine.execBr p n o s
  | .jal p n o => Sys2Proof.Machine.execJal p n o s
  | .jalr d a im => Sys2Proof.Machine.execJalr d a im s
  | .qmovCq a => Sys2Proof.Machine.execQmovCq a s
  | .qmovVq d => Sys2Proof.Machine.execQmovVq d s
  | .qmovXq a => Sys2Proof.Machine.execQmovXq a s
  | .qmovMq a b => Sys2Proof.Machine.execQmovMq a b s
  | .engreq d a b k => Sys2Proof.Machine.execEngreq d a b k s
  | .engctlQuery d a => Sys2Proof.Machine.execEngctlQuery d a s
  | .engctlAbandon d a => Sys2Proof.Machine.execEngctlAbandon d a s
  | .engctlUnhold b => Sys2Proof.Machine.execEngctlUnhold b s
  | .pwrAcq d l => Sys2Proof.Machine.execPwrAcq d l s
  | .pwrRel => Sys2Proof.Machine.execPwrRel s
  | .flagRd d k => Sys2Proof.Machine.execFlagRd d k s
  | .flagWr a k => Sys2Proof.Machine.execFlagWr a k s
  | .flagInc k => Sys2Proof.Machine.execFlagInc k s
  | .flagAdd a k => Sys2Proof.Machine.execFlagAdd a k s
  | .bar im sc => Sys2Proof.Machine.execBar im sc s
  | .barSplit d im sc => Sys2Proof.Machine.execBarSplit d im sc s
  | .fence sc o => Sys2Proof.Machine.execFence sc o s
  | .launch d a b => Sys2Proof.Machine.execLaunch d a b s
  | .yield => Sys2Proof.Machine.execYield s
  | .trapfence => Sys2Proof.Machine.execTrapfence s
  | .trap a im => Sys2Proof.Machine.execTrap a im s
  | .tret => Sys2Proof.Machine.execTret s
  | .intr v => Sys2Proof.Machine.execIntr v s
  | .exit => Sys2Proof.Machine.execExit s
  | .csr d a im => Sys2Proof.Machine.execCsr d a im s
  | .cntRd d a => Sys2Proof.Machine.execCntRd d a s
  | .cntSnap d a => Sys2Proof.Machine.execCntSnap d a s
  | .cntRdGrp d a => Sys2Proof.Machine.execCntRdGrp d a s
  | .cntSnapGrp d a => Sys2Proof.Machine.execCntSnapGrp d a s
  | .cntOvf d a => Sys2Proof.Machine.execCntOvf d a s
  | .cntOvfSnap d a => Sys2Proof.Machine.execCntOvfSnap d a s
  | .rand d => Sys2Proof.Machine.execRand d s
  | .randBelow d a => Sys2Proof.Machine.execRandBelow d a s
  | .rbind d k b => Sys2Proof.Machine.execRbind d k b s
  | .radd d a b => Sys2Proof.Machine.execRadd d a b s
  | .runbind d a => Sys2Proof.Machine.execRunbind d a s
  | .madd d a b c => Sys2Proof.Machine.execMadd d a b c s
  | .bitf d a p w => Sys2Proof.Machine.execBitf d a p w s
  | .hwait m f c v => Sys2Proof.Machine.execHwait m f c v s
  | .pfx o sc p c f => Sys2Proof.Machine.execPfx o sc p c f s
  | .ld t a z im => Sys2Proof.Machine.execLd t a z im s
  | .ldz t a z im => Sys2Proof.Machine.execLdz t a z im s
  | .st t a z im => Sys2Proof.Machine.execSt t a z im s
  | .ldq q x z a im => Sys2Proof.Machine.execLdq q x z a im s
  | .stq q x z a im => Sys2Proof.Machine.execStq q x z a im s
  | .amo d a b n z => Sys2Proof.Machine.execAmo d a b n z s
  | .cas d a b k z => Sys2Proof.Machine.execCas d a b k z s
  | .scopLd d a z => Sys2Proof.Machine.execScopLd d a z s
  | .scopSt a b z => Sys2Proof.Machine.execScopSt a b z s
  | .scopRmw d a b o z => Sys2Proof.Machine.execScopRmw d a b o z s
  | .ldref t a im => Sys2Proof.Machine.execLdref t a im s
  | .stref t a im => Sys2Proof.Machine.execStref t a im s
  | .pmake k a b p => Sys2Proof.Machine.execPmake k a b p s
  | .post d g k j p f => Sys2Proof.Machine.execPost d g k j p f s
  | .pclaim k a p => Sys2Proof.Machine.execPclaim k a p s
  | .pctlQuery d k => Sys2Proof.Machine.execPctlQuery d k s
  | .pctlFree k => Sys2Proof.Machine.execPctlFree k s
  | .pctlSet a k => Sys2Proof.Machine.execPctlSet a k s
  | .pctlGet d k => Sys2Proof.Machine.execPctlGet d k s
  | .mpush a n => Sys2Proof.Machine.execMpush a n s
  | .pfetch a z im => Sys2Proof.Machine.execPfetch a z im s
  | .cacheDrop a z im => Sys2Proof.Machine.execCacheDrop a z im s
  | .cacheDemote a z im => Sys2Proof.Machine.execCacheDemote a z im s
  | .tktCnt d => Sys2Proof.Machine.execTktCnt d s
  | .tktWait => Sys2Proof.Machine.execTktWait s
  | .tktRd d a => Sys2Proof.Machine.execTktRd d a s
  | .grantMint d a b => Sys2Proof.Machine.execGrantMint d a b s
  | .grantSet a k => Sys2Proof.Machine.execGrantSet a k s
  | .grantGet d k => Sys2Proof.Machine.execGrantGet d k s
  | .tlbopRng d a b => Sys2Proof.Machine.execTlbopRng d a b s
  | .tlbopTen d => Sys2Proof.Machine.execTlbopTen d s
  | .tlbopAll => Sys2Proof.Machine.execTlbopAll s
  | .dirtySnap d a b => Sys2Proof.Machine.execDirtySnap d a b s
  | .dirtyRd d a b => Sys2Proof.Machine.execDirtyRd d a b s
  | .vadd d a b m f => Sys2Proof.Machine.execVadd d a b m f s
  | .vsub d a b m f => Sys2Proof.Machine.execVsub d a b m f s
  | .vmul d a b m f => Sys2Proof.Machine.execVmul d a b m f s
  | .vfma d a b m f => Sys2Proof.Machine.execVfma d a b m f s
  | .vmin d a b m f => Sys2Proof.Machine.execVmin d a b m f s
  | .vmax d a b m f => Sys2Proof.Machine.execVmax d a b m f s
  | .vun d a m f => Sys2Proof.Machine.execVun d a m f s
  | .vcmp d a b m f => Sys2Proof.Machine.execVcmp d a b m f s
  | .vsel d a b m => Sys2Proof.Machine.execVsel d a b m s
  | .vlog d a b m f => Sys2Proof.Machine.execVlog d a b m f s
  | .vshf d a b m f => Sys2Proof.Machine.execVshf d a b m f s
  | .vcvt d a t m f => Sys2Proof.Machine.execVcvt d a t m f s
  | .vscale d a b m f => Sys2Proof.Machine.execVscale d a b m f s
  | .vred d a m f => Sys2Proof.Machine.execVred d a m f s
  | .vscan d a m f => Sys2Proof.Machine.execVscan d a m f s
  | .vperm d a b m f => Sys2Proof.Machine.execVperm d a b m f s
  | .vslide d a c m f => Sys2Proof.Machine.execVslide d a c m f s
  | .vbcast d a l m h => Sys2Proof.Machine.execVbcast d a l m h s
  | .vmov d a m => Sys2Proof.Machine.execVmov d a m s
  | .vmskLogic d a b f => Sys2Proof.Machine.execVmskLogic d a b f s
  | .vmskLd d a => Sys2Proof.Machine.execVmskLd d a s
  | .vmskSt d a => Sys2Proof.Machine.execVmskSt d a s
  | .vmskPop d a => Sys2Proof.Machine.execVmskPop d a s
  | .vsh d a b m f => Sys2Proof.Machine.execVsh d a b m f s
  | .vtag d a t => Sys2Proof.Machine.execVtag d a t s
  | .vacc d r k h m f => Sys2Proof.Machine.execVacc d r k h m f s
  | .vhist a b m f => Sys2Proof.Machine.execVhist a b m f s
  | .vfn d a m f => Sys2Proof.Machine.execVfn d a m f s
  | .viota d t m f => Sys2Proof.Machine.execViota d t m f s
  | .vclamp d a b m => Sys2Proof.Machine.execVclamp d a b m s
  | .vtrn d a b m f => Sys2Proof.Machine.execVtrn d a b m f s
  | .mma k a b u v w => Sys2Proof.Machine.execMma k a b u v w s
  | .mzero k => Sys2Proof.Machine.execMzero k s
  | .mzeroT k => Sys2Proof.Machine.execMzeroT k s
  | .manch k im => Sys2Proof.Machine.execManch k im s
  | .mshape m n k => Sys2Proof.Machine.execMshape m n k s
  | .mfmt a b => Sys2Proof.Machine.execMfmt a b s
  | .mldt k t c l => Sys2Proof.Machine.execMldt k t c l s
  | .msta e j t k o r => Sys2Proof.Machine.execMsta e j t k o r s
  | .mchk e j im c => Sys2Proof.Machine.execMchk e j im c s
  | .mmov d a => Sys2Proof.Machine.execMmov d a s
  | .mmovFmt d t k o r => Sys2Proof.Machine.execMmovFmt d t k o r s
  | .mscl sc => Sys2Proof.Machine.execMscl sc s
  | .msclOne sc => Sys2Proof.Machine.execMsclOne sc s
  | .xset d c => Sys2Proof.Machine.execXset d c s
  | .xgo e j r => Sys2Proof.Machine.execXgo e j r s
  | .xclr => Sys2Proof.Machine.execXclr s
  | .xclrDrop => Sys2Proof.Machine.execXclrDrop s
  | .bootStart => Sys2Proof.Machine.execBootStart s
  | .dieAuthReply => Sys2Proof.Machine.execDieAuthReply s
  | .dieAuthConfirm => Sys2Proof.Machine.execDieAuthConfirm s
  | .dieAuthTimeout => Sys2Proof.Machine.execDieAuthTimeout s
  | .trainingComplete => Sys2Proof.Machine.execTrainingComplete s
  | .getVersion => Sys2Proof.Machine.execGetVersion s
  | .getCapabilities => Sys2Proof.Machine.execGetCapabilities s
  | .negotiateAlgorithms => Sys2Proof.Machine.execNegotiateAlgorithms s
  | .getDigests => Sys2Proof.Machine.execGetDigests s
  | .getCertificate => Sys2Proof.Machine.execGetCertificate s
  | .challenge => Sys2Proof.Machine.execChallenge s
  | .getMeasurements => Sys2Proof.Machine.execGetMeasurements s
  | .unsupportedRequest => Sys2Proof.Machine.execUnsupportedRequest s
  | .packetForward => Sys2Proof.Machine.execPacketForward s
  | .dataFlit => Sys2Proof.Machine.execDataFlit s
  | .idle => Sys2Proof.Machine.execIdle s
  | .nack => Sys2Proof.Machine.execNack s
  | .join => Sys2Proof.Machine.execJoin s
  | .retrain => Sys2Proof.Machine.execRetrain s
  | .replayTimeout => Sys2Proof.Machine.execReplayTimeout s
  | .linkRetrain => Sys2Proof.Machine.execLinkRetrain s
  | .retrainExchangeDone => Sys2Proof.Machine.execRetrainExchangeDone s
  | .keySwitch => Sys2Proof.Machine.execKeySwitch s
  | .read => Sys2Proof.Machine.execRead s
  | .write => Sys2Proof.Machine.execWrite s
  | .amoRequest => Sys2Proof.Machine.execAmoRequest s
  | .casRequest => Sys2Proof.Machine.execCasRequest s
  | .ptry => Sys2Proof.Machine.execPtry s
  | .pdata => Sys2Proof.Machine.execPdata s
  | .pdone => Sys2Proof.Machine.execPdone s
  | .resp => Sys2Proof.Machine.execResp s
  | .notice => Sys2Proof.Machine.execNotice s
  | .requestTimeout => Sys2Proof.Machine.execRequestTimeout s
  | .retryResend => Sys2Proof.Machine.execRetryResend s
  | .shadowRelease => Sys2Proof.Machine.execShadowRelease s
  | .peerincWrite => Sys2Proof.Machine.execPeerincWrite s
  | .gwinWrite => Sys2Proof.Machine.execGwinWrite s
  | .ingressKeyReplace => Sys2Proof.Machine.execIngressKeyReplace s
  | .launchWrite => Sys2Proof.Machine.execLaunchWrite s
  | .cqctlWrite => Sys2Proof.Machine.execCqctlWrite s
  | .vistatRead => Sys2Proof.Machine.execVistatRead s
  | .bar2Read => Sys2Proof.Machine.execBar2Read s
  | .bar2Write => Sys2Proof.Machine.execBar2Write s
  | .functionLevelReset => Sys2Proof.Machine.execFunctionLevelReset s
  | .cxlLinkDown => Sys2Proof.Machine.execCxlLinkDown s
  | .precopyRound => Sys2Proof.Machine.execPrecopyRound s
  | .granuleMessage => Sys2Proof.Machine.execGranuleMessage s
  | .precopyRoundEnd => Sys2Proof.Machine.execPrecopyRoundEnd s
  | .stoppingComplete => Sys2Proof.Machine.execStoppingComplete s
  | .restoreCompleteReport => Sys2Proof.Machine.execRestoreCompleteReport s
  | .restoreFailedReport => Sys2Proof.Machine.execRestoreFailedReport s
  | .launchDecision => Sys2Proof.Machine.execLaunchDecision s
  | .resourceReport => Sys2Proof.Machine.execResourceReport s
  | .drainTimeout => Sys2Proof.Machine.execDrainTimeout s
  | .watchdogExpiry => Sys2Proof.Machine.execWatchdogExpiry s
  | .saveComplete => Sys2Proof.Machine.execSaveComplete s
  | .textPlaneFill => Sys2Proof.Machine.execTextPlaneFill s
  | .bankLive => Sys2Proof.Machine.execBankLive s
  | .taskEnd => Sys2Proof.Machine.execTaskEnd s
  | .scrubComplete => Sys2Proof.Machine.execScrubComplete s
  | .chrstGo => Sys2Proof.Machine.execChrstGo s
  | .restoreReadComplete => Sys2Proof.Machine.execRestoreReadComplete s
  | .serviceTry => Sys2Proof.Machine.execServiceTry s
  | .offerStep => Sys2Proof.Machine.execOfferStep s
  | .holdWindowExpiry => Sys2Proof.Machine.execHoldWindowExpiry s
  | .serviceEExpiry => Sys2Proof.Machine.execServiceEExpiry s
  | .bounceReopen => Sys2Proof.Machine.execBounceReopen s
  | .jobComplete => Sys2Proof.Machine.execJobComplete s
  | .admqWrite => Sys2Proof.Machine.execAdmqWrite s
  | .admdatRead => Sys2Proof.Machine.execAdmdatRead s
  | .rslotWrite => Sys2Proof.Machine.execRslotWrite s
  | .frameBoundary => Sys2Proof.Machine.execFrameBoundary s
  | .slotAllocatorRequest => Sys2Proof.Machine.execSlotAllocatorRequest s
  | .mptabWrite => Sys2Proof.Machine.execMptabWrite s
  | .qmodeWrite => Sys2Proof.Machine.execQmodeWrite s
  | .powerSample => Sys2Proof.Machine.execPowerSample s
  | .voltageStepDone => Sys2Proof.Machine.execVoltageStepDone s
  | .frequencyStepDone => Sys2Proof.Machine.execFrequencyStepDone s
  | .droop => Sys2Proof.Machine.execDroop s
  | .stretchEnd => Sys2Proof.Machine.execStretchEnd s
  | .pclusWrite => Sys2Proof.Machine.execPclusWrite s
  | .pclusRead => Sys2Proof.Machine.execPclusRead s
  | .pwrcfgWrite => Sys2Proof.Machine.execPwrcfgWrite s
  | .refcfgSync => Sys2Proof.Machine.execRefcfgSync s
  | .bitmapLoaded => Sys2Proof.Machine.execBitmapLoaded s
  | .refresh => Sys2Proof.Machine.execRefresh s
  | .temperatureEvent => Sys2Proof.Machine.execTemperatureEvent s
  | .pathFollow => Sys2Proof.Machine.execPathFollow s
  | .bankSwitchOut => Sys2Proof.Machine.execBankSwitchOut s
  | .queueTrap => Sys2Proof.Machine.execQueueTrap s
  | .loadDataArrival => Sys2Proof.Machine.execLoadDataArrival s
  | .headerPass => Sys2Proof.Machine.execHeaderPass s
  | .rendezvous => Sys2Proof.Machine.execRendezvous s
  | .matrixCommandBegin => Sys2Proof.Machine.execMatrixCommandBegin s
  | .matrixCommandComplete => Sys2Proof.Machine.execMatrixCommandComplete s
  | .vectorWordComplete => Sys2Proof.Machine.execVectorWordComplete s
  | .transferGranuleStart => Sys2Proof.Machine.execTransferGranuleStart s
  | .transferGranuleComplete => Sys2Proof.Machine.execTransferGranuleComplete s
  | .migrateRequest => Sys2Proof.Machine.execMigrateRequest s
  | .batchClose => Sys2Proof.Machine.execBatchClose s
  | .batchDeliver => Sys2Proof.Machine.execBatchDeliver s
  | .fcheadWrite => Sys2Proof.Machine.execFcheadWrite s
  | .fcbufWrite => Sys2Proof.Machine.execFcbufWrite s
  | .fcansRetry => Sys2Proof.Machine.execFcansRetry s
  | .fcansAccess => Sys2Proof.Machine.execFcansAccess s
  | .handlerEntry => Sys2Proof.Machine.execHandlerEntry s
  | .writeApply => Sys2Proof.Machine.execWriteApply s
  | .scopPerform => Sys2Proof.Machine.execScopPerform s
  | .barrierComplete => Sys2Proof.Machine.execBarrierComplete s
  | .interruptMessage => Sys2Proof.Machine.execInterruptMessage s
  | .registerWrite => Sys2Proof.Machine.execRegisterWrite s
  | .illegalWord => Sys2Proof.Machine.execIllegalWord s
  | .linkTraining => Sys2Proof.Machine.execLinkTraining s
  | .precopyJobStart => Sys2Proof.Machine.execPrecopyJobStart s
  | .portSlot => Sys2Proof.Machine.execPortSlot s

end Sys2Proof.Machine
end

