-- ==== Sys2Proof/Machine/Time.lean ====
section
/-! DEFINITION. The passing of time (R3): the ac of each cluster's clock (R107, R108, R113) and what counts
in them. -/

namespace Sys2Proof.Machine

open Sys2Proof

/-- The length of the ac in progress of a cluster, in millionths of an ac: a stretched one takes two (R113). DESIGN CHOICE
(log entry 126): the ac in which a droop is detected is itself stretched, as the first of the 128. -/
def Cluster.length (c : Cluster) : Nat := if c.stretch = 0 then 1000000 else 2000000

/-- A cluster whose clock stops at the next ac boundary (R108), over some picoseconds at `f` MHz. -/
def Cluster.runOut (c : Cluster) (f ps : Nat) : Nat × Cluster :=
  if c.frac + ps * f < c.length then (0, { c with frac := c.frac + ps * f })
  else (1, { c with ac := c.ac + 1, frac := 0, stretch := c.stretch - 1, quiet := c.quiet - 1, stopped := true,
                    stopping := false })

/-- A cluster's clock over some picoseconds at `f` MHz, in millionths of an ac; while the clock stands no ac passes
(R108). The ac that end, and the cluster after them. -/
def Cluster.run (c : Cluster) (f ps : Nat) : Nat × Cluster :=
  if c.stopped then (0, c)
  else if c.stopping then c.runOut f ps
  else
    let total := c.frac + ps * f
    let slow := Nat.min c.stretch (total / 2000000)
    let rest := total - slow * 2000000
    let fast := if slow = c.stretch then rest / 1000000 else 0
    let n := slow + fast
    (n, { c with ac := c.ac + n, frac := rest - fast * 1000000, stretch := c.stretch - slow,
                 quiet := c.quiet - n })

/-- A live bank over `n` ac: watchdog (R74), ETA (R71), CYCLE (R289), the time without progress (R127), and how long
each of its faults has waited (R148); what was noted of the ac that has ended is settled (R385). -/
def State.bankAc (s : State) (n b : Nat) : State :=
  let B := s.bank b
  if n = 0 then s
  else if B.status ≠ .live then (if B.now = .none then s else s.setBank b { B with now := .none })
  else
    let still := s.nothingOut b
    let B := (B.csrPut csrETA (B.csrGet csrETA - BitVec.ofNat 64 (Nat.min n (B.csrGet csrETA).toNat))).csrPut
      csrCYCLE (B.csrGet csrCYCLE + BitVec.ofNat 64 n)
    let out := { B.out with faults := B.out.faults.map (fun f => { f with age := f.age + n }) }
    s.setBank b (Bank.settle { B with
      out := out
      n := { watchdog := if B.atHeader then 0 else B.n.watchdog + n
             idle := if ! still then 0 else if B.n.still && ! B.now.passed then B.n.idle + n else n - 1
             still := still }
      now := .none })

/-- Picoseconds until the ac in progress of a cluster has ended. -/
def State.toBoundary (s : State) (cl : Nat) : Nat :=
  let c := s.cluster cl
  (c.length - c.frac + s.mhz cl - 1) / s.mhz cl

/-- The live banks of a cluster. -/
def State.liveBanks (s : State) (cl : Nat) : List Nat :=
  ((List.range 16).map (fun i => 16 * cl + i)).filter (fun b => decide ((s.bank b).status = .live))

/-- Of `n` ac, those in which every live bank is stalled on memory (R109, R379): none of its strands issues or
passes a word and no matrix command of it runs. -/
def State.stalledAc (s : State) (n cl : Nat) : Nat :=
  let bs := s.liveBanks cl
  if bs.any (fun b => (s.bank b).mat.window.any (·.begun)) then 0
  else if bs.any (fun b => ! (s.bank b).now.issued.isEmpty || (s.bank b).now.ran) then n - 1
  else n

/-- A cluster over some picoseconds. -/
def State.clusterRun (s : State) (ps cl : Nat) : State :=
  let (n, c) := (s.cluster cl).run (s.mhz cl) ps
  let live := ! (s.liveBanks cl).isEmpty
  let c := { c with live := if live then c.live + n else c.live
                    stalled := if live then c.stalled + s.stalledAc n cl else c.stalled }
  ((List.range 16).map (fun i => 16 * cl + i)).foldl (fun s b => s.bankAc n b) (s.updCluster cl (fun _ => c))

/-- Time passes. -/
def State.elapse (s : State) (ps : Nat) : State :=
  if ps = 0 then s
  else
    let s := (List.range 64).foldl (fun s cl => s.clusterRun ps cl) s
    { s with time := s.time + ps }

end Sys2Proof.Machine
end

