-- ==== Sys2Proof/Machine/Fetch.lean ====
section
/-! DEFINITION. The next turn of the agenda, the word that a strand fetches (R118, R120), and the placing of a word
where the next step fetches it. -/

namespace Sys2Proof.Machine

open Sys2Proof

/-- The instruction that a strand fetches: what the word at its program counter decodes to, or the event of
a word that no row matches (R223), with that word as the event's input. -/
def fetchInstr (s : State) (b : Nat) (e : Strand) : Instr × State :=
  let B := s.bank b
  let w := B.wordAt (B.walker e).pc
  match decodeWord w with
  | some i => (i, s)
  | none => (.illegalWord, { s with input := { Input.none with value := w.setWidth 128 } })

/-- The turn that comes next: the head of the agenda. With an empty agenda a module in reset leaves it
(R26), and otherwise the strand that moved last moves again, no time passing (log entry 1). -/
def State.nextTurn (s : State) : Turn × State :=
  match s.agenda with
  | t :: rest => (t, { s with agenda := rest })
  | [] =>
    ({ ps := 0,
       act := if s.phase = .inReset then .event .bootStart Input.none
              else .strand s.cur.bank s.cur.strand }, s)

/-- The strand that executes a word: the one that owns its tag, C for a header or prefix word. -/
def strandOfTag (tag : Nat) : Strand :=
  match tag with
  | 2 => .v
  | 3 => .m
  | 4 => .x
  | _ => .c

/-- A bank with a word where a strand stands, and nothing that keeps the strand from it. -/
def Bank.placeWord (B : Bank) (sys : Bool) (e : Strand) (w : BitVec 32) : Bank :=
  let k := B.walker e
  let at_ := fun (x : Walker) => { x with pc := k.pc, walk := k.walk, stall := .none, pfx := none }
  { B with
    status := if sys then .system else .live
    text := KV.put B.text k.pc w
    words := Nat.max B.words (k.pc + 1)
    wc := at_ B.wc
    wv := at_ B.wv
    wm := at_ B.wm
    wx := at_ B.wx
    out := { B.out with out := false, faults := [] }
    trap := TrapState.none
    now := .none }

/-- The core of a bank with nothing that keeps a strand of the bank from its word in the present ac: its cluster's clock
runs, and its engine serves the bank (R108, R123). A `scop` that waits takes its wheel position later (R196). -/
def State.clearWay (s : State) (b : Nat) (e : Strand) : State :=
  if isSys b then s
  else
    let s := if (s.bank (mate b)).now = .none then s else s.updBank (mate b) (fun B => { B with now := .none })
    let s := if (s.cluster (clusterOf b)).stopped then s.updCluster (clusterOf b) (fun c => { c with stopped := false })
      else s
    let s := if KV.get 0 (s.core (coreOf b)).turn e.code = b % 2 then s
      else s.updCore (coreOf b) (fun c => { c with turn := KV.put c.turn e.code (b % 2) })
    { s with banks := s.banks.map (fun x => (x.1, x.2.onOut (fun o => { o with
        scop := o.scop.map (fun r => { r with ready := none }) }))) }

end Sys2Proof.Machine
end

