-- ==== Sys2Proof/Machine/Turns.lean ====
section
/-! DEFINITION. What a turn runs: time and the slot wheel (R195, R196), the clock of a cluster (R108), and the choice
of an engine among the banks of its core (R123). -/

namespace Sys2Proof.Machine

open Sys2Proof Host

/-! ### Readiness (R123) -/

/-- The state in which a strand executes its word. -/
def State.acting (s : State) (b : Nat) (e : Strand) : State := { s with cur := { bank := b, strand := e } }

/-- What an instruction leaves, where it gives a next state. -/
def State.after (s : State) (i : Instr) : State :=
  match exec i s with
  | .next t => t
  | _ => s

/-- The strand would issue the word it stands at in an ac in which it has not issued yet: it neither stalls there nor
skips the word. -/
def State.wouldIssue (s : State) (b : Nat) (e : Strand) : Bool :=
  let s := s.updBank b (·.onNow (fun n => { n with issued := n.issued.filter (fun k => k ≠ e) }))
  let (i, s) := fetchInstr (s.acting b e) b e
  ((s.after i).bank b).now.issued.contains e

/-- The event with which an engine begins a command or starts a granule. -/
def beginEvent : Strand → Option Instr
  | .m => some .matrixCommandBegin
  | .x => some .transferGranuleStart
  | _ => none

/-- The engine could begin a command or start a granule of a bank. -/
def State.wouldBegin (s : State) (b : Nat) (e : Strand) : Bool :=
  match beginEvent e with
  | none => false
  | some i =>
    let s := s.updBank b (·.onNow (fun n => { n with begun := n.begun.filter (fun k => k ≠ e) }))
    ((({ s with input := { Input.none with who := b } } : State).after i).bank b).now.begun.contains e

/-- A bank is ready for an engine. -/
def State.readyFor (s : State) (b : Nat) (e : Strand) : Bool :=
  (mayIssue s b e && s.wouldIssue b e) || s.wouldBegin b e

/-- The bank, 0 or 1 of its core, that an engine serves where both are ready: the one not served the last time both
were, and 0 the first time (R123). -/
def State.engineTurn (s : State) (b : Nat) (e : Strand) : Nat := KV.get 0 (s.core (coreOf b)).turn e.code

/-- The choice of an engine for a bank that is ready for it: none where it serves the other bank, else the state in
which the bank is served. -/
def State.choose (s : State) (b : Nat) (e : Strand) : Option State :=
  if ! s.readyFor (mate b) e then some s
  else if s.engineTurn b e ≠ b % 2 then none
  else some (s.updCore (coreOf b) (fun c => { c with turn := KV.put c.turn e.code (1 - b % 2) }))

/-- The strands of a bank that an instruction would make issue or pass a word, in an ac in which none of them has. -/
def State.passers (s : State) (b : Nat) (i : Instr) : List Strand :=
  (((s.updBank b (·.onNow (fun n => { n with issued := [] }))).after i).bank b).now.issued

/-- The choice of each of some engines for a bank: none where one of them serves the other bank. -/
def State.chooseAll (s : State) (b : Nat) (es : List Strand) : Option State :=
  es.foldl (fun s e => s.bind (fun s => s.choose b e)) (some s)

/-- Strands of which one has issued in the present ac, or has seen its engine serve the other bank in it, go on in the
next ac. -/
def State.awaitEngines (s : State) (b : Nat) (es : List Strand) : State :=
  if es.any (fun e => (s.bank b).now.issued.contains e || ! s.engineFree b e) then s.elapse (s.toBoundary (clusterOf b))
  else s

/-! ### The turn of a strand -/

/-- The clock of a bank's cluster runs (R108); the system cores stand in no cluster. -/
def State.clocked (s : State) (b : Nat) : Bool := isSys b || ! (s.cluster (clusterOf b)).stopped

/-- What the turn of a strand runs. -/
def State.strandTurn (s : State) (b : Nat) (e : Strand) : Option Instr × State :=
  let s := s.acting b e
  if ! (mayIssue s b e && s.clocked b) then (none, s)
  else if isSys b then
    let (i, s) := fetchInstr s b e
    (some i, s)
  else
    let (i, t) := fetchInstr s b e
    let s := s.awaitEngines b (t.passers b i)
    if ! (mayIssue s b e && s.clocked b) then (none, s)
    else
      let (i, t) := fetchInstr s b e
      match t.chooseAll b (t.passers b i) with
      | none => (none, s)
      | some s => (some i, s)

/-! ### The turn of an event -/

/-- The events in which a bank's own engines act: none happens while its cluster's clock stands (R108). -/
def inCluster : Instr → Bool
  | .pathFollow | .bankSwitchOut | .queueTrap | .loadDataArrival | .headerPass | .rendezvous | .matrixCommandBegin
  | .matrixCommandComplete | .vectorWordComplete | .transferGranuleStart | .transferGranuleComplete | .handlerEntry
  | .watchdogExpiry => true
  | _ => false

/-- The events in which a service instance decides or works. -/
def atInstance : Instr → Bool
  | .serviceTry | .offerStep | .holdWindowExpiry | .serviceEExpiry | .jobComplete => true
  | _ => false

/-- The clock that an event needs runs: that of its bank's cluster, and that of the cluster whose special-function or
gather engine it is about (R84, R108). -/
def State.eventClocked (s : State) (i : Instr) (who : Nat) : Bool :=
  (! inCluster i || s.clocked who) &&
    ! (atInstance i && decide (entryKind who = 1 ∨ entryKind who = 2) && (s.cluster (who % 64)).stopped)

/-- The event lets strands of its bank pass words. -/
def passesWords : Instr → Bool
  | .pathFollow | .headerPass | .rendezvous => true
  | _ => false

/-- The engine that an event asks for (R123). -/
def engineOf : Instr → Option Strand
  | .matrixCommandBegin => some .m
  | .transferGranuleStart => some .x
  | _ => none

/-- The engines that an event of a bank takes. -/
def State.engines (s : State) (i : Instr) (b : Nat) : List Strand :=
  if passesWords i then s.passers b i
  else match engineOf i with
    | some e => if s.wouldBegin b e then [e] else []
    | none => []

/-- What the turn of an event runs; a word is no event. -/
def State.eventTurn (s : State) (i : Instr) (inp : Input) : Option Instr × State :=
  let s := { s with input := inp }
  if i.isWord || ! s.eventClocked i inp.who then (none, s)
  else
    let s := if passesWords i then s.awaitEngines inp.who (s.engines i inp.who) else s
    if ! s.eventClocked i inp.who then (none, s)
    else match s.chooseAll inp.who (s.engines i inp.who) with
      | none => (none, s)
      | some s => (some i, s)

/-! ### The turn -/

/-- The first `scop` that falls due by a time, and when: at the first wheel position that its bank holds after it has
become ready (R196). -/
def State.dueScop (s : State) (by_ : Nat) : Option (Nat × Nat) :=
  let due := s.banks.filterMap (fun x =>
    match s.scopDue x.1 with
    | some k => if wheelHolds x.1 x.2.place.wheel (k % 4096) && decide (tickStart k ≤ by_) then some (x.1, tickStart k) else none
    | none => none)
  due.foldl (fun best x => match best with
    | none => some x
    | some y => if x.2 < y.2 then some x else best) none

/-- What the next turn runs, and the state in which it runs; none where the agent cannot move. A `scop` that falls due
before it goes first. -/
def State.takeTurn (s : State) : Option Instr × State :=
  let (t, s) := s.nextTurn
  let s := s.noteReady
  match s.dueScop (s.time + t.ps) with
  | some (b, at_) =>
    let ps := at_ - s.time
    let s := s.elapse ps
    (some .scopPerform, { s with input := { Input.none with who := b }, agenda := { t with ps := t.ps - ps } :: s.agenda })
  | none =>
    let s := s.elapse t.ps
    match t.act with
    | .strand b e => s.strandTurn b e
    | .event i inp => s.eventTurn i inp

end Sys2Proof.Machine
end

