-- ==== Sys2Proof/Machine/Step.lean ====
section
/-! DEFINITION. One step of the machine: one turn, which runs one row of the table. -/

namespace Sys2Proof.Machine

open Sys2Proof Host

/-- One step. -/
def step (s : State) : Outcome State Fault Refusal :=
  match s.takeTurn with
  | (some i, t) => exec i t
  | (none, t) => .next t

/-- The state with an instruction's word placed where the next step fetches it: in the text plane of the
current bank, at the program counter of the strand that owns the word, with that strand's turn at the head
of the agenda (log entry 1). An event has no bits and no word. -/
def State.withFetchWord (s : State) (nbits w : Nat) : State :=
  let word := BitVec.ofNat 32 (w % 2 ^ nbits)
  let b := s.cur.bank
  let e := if isSys b then .c else strandOfTag (tagOf word.toNat)
  { (s.updBank b (·.placeWord (isSys b) e word)).clearWay b e with
    agenda := { ps := 0, act := .strand b e } :: s.agenda
    phase := if isSys b then .running else s.phase }

end Sys2Proof.Machine
end

