-- ==== Sys2Proof/WellFormed.lean ====
section
/-! DEFINITION. Well-formed instructions: the words whose function values, operand codes and register codes
their entries allow (R223). An event of another agent is no word of a text. -/

namespace Sys2Proof

/-- A word that a text may hold and that its strand executes. -/
def Instr.wf (i : Instr) : Bool := i.isWord && i.legal

end Sys2Proof
end

