-- ==== Sys2Proof/Safety.lean ====
section
/-! DEFINITION. The terms in which claims about the machine are stated: the canonical form of its memories, a
strand that is ready for a word, and what a word leaves as it was. -/

namespace Sys2Proof.Machine

open Sys2Proof Host

/-! ### A safe run -/

/-- Every memory that the state holds is in canonical form: the module's by physical address, the scratchpads', and
the host's. -/
def State.memOk (s : State) : Bool := s.mem.wf && s.scr.wf && s.host.mem.wf

/-- A step goes on: it neither faults nor is refused. -/
def StepGoesOn (s : State) : Prop := ∃ t, step s = .next t

/-- An instruction runs to a next state of which `P` holds. -/
def Goes (i : Instr) (s : State) (P : State → Prop) : Prop := ∃ t, exec i s = .next t ∧ P t

/-! ### The strand that moves -/

/-- The bank whose strand executes a word. -/
def State.here (s : State) : Bank := s.bank s.cur.bank

/-- A scalar of that bank. -/
def State.reg (s : State) (n : BitVec 6) : Word := s.here.r.readS n.toNat

/-- The control strand of a task executes a word whose registers `rs` are not pending (R247, R295): a scalar by its
number, a predicate as 64 and its number. -/
structure CtlReady (s : State) (rs : List Nat) : Prop where
  strand : s.cur.strand = .c
  task : isSys s.cur.bank = false
  free : s.here.anyPending rs = false

/-- The control strand of a system core executes a word (R290). -/
structure SysReady (s : State) (rs : List Nat) : Prop where
  strand : s.cur.strand = .c
  system : isSys s.cur.bank = true
  free : s.here.anyPending rs = false

/-! ### What stays as it was -/

/-- Nothing has changed but bank `b`. -/
def OnlyBank (b : Nat) (s t : State) : Prop :=
  t = { s with banks := t.banks } ∧ ∀ c, c ≠ b → t.bank c = s.bank c

/-- A bank apart from its strands' walks, its registers, its counts of ac and the record of the present ac: its status,
placement and text, its queues, system registers, matrix, transfer and vector state, what it has outstanding, its traps,
its counters. -/
def Bank.rest (B : Bank) : Bank :=
  { B with wc := Walker.zero, wv := Walker.zero, wm := Walker.zero, wx := Walker.zero, r := Regs.zero,
           n := AcCounts.zero, now := AcNow.none }

/-- Strand `e` of bank `b` goes on at `pc`, its walk index rising by one outside handler mode (R119, R164); the
other strands stand where they stood. -/
def Advanced (b : Nat) (e : Strand) (pc : Nat) (s t : State) : Prop :=
  ((t.bank b).walker e).pc = pc ∧
  ((t.bank b).walker e).walk =
    (if (s.bank b).trap.handler then ((s.bank b).walker e).walk else ((s.bank b).walker e).walk + 1) ∧
  ∀ k, k ≠ e → ((t.bank b).walker k).pc = ((s.bank b).walker k).pc ∧
    ((t.bank b).walker k).walk = ((s.bank b).walker k).walk ∧
    ((t.bank b).walker k).path = ((s.bank b).walker k).path

/-- Registers apart from the scalars and their bindings. -/
def Regs.apartScalars (r : Regs) : Regs := { r with s := [], bind := [] }

/-- A control word has written scalar `d` with `x`, its binding 0, and nothing else: it discards a write to s0, every
other scalar keeps its value and its binding, and the control strand has passed the word. -/
def WroteScalar (s t : State) (d : Nat) (x : Word) : Prop :=
  let b := s.cur.bank
  OnlyBank b s t ∧ (t.bank b).rest = (s.bank b).rest ∧ Advanced b .c ((s.bank b).wc.pc + 1) s t ∧
  (t.bank b).r.apartScalars = (s.bank b).r.apartScalars ∧
  (t.bank b).r.readS d = (if d = 0 then 0 else x) ∧ (t.bank b).r.binding d = 0 ∧
  ∀ n, n ≠ d → (t.bank b).r.readS n = (s.bank b).r.readS n ∧ (t.bank b).r.binding n = (s.bank b).r.binding n

/-- A control word has written scalar `d` with `x`, its binding `k`, and nothing else; it discards a write to s0. -/
def WroteBound (s t : State) (d : Nat) (x : Word) (k : Nat) : Prop :=
  let b := s.cur.bank
  OnlyBank b s t ∧ (t.bank b).rest = (s.bank b).rest ∧ Advanced b .c ((s.bank b).wc.pc + 1) s t ∧
  (t.bank b).r.apartScalars = (s.bank b).r.apartScalars ∧
  (t.bank b).r.readS d = (if d = 0 then 0 else x) ∧ (t.bank b).r.binding d = (if d = 0 then 0 else k) ∧
  ∀ n, n ≠ d → (t.bank b).r.readS n = (s.bank b).r.readS n ∧ (t.bank b).r.binding n = (s.bank b).r.binding n

/-- A control word has written predicate `p` with `x` and nothing else: it discards a write to p0. -/
def WrotePredicate (s t : State) (p : Nat) (x : Bool) : Prop :=
  let b := s.cur.bank
  OnlyBank b s t ∧ (t.bank b).rest = (s.bank b).rest ∧ Advanced b .c ((s.bank b).wc.pc + 1) s t ∧
  { (t.bank b).r with p := 0 } = { (s.bank b).r with p := 0 } ∧
  (t.bank b).r.readP p = (if p = 0 then true else x) ∧
  ∀ n, n < 16 → n ≠ p → (t.bank b).r.readP n = (s.bank b).r.readP n

/-- The word gives scalar `d` the value `x`, and has no other effect. -/
def GivesScalar (i : Instr) (s : State) (d : BitVec 6) (x : Word) : Prop :=
  Goes i s (fun t => WroteScalar s t d.toNat x)

/-- The word gives predicate `p` the value `x`, and has no other effect. -/
def GivesPredicate (i : Instr) (s : State) (p : BitVec 4) (x : Bool) : Prop :=
  Goes i s (fun t => WrotePredicate s t p.toNat x)

/-- The word traps precisely in strand `e` of the current bank (R163): the trap waits to be taken at the word, with
its code and TVAL, and nothing else has changed. -/
def Traps (i : Instr) (s : State) (e : Strand) (code : Nat) (tval : Word) : Prop :=
  exec i s = .next (s.updBank s.cur.bank (fun B => { B with trap := { B.trap with
    pending := B.trap.pending ++ [{ strand := e, code := code, tval := tval, walk := (B.walker e).walk,
                                    pc := (B.walker e).pc, deferred := false, arose := B.trap.handler }] } }))

/-- The word is passed, and nothing else has changed. -/
def OnlyPasses (e : Strand) (s t : State) : Prop :=
  let b := s.cur.bank
  OnlyBank b s t ∧ (t.bank b).rest = (s.bank b).rest ∧
    Advanced b e (((s.bank b).walker e).pc + 1) s t ∧ (t.bank b).r = (s.bank b).r

/-- Increments that flag `k` of the strand's bank has taken in the present ac (R135). -/
def State.incsNow (s : State) (k : BitVec 4) : BitVec 20 := KV.get 0 s.here.now.flagInc k.toNat

/-- The control strand of a task, outside handler mode and with room in every path FIFO, executes a path word whose
outcome the other strands do not know yet. -/
structure PathReady (s : State) (rs : List Nat) : Prop extends CtlReady s rs where
  plain : s.here.trap.handler = false
  first : s.here.again = 0
  room : s.here.pathFull = false

/-- The control strand of a task executes a path word in handler mode, where it alone walks (R164). -/
structure PathAlone (s : State) (rs : List Nat) : Prop extends CtlReady s rs where
  alone : s.here.trap.handler = true

/-- A path word has sent the control strand to `next` and pushed it into all three path FIFOs (R121, R260); nothing
else of the state has changed but, where `link` names one, scalar `link.1`, which holds `link.2`. -/
def Redirected (s t : State) (next : Nat) (link : Option (Nat × Word)) : Prop :=
  let b := s.cur.bank
  let B := s.bank b
  let B' := t.bank b
  OnlyBank b s t ∧ B'.rest = B.rest ∧ B'.wc.pc = next ∧ B'.wc.walk = B.wc.walk + 1 ∧
  (∀ e, e ≠ .c → (B'.walker e).pc = (B.walker e).pc ∧ (B'.walker e).walk = (B.walker e).walk ∧
    (B'.walker e).path = (B.walker e).path ++ [next]) ∧
  B'.r = (match link with | some (n, x) => B.r.writeS n x | none => B.r)

/-- A path word has sent the control strand of a handler to `next`: its walk index stays, and no other strand hears of
it (R164). -/
def RedirectedAlone (s t : State) (next : Nat) (link : Option (Nat × Word)) : Prop :=
  let b := s.cur.bank
  let B := s.bank b
  let B' := t.bank b
  OnlyBank b s t ∧ B'.rest = B.rest ∧ B'.wc.pc = next ∧ B'.wc.walk = B.wc.walk ∧
  (∀ e, e ≠ .c → (B'.walker e).pc = (B.walker e).pc ∧ (B'.walker e).walk = (B.walker e).walk ∧
    (B'.walker e).path = (B.walker e).path) ∧
  B'.r = (match link with | some (n, x) => B.r.writeS n x | none => B.r)

/-- A control word has set flag `k` to `x` and nothing else, and every flag reads in the present ac as it did (R135). -/
def WroteFlag (s t : State) (k : BitVec 4) (x : BitVec 20) : Prop :=
  let b := s.cur.bank
  OnlyBank b s t ∧ (t.bank b).rest = (s.bank b).rest ∧ Advanced b .c ((s.bank b).wc.pc + 1) s t ∧
  { (t.bank b).r with f := [] } = { (s.bank b).r with f := [] } ∧
  (t.bank b).r.readF k.toNat = x ∧
  (∀ n, n ≠ k.toNat → (t.bank b).r.readF n = (s.bank b).r.readF n) ∧ ∀ n, (t.bank b).flagAt n = (s.bank b).flagAt n

/-- A control word has changed the bank's queues to `q`, and nothing else but, where `dst` names one, the scalar that
takes what was popped. -/
def MovedQueue (s t : State) (q : Queues) (dst : Option (Nat × Word)) : Prop :=
  let b := s.cur.bank
  OnlyBank b s t ∧ (t.bank b).q = q ∧
  { (t.bank b).rest with q := (s.bank b).q } = (s.bank b).rest ∧ Advanced b .c ((s.bank b).wc.pc + 1) s t ∧
  (t.bank b).r = (match dst with | some (n, x) => (s.bank b).r.writeS n x | none => (s.bank b).r)

/-- A strand has passed a word that does not concern it: no register, queue, system register, command or access has
changed, nothing outside the bank has, and the strand stands at the next word. -/
def Skipped (e : Strand) (s t : State) : Prop :=
  let b := s.cur.bank
  let B := s.bank b
  let B' := t.bank b
  OnlyBank b s t ∧ B'.r = B.r ∧ B'.q = B.q ∧ B'.csr = B.csr ∧ B'.mat = B.mat ∧ B'.xfer = B.xfer ∧ B'.vec = B.vec ∧
  B'.trap = B.trap ∧ B'.cnt = B.cnt ∧ B'.text = B.text ∧ B'.status = B.status ∧ B'.place = B.place ∧
  B'.out.acc = B.out.acc ∧ B'.out.faults = B.out.faults ∧ B'.out.tkt = B.out.tkt ∧
  Advanced b e ((B.walker e).pc + 1) s t

/-- The strand that executes a word (R118): none for a header or a prefix, which no strand owns. -/
def owner : Instr → Option Strand
  | .vadd .. | .vsub .. | .vmul .. | .vfma .. | .vmin .. | .vmax .. | .vun .. | .vcmp .. | .vsel ..
  | .vlog .. | .vshf .. | .vcvt .. | .vscale .. | .vred .. | .vscan .. | .vperm .. | .vslide ..
  | .vbcast .. | .vmov .. | .vmskLogic .. | .vmskLd .. | .vmskSt .. | .vmskPop .. | .vsh .. | .vtag ..
  | .vacc .. | .vhist .. | .vfn .. | .viota .. | .vclamp .. | .vtrn .. => some .v
  | .mma .. | .mzero .. | .mzeroT .. | .manch .. | .mshape .. | .mfmt .. | .mldt .. | .msta .. | .mchk ..
  | .mmov .. | .mmovFmt .. | .mscl .. | .msclOne .. => some .m
  | .xset .. | .xgo .. | .xclr | .xclrDrop => some .x
  | .hwait .. | .pfx .. => none
  | _ => some .c

/-- A word at which every strand stops until all four have reached it (R249). -/
def meets : Instr → Bool
  | .pwrAcq .. | .pwrRel => true
  | .csr _ a i => csrMeets a.toNat i.toNat
  | _ => false

/-! ### Tables of the spec -/

/-- The conditions of two scalars by their codes 0 to 11 (R256). -/
def condTable (x y : Word) : List Bool :=
  [decide (x = y), decide (x ≠ y), decide (x.toInt < y.toInt), decide (x.toInt ≤ y.toInt),
   decide (y.toInt < x.toInt), decide (y.toInt ≤ x.toInt), decide (x.toNat < y.toNat), decide (x.toNat ≤ y.toNat),
   decide (y.toNat < x.toNat), decide (y.toNat ≤ x.toNat), decide (x &&& y ≠ 0), decide (x &&& y = 0)]

/-- What a predicate becomes from its old value and a condition, by the combine codes 0 to 5 (R256). -/
def combTable (p c : Bool) : List Bool := [c, p && c, p || c, xor p c, p && ! c, p || ! c]

/-! ### Vector, matrix and transfer words -/

/-- The plan of each vector word: what it needs, reads and makes. -/
def vecPlanOf : Instr → Option (Bank → Nat → VecPlan)
  | .vadd d a b m f => some (planVadd d a b m f)
  | .vsub d a b m f => some (planVsub d a b m f)
  | .vmul d a b m f => some (planVmul d a b m f)
  | .vfma d a b m f => some (planVfma d a b m f)
  | .vmin d a b m f => some (planPick false d a b m f)
  | .vmax d a b m f => some (planPick true d a b m f)
  | .vun d a m f => some (planVun d a m f)
  | .vcmp d a b m f => some (planVcmp d a b m f)
  | .vsel d a b m => some (planVsel d a b m)
  | .vlog d a b m f => some (planVlog d a b m f)
  | .vshf d a b m f => some (planVshf d a b m f)
  | .vcvt d a t m f => some (planVcvt d a t m f)
  | .vscale d a b m f => some (planVscale d a b m f)
  | .vred d a m f => some (planVred d a m f)
  | .vscan d a m f => some (planVscan d a m f)
  | .vperm d a b m f => some (planVperm d a b m f)
  | .vslide d a c m f => some (planVslide d a c m f)
  | .vbcast d a l m h => some (planVbcast d a l m h)
  | .vmov d a m => some (planVmov d a m)
  | .vmskLogic d a b f => some (fun B _ => plainPlan [] none (fun _ =>
      .mask d.toNat (maskOp f.toNat (B.r.readM a.toNat) (B.r.readM b.toNat)).toNat))
  | .vmskLd d a => some (fun B _ => plainPlan [(a, tagBits (B.opTag a))] none (fun xs =>
      .mask d.toNat (lane0 xs % 2 ^ 512)))
  | .vmskSt d a => some (fun B _ => plainPlan [] (some d) (fun _ => .op d.toNat (B.r.readM a.toNat).toNat 2))
  | .vmskPop d a => some (fun B _ => plainPlan [] (some d) (fun _ =>
      .op d.toNat (popOf 512 (B.r.readM a.toNat).toNat) 6))
  | .vsh d a b m f => some (planVsh d a b m f)
  | .vtag d a t => some (fun _ _ => plainPlan [(a, tagBits t.toNat)] (some d) (fun xs =>
      .op d.toNat (lane0 xs) t.toNat))
  | .vacc d r k h m f => some (planVacc d r k h m f)
  | .vhist a b m f => some (planVhist a b m f)
  | .vfn d a m f => some (planVfn d a m f)
  | .viota d t m f => some (planViota d t m f)
  | .vclamp d a b m => some (planVclamp d a b m)
  | .vtrn d a b m f => some (planVtrn d a b m f)
  | _ => none

/-- The vector strand of a task stands at a word whose bits are legal and whose tags its plan accepts. -/
structure VecTagged (s : State) (i : Instr) (p : VecPlan) : Prop where
  strand : s.cur.strand = .v
  task : isSys s.cur.bank = false
  legal : i.legal = true
  tags : p.tagOk = true

/-- A vector word may issue: its task's level suffices, its sources are there, what it has to wait for of the matrix
strand has completed, and its destination has room (R325 to R327, R345). -/
structure VecReady (s : State) (i : Instr) (p : VecPlan) : Prop extends VecTagged s i p where
  level : p.level ≤ s.here.level
  sources : ∀ c, c ∈ p.srcs → s.here.srcStall c.1 = none
  order : accReady s.here i = true
  room : s.here.hasRoom p.dst = true

/-- What source code `c` reads at a word, its head of cq spread at width `e` (R325). -/
def State.vecSrc (s : State) (c : BitVec 6) (e : Nat) : Nat := s.here.vecView.srcValue s.freeCtr (c, e)

/-- A word in flight is to give destination code `d` the content `x`, and a register the tag `tag` (R326). -/
def VecJob.Puts (j : VecJob) (d : BitVec 6) (x tag : Nat) : Prop :=
  (d.toNat < 32 → j.dstV = some (d.toNat, { bits := BitVec.ofNat 4096 x, tag := BitVec.ofNat 6 tag })) ∧
  (32 ≤ d.toNat → j.push = some (d.toNat, BitVec.ofNat 4096 x))

/-- A vector word issues: it is in flight behind the others, no register has changed yet, and it is to give `d` lanes
of `e` bits, the active ones as `f` says, the others as they were in a register and zero in a queue's entry, with
zeros above (R326, R328). -/
def LanesMade (i : Instr) (s : State) (d : BitVec 6) (m : BitVec 3) (e tag : Nat) (f : Nat → Nat) : Prop :=
  let V := s.here.vecView
  let n := V.laneCount e
  ∃ j x, Goes i s (fun t => t.here.vec = s.here.vec ++ [j] ∧ t.here.r = s.here.r ∧ t.mem = s.mem ∧
      t.here.wv.pc = s.here.wv.pc + 1) ∧
    j.Puts d x tag ∧ x < 2 ^ (e * n) ∧
    ∀ l, l < n → lane e x l = (if V.mbit m l then f l
      else if d.toNat < 32 then lane e (V.r.readV d.toNat).bits.toNat l else 0)

/-- The plan of each matrix word: its tags and level, the descriptors that it pops, and its footprint. -/
def matPlanOf : Instr → Option (Bank → MatPlan)
  | .mma _ a b u v _ => some (planMma a b u v)
  | .mzero _ => some (fun _ => .simple)
  | .mzeroT _ => some (fun _ => .simple)
  | .manch _ _ => some (fun _ => .simple)
  | .mshape _ _ _ => some (fun _ => .simple)
  | .mfmt _ _ => some (fun _ => .simple)
  | .mldt _ _ c _ => some (fun _ => .one (mldtFoot c.toNat))
  | .msta _ _ t _ _ _ => some (fun B => .one (fun d => rowsFoot d B.mat.m (rowBytes B.mat.n (tagBits t.toNat)) true))
  | .mchk _ _ _ _ => some (fun _ => .one (fun d => rowsFoot d 1 32 true))
  | .mmov _ _ => some (fun _ => .simple)
  | .mmovFmt _ _ _ _ _ => some (fun _ => .simple)
  | .mscl _ => some (fun _ => .one (fun d => rowsFoot d 128 8 false))
  | .msclOne _ => some (fun _ => .simple)
  | _ => none

/-- The matrix strand of a task stands at a legal word. -/
structure MatAt (s : State) (i : Instr) : Prop where
  strand : s.cur.strand = .m
  task : isSys s.cur.bank = false
  legal : i.legal = true

/-- The transfer strand of a task stands at a legal word. -/
structure XferAt (s : State) (i : Instr) : Prop where
  strand : s.cur.strand = .x
  task : isSys s.cur.bank = false
  legal : i.legal = true

/-- The oldest command of bank `b` has begun, and its check passes. -/
structure Begun (s : State) (b : Nat) (c : MatWin) (rest : List MatWin) : Prop where
  who : s.input.who = b
  check : s.input.check = .pass
  window : (s.bank b).mat.window = c :: rest
  begun : c.begun = true

/-- A matrix command has left its window, and memory outside the scratchpads is as it was. -/
def MatDone (b : Nat) (rest : List MatWin) (s t : State) : Prop :=
  (t.bank b).mat.window = rest ∧ t.mem = s.mem ∧ (t.bank b).r.s = (s.bank b).r.s ∧ (t.bank b).r.v = (s.bank b).r.v

/-- Staging field `k`, from 0: source, destination, shape, pitch, layout, counter (R365). -/
def Staging.field (t : Staging) (k : Nat) : Word := [t.src, t.dst, t.shape, t.pitch, t.layout, t.ctr].getD k 0

/-- The control strand stands at a word whose access `id` still lacks a request slot (R47); where the word had no request
before, the strand has issued it in the present ac. -/
def State.standsForSlot (w : State) (b id : Nat) : State :=
  let t := w.setDec b (.issuing id)
  if (w.bank b).out.dec = .none then t.updBank b (fun B => (B.stand .c .slot).onNow (·.issue .c))
  else t.updBank b (·.stand .c .slot)

/-- A request's word has ended: its predicate says whether it was refused, its result scalar takes `x`, the word holds no
decision any more, and the control strand has passed it. -/
def Answered (s t : State) (p r : Nat) (busy : Bool) (x : Word) : Prop :=
  t.here.out.dec = .none ∧ t.here.wc.pc = s.here.wc.pc + 1 ∧ t.here.r = (s.here.r.writeP p busy).writeS r x ∧
  t.mem = s.mem

/-- A rendezvous word meets all four strands, or a handler runs, where the control strand alone walks (R249, R164). -/
def Meet (s : State) : Prop := s.here.allHere = true ∨ s.here.trap.handler = true

/-- All four strands have passed a rendezvous word, or in a handler the control strand alone. -/
def AllPassed (s t : State) : Prop :=
  t.here.wc.pc = s.here.wc.pc + 1 ∧
  (s.here.trap.handler = false → t.here.wv.pc = s.here.wv.pc + 1 ∧ t.here.wm.pc = s.here.wm.pc + 1 ∧
    t.here.wx.pc = s.here.wx.pc + 1)

/-! ### Other agents -/

/-- A request of an access of a bank has ended with a deferred trap (R156, R297), and the trap waits: nothing of the access
lands any more, and it is gone but for those of its other requests that are still to be answered. -/
def FailedWith (s t : State) (b id code : Nat) : Prop :=
  t.mem = s.mem ∧ (∀ a, a ∈ (t.bank b).out.acc → a.id = id → a.op = .fill ∧ a.reqs ++ a.unsent ≠ []) ∧
  ∃ x, x ∈ (t.bank b).trap.pending ∧ x.code = code ∧ x.deferred = true

/-- A port carries flits: it is trained and no retrain is under way. -/
def Link.carries (l : Link) : Prop := l.trained = true ∧ l.training = false

/-- A control flit that a receiver looks at (R39, R41): the port carries flits, and it is later than the last one that
was accepted; the port has nothing to send. -/
structure GoodControl (s : State) : Prop where
  carries : (s.link s.input.who).carries
  kind : s.input.flit.kind = 1
  later : ∀ c, (s.link s.input.who).rxCtl = some c → s.input.flit.seq ≠ c ∧ seqGe s.input.flit.seq c = true
  idle : (s.link s.input.who).queue = []

/-- Ingress accepts a peer's request under a right, and its page is of this module (R46, R49): after translation the
state is `t`, and the address `pa`. -/
structure ServedHere (s : State) (right size : Nat) (kind : AccKind) (t : State) (pa : Nat) : Prop where
  kept : s.requestOk s.input.packet = true
  grant : s.grantCheck s.input.packet.token s.input.packet.source s.input.packet.tenant right s.input.packet.addr size = 0
  page : ∃ m, m ≠ 4 ∧
    s.translate none false (gwinTenant (s.hubReg (offGWIN (bitsOf s.input.packet.token 63 52))))
      (gwinBase (s.hubReg (offGWIN (bitsOf s.input.packet.token 63 52))) + s.input.packet.addr) kind = (t, .phys pa m)

/-- The virtual address and tenant of a request's page, and the die of the observer that serves it. -/
def State.servedVa (s : State) : Nat :=
  gwinBase (s.hubReg (offGWIN (bitsOf s.input.packet.token 63 52))) + s.input.packet.addr

/-- The tenant whose page a request reaches. -/
def State.servedTenant (s : State) : Nat := gwinTenant (s.hubReg (offGWIN (bitsOf s.input.packet.token 63 52)))

/-- The die of the observer that serves a request: the port's, or that of the bytes for this module's own. -/
def State.servedDie (s : State) (pa : Nat) : Nat :=
  if s.input.packet.source = s.boot.moduleNo then s.homeDie pa else s.input.who

/-- The bank of a request's slot that a response names, the slot's generation matching (R46). -/
structure SlotNamed (s : State) (sl : Slot) : Prop where
  kept : s.responseOk s.input.packet = true
  task : s.input.packet.core < 512
  code : bitsOf s.input.packet.addr 7 0 ≤ 4
  zeros : bitsOf s.input.packet.addr 15 10 = 0 ∧ bitsOf s.input.packet.addr 63 32 = 0
  slot : (s.core s.input.packet.core).slots.find? (fun x => x.1 = s.input.packet.slot % 8) =
    some (s.input.packet.slot % 8, sl)
  gen : KV.get 0 (s.core s.input.packet.core).gens (s.input.packet.slot % 8) = s.input.packet.slot / 8 % 16
  access : sl.op ≠ 5

/-- A slot of a core has returned, its generation advanced (R47). -/
def SlotReturned (s t : State) (c i : Nat) : Prop :=
  (∀ x, x ∈ (t.core c).slots → x.1 ≠ i) ∧
  KV.get 0 (t.core c).gens i = (KV.get 0 (s.core c).gens i + 1) % 16

/-- A frequency step has begun in a cluster: its clock stands, or does at the end of the ac in progress (R108). -/
def ClockStops (s t : State) (cl : Nat) : Prop :=
  (t.cluster cl).stopped = decide ((s.cluster cl).frac = 0) ∧ (t.cluster cl).stopping = decide ((s.cluster cl).frac ≠ 0)

/-- Nothing has changed but one virtual interface's registers, and host memory is as it was. -/
def OnlyInterface (vi : Nat) (s t : State) : Prop :=
  t = { s with host := t.host } ∧ t.host.mem = s.host.mem ∧ ∀ n, n ≠ vi → t.ifc n = s.ifc n

end Sys2Proof.Machine
end

