-- ==== Sys2Proof/Certificates/Slice0/Obligations.lean ====
section
/-! DEFINITION. The statements about the machine, each a formal reading of rules of spec/. -/

open Sys2Proof Sys2Proof.Machine Host

/-! ### Scalars -/

/-- R250: the 21 functions of two scalars other than division. Each completes in a ready control strand, gives sd its
value with binding 0, and has no other effect; a result for s0 is discarded. -/
def Obligations.AluBinary : Prop :=
  ∀ (s : State) (d a b : BitVec 6), CtlReady s [d.toNat, a.toNat, b.toNat] →
    let x := s.reg a
    let y := s.reg b
    let n := y.toNat % 64
    GivesScalar (.add d a b) s d (x + y) ∧
    GivesScalar (.sub d a b) s d (x - y) ∧
    GivesScalar (.and d a b) s d (x &&& y) ∧
    GivesScalar (.or d a b) s d (x ||| y) ∧
    GivesScalar (.xor d a b) s d (x ^^^ y) ∧
    GivesScalar (.andn d a b) s d (x &&& ~~~ y) ∧
    GivesScalar (.orn d a b) s d (x ||| ~~~ y) ∧
    GivesScalar (.sll d a b) s d (x <<< n) ∧
    GivesScalar (.srl d a b) s d (x >>> n) ∧
    GivesScalar (.sra d a b) s d (x.sshiftRight n) ∧
    GivesScalar (.rol d a b) s d (x.rotateLeft n) ∧
    GivesScalar (.ror d a b) s d (x.rotateRight n) ∧
    GivesScalar (.mul d a b) s d (x * y) ∧
    GivesScalar (.mulh d a b) s d (BitVec.ofInt 64 (x.toInt * y.toInt / 2 ^ 64)) ∧
    GivesScalar (.mulhu d a b) s d (BitVec.ofNat 64 (x.toNat * y.toNat / 2 ^ 64)) ∧
    GivesScalar (.min d a b) s d (if x.toInt ≤ y.toInt then x else y) ∧
    GivesScalar (.max d a b) s d (if x.toInt ≤ y.toInt then y else x) ∧
    GivesScalar (.minu d a b) s d (if x.toNat ≤ y.toNat then x else y) ∧
    GivesScalar (.maxu d a b) s d (if x.toNat ≤ y.toNat then y else x) ∧
    GivesScalar (.adds d a b) s d (BitVec.ofInt 64 (max (-2 ^ 63) (min (2 ^ 63 - 1) (x.toInt + y.toInt)))) ∧
    GivesScalar (.subs d a b) s d (BitVec.ofInt 64 (max (-2 ^ 63) (min (2 ^ 63 - 1) (x.toInt - y.toInt))))

/-- R250: division. By zero the quotient is all ones and the remainder is sa; the most negative value by −1 gives
itself and remainder 0; otherwise the quotient is truncated toward zero and the remainder has the sign of sa. -/
def Obligations.AluDivide : Prop :=
  ∀ (s : State) (d a b : BitVec 6), CtlReady s [d.toNat, a.toNat, b.toNat] →
    let x := s.reg a
    let y := s.reg b
    (y = 0 →
      GivesScalar (.div d a b) s d (BitVec.allOnes 64) ∧ GivesScalar (.divu d a b) s d (BitVec.allOnes 64) ∧
      GivesScalar (.rem d a b) s d x ∧ GivesScalar (.remu d a b) s d x) ∧
    (y ≠ 0 → GivesScalar (.divu d a b) s d (x.udiv y) ∧ GivesScalar (.remu d a b) s d (x.umod y)) ∧
    (x = BitVec.ofNat 64 (2 ^ 63) → y = BitVec.allOnes 64 →
      GivesScalar (.div d a b) s d x ∧ GivesScalar (.rem d a b) s d 0) ∧
    (y ≠ 0 → ¬ (x = BitVec.ofNat 64 (2 ^ 63) ∧ y = BitVec.allOnes 64) →
      ∃ q r : Word, q.toInt = x.toInt.tdiv y.toInt ∧ r.toInt = x.toInt.tmod y.toInt ∧
        GivesScalar (.div d a b) s d q ∧ GivesScalar (.rem d a b) s d r)

/-- R250: the four functions of one scalar. -/
def Obligations.AluUnary : Prop :=
  ∀ (s : State) (d a : BitVec 6), CtlReady s [d.toNat, a.toNat] →
    let x := s.reg a
    (∃ n : Nat, n ≤ 64 ∧ (∀ i, i < n → x.getLsbD (63 - i) = false) ∧ (n < 64 → x.getLsbD (63 - n) = true) ∧
      GivesScalar (.clz d a) s d (BitVec.ofNat 64 n)) ∧
    (∃ n : Nat, n ≤ 64 ∧ (∀ i, i < n → x.getLsbD i = false) ∧ (n < 64 → x.getLsbD n = true) ∧
      GivesScalar (.ctz d a) s d (BitVec.ofNat 64 n)) ∧
    GivesScalar (.popc d a) s d (BitVec.ofNat 64 ((List.range 64).filter x.getLsbD).length) ∧
    (∃ r : Word, (∀ i j, i < 8 → j < 8 → r.getLsbD (8 * i + j) = x.getLsbD (8 * (7 - i) + j)) ∧
      GivesScalar (.bswap d a) s d r)

/-- R251 to R255: immediates, shifts by an immediate, quarters, multiply-add and bit fields. -/
def Obligations.Immediates : Prop :=
  (∀ (s : State) (d a : BitVec 6) (i : BitVec 12), CtlReady s [d.toNat, a.toNat] →
    let x := s.reg a
    GivesScalar (.addi d a i) s d (x + i.signExtend 64) ∧
    GivesScalar (.andi d a i) s d (x &&& i.signExtend 64) ∧
    GivesScalar (.ori d a i) s d (x ||| i.setWidth 64) ∧
    GivesScalar (.xori d a i) s d (x ^^^ i.setWidth 64)) ∧
  (∀ (s : State) (d a : BitVec 6) (k : BitVec 4) (n : BitVec 6), CtlReady s [d.toNat, a.toNat] →
    let x := s.reg a
    (k = 0 → GivesScalar (.shi d a k n) s d (x <<< n.toNat)) ∧
    (k = 1 → GivesScalar (.shi d a k n) s d (x >>> n.toNat)) ∧
    (k = 2 → GivesScalar (.shi d a k n) s d (x.sshiftRight n.toNat)) ∧
    (k = 3 → GivesScalar (.shi d a k n) s d (x.rotateLeft n.toNat)) ∧
    (k = 4 → GivesScalar (.shi d a k n) s d (x.rotateRight n.toNat)) ∧
    (5 ≤ k.toNat → Traps (.shi d a k n) s .c 0x01 (wordVal (.shi d a k n)))) ∧
  (∀ (s : State) (d : BitVec 6) (q : BitVec 2) (i : BitVec 16), CtlReady s [d.toNat] →
    (∃ r : Word, (∀ j, j < 64 → r.getLsbD j = (decide (j / 16 = q.toNat) && i.getLsbD (j % 16))) ∧
      GivesScalar (.movw d q i) s d r) ∧
    (∃ r : Word, (∀ j, j < 64 → r.getLsbD j =
        (if j / 16 = q.toNat then i.getLsbD (j % 16) else (s.reg d).getLsbD j)) ∧
      GivesScalar (.movk d q i) s d r)) ∧
  (∀ (s : State) (d a b c : BitVec 6), CtlReady s [d.toNat, a.toNat, b.toNat, c.toNat] →
    GivesScalar (.madd d a b c) s d (s.reg a * s.reg b + s.reg c)) ∧
  (∀ (s : State) (d a p w : BitVec 6), CtlReady s [d.toNat, a.toNat] → p.toNat + w.toNat < 64 →
    GivesScalar (.bitf d a p w) s d (BitVec.ofNat 64 ((s.reg a).toNat / 2 ^ p.toNat % 2 ^ (w.toNat + 1)))) ∧
  (∀ (s : State) (d a p w : BitVec 6), CtlReady s [d.toNat, a.toNat] → 64 ≤ p.toNat + w.toNat →
    Traps (.bitf d a p w) s .c 0x01 (wordVal (.bitf d a p w)))

/-- R256 to R259: comparisons, truth tables on predicates, and selection. -/
def Obligations.Predicates : Prop :=
  (∀ (s : State) (p : BitVec 4) (a b : BitVec 6) (c m : BitVec 4),
    CtlReady s [a.toNat, b.toNat, 64 + p.toNat] →
    (c.toNat < 12 → m.toNat < 6 → GivesPredicate (.cmp p a b c m) s p
      ((combTable (s.here.r.readP p.toNat) ((condTable (s.reg a) (s.reg b)).getD c.toNat false)).getD m.toNat false)) ∧
    (12 ≤ c.toNat ∨ 6 ≤ m.toNat → Traps (.cmp p a b c m) s .c 0x01 (wordVal (.cmp p a b c m)))) ∧
  (∀ (s : State) (p : BitVec 4) (a : BitVec 6) (c : BitVec 4) (i : BitVec 10),
    CtlReady s [a.toNat, 64 + p.toNat] → c.toNat < 12 →
    GivesPredicate (.cmpi p a c i) s p ((condTable (s.reg a)
      (if 6 ≤ c.toNat ∧ c.toNat ≤ 9 then i.setWidth 64 else i.signExtend 64)).getD c.toNat false)) ∧
  (∀ (s : State) (p : BitVec 4) (a : BitVec 6) (c : BitVec 4) (i : BitVec 10),
    CtlReady s [a.toNat, 64 + p.toNat] → 12 ≤ c.toNat →
    Traps (.cmpi p a c i) s .c 0x01 (wordVal (.cmpi p a c i))) ∧
  (∀ (s : State) (p : BitVec 4) (a b : BitVec 6) (t c : BitVec 4),
    CtlReady s [64 + p.toNat, 64 + a.toNat, 64 + b.toNat] → a.toNat < 16 → b.toNat < 16 → c.toNat < 6 →
    GivesPredicate (.plog p a b t c) s p ((combTable (s.here.r.readP p.toNat)
      (t.getLsbD ((if s.here.r.readP a.toNat then 2 else 0) + (if s.here.r.readP b.toNat then 1 else 0)))).getD
        c.toNat false)) ∧
  (∀ (s : State) (p : BitVec 4) (a b : BitVec 6) (t c : BitVec 4),
    CtlReady s [64 + p.toNat, 64 + a.toNat, 64 + b.toNat] → 16 ≤ a.toNat ∨ 16 ≤ b.toNat ∨ 6 ≤ c.toNat →
    Traps (.plog p a b t c) s .c 0x01 (wordVal (.plog p a b t c))) ∧
  (∀ (s : State) (d a b : BitVec 6) (n : BitVec 1) (k : BitVec 4),
    CtlReady s [d.toNat, a.toNat, b.toNat, 64 + k.toNat] →
    GivesScalar (.sel d a b n k) s d
      (if s.here.r.readP k.toNat != n.getLsbD 0 then s.reg a else s.reg b))

/-! ### Path words -/

/-- R121, R260 to R263, R280: a path word in a ready control strand. A target outside the text traps with ILLEGAL;
otherwise the control strand goes on at the target, or at the next word where a conditional one is not taken, and the
index is pushed into all three path FIFOs. A taken `jal` writes s62, and `jalr` sd, with the index of the next word. In
handler mode the control strand alone is redirected (R164). -/
def Obligations.PathWords : Prop :=
  (∀ (s : State) (p : BitVec 4) (n : BitVec 1) (o : BitVec 19), PathReady s [64 + p.toNat] →
    let taken := s.here.r.readP p.toNat != n.getLsbD 0
    let target : Int := s.here.wc.pc + o.toInt
    (taken = true → target < 0 ∨ (s.here.words : Int) < target →
      Traps (.br p n o) s .c 0x01 (wordVal (.br p n o))) ∧
    (taken = true → 0 ≤ target → target ≤ s.here.words →
      Goes (.br p n o) s (fun t => Redirected s t target.toNat none)) ∧
    (taken = false → Goes (.br p n o) s (fun t => Redirected s t (s.here.wc.pc + 1) none))) ∧
  (∀ (s : State) (p : BitVec 4) (n : BitVec 1) (o : BitVec 19),
    let taken := s.here.r.readP p.toNat != n.getLsbD 0
    let target : Int := s.here.wc.pc + o.toInt
    (PathReady s [62, 64 + p.toNat] → taken = true → target < 0 ∨ (s.here.words : Int) < target →
      Traps (.jal p n o) s .c 0x01 (wordVal (.jal p n o))) ∧
    (PathReady s [62, 64 + p.toNat] → taken = true → 0 ≤ target → target ≤ s.here.words →
      Goes (.jal p n o) s (fun t =>
        Redirected s t target.toNat (some (62, BitVec.ofNat 64 (s.here.wc.pc + 1))))) ∧
    (PathReady s [64 + p.toNat] → taken = false →
      Goes (.jal p n o) s (fun t => Redirected s t (s.here.wc.pc + 1) none))) ∧
  (∀ (s : State) (d a : BitVec 6) (i : BitVec 12), PathReady s [d.toNat, a.toNat] →
    let target := (s.reg a + i.signExtend 64).toNat
    (target ≤ s.here.words → Goes (.jalr d a i) s (fun t =>
      Redirected s t target (some (d.toNat, BitVec.ofNat 64 (s.here.wc.pc + 1))))) ∧
    (s.here.words < target → Traps (.jalr d a i) s .c 0x01 (wordVal (.jalr d a i)))) ∧
  (∀ s : State, PathReady s [] → Goes .exit s (fun t => Redirected s t s.here.words none)) ∧
  (∀ (s : State) (d a : BitVec 6) (i : BitVec 12), PathAlone s [d.toNat, a.toNat] →
    let target := (s.reg a + i.signExtend 64).toNat
    target ≤ s.here.words → Goes (.jalr d a i) s (fun t =>
      RedirectedAlone s t target (some (d.toNat, BitVec.ofNat 64 (s.here.wc.pc + 1))))) ∧
  (∀ (s : State) (p : BitVec 4) (n : BitVec 1) (o : BitVec 19), PathAlone s [62, 64 + p.toNat] →
    let taken := s.here.r.readP p.toNat != n.getLsbD 0
    let target : Int := s.here.wc.pc + o.toInt
    (taken = true → 0 ≤ target → target ≤ s.here.words →
      Goes (.br p n o) s (fun t => RedirectedAlone s t target.toNat none) ∧
      Goes (.jal p n o) s (fun t =>
        RedirectedAlone s t target.toNat (some (62, BitVec.ofNat 64 (s.here.wc.pc + 1))))) ∧
    (taken = false → Goes (.br p n o) s (fun t => RedirectedAlone s t (s.here.wc.pc + 1) none) ∧
      Goes (.jal p n o) s (fun t => RedirectedAlone s t (s.here.wc.pc + 1) none))) ∧
  (∀ s : State, PathAlone s [] → Goes .exit s (fun t => RedirectedAlone s t s.here.words none))

/-- R121, R165: a strand other than C at a path word takes the oldest index of its path FIFO and goes on there;
PATH_FOLLOW does the same for a strand that stands at one. Where a return from a trap has passed the word, the strand
goes on at the next index and takes nothing (log entry 11). An entry may be taken from the ac after it was pushed
(R125). -/
def Obligations.PathFollowers : Prop :=
  ∀ (s : State) (b : Nat) (e : Strand) (i : Instr),
    e ≠ .c → isPathWord i = true →
    let skipped := (s.bank b).trap.skips.contains ((s.bank b).walker e).walk
    let follows := fun (w : Instr) (k : Nat) (rest : List Nat) => Goes w s (fun t => OnlyBank b s t ∧
      (t.bank b).rest = (s.bank b).rest ∧ (t.bank b).r = (s.bank b).r ∧ ((t.bank b).walker e).pc = k ∧
      ((t.bank b).walker e).path = rest)
    let goes := fun (w : Instr) =>
      (skipped = true → follows w (((s.bank b).walker e).pc + 1) ((s.bank b).walker e).path) ∧
      (∀ k rest, skipped = false → ((s.bank b).walker e).path = k :: rest →
        (s.bank b).poppable (qcPath e) (rest.length + 1) ≠ 0 → follows w k rest)
    (s.cur = { bank := b, strand := e } → goes i) ∧
    (s.input.who = b → s.input.strand = e → mayIssue s b e = true →
      decodeWord ((s.bank b).wordAt ((s.bank b).walker e).pc) = some i → goes .pathFollow)

/-- R118: outside system cores, a strand skips every word that belongs to another strand, unless it is a path word, a
rendezvous word, a header or a prefix, and the word has no effect in it. -/
def Obligations.OtherStrandsSkip : Prop :=
  ∀ (s : State) (i : Instr), i.isWord = true → isSys s.cur.bank = false → owner i ≠ some s.cur.strand →
    isPathWord i = false → meets i = false → owner i ≠ none → Goes i s (fun t => Skipped s.cur.strand s t)

/-! ### Queues, flags, references, counters -/

/-- R264, R265, R125: `qmov`. A push into a queue with room appends the scalar, or the descriptor built from two, which
waits for an earlier `mpush`; a pop of a head of vq gives it to sd with binding 0. A place popped in the present ac is
free from the next, and an entry pushed in it can be popped from the next. -/
def Obligations.QueueMoves : Prop :=
  (∀ (s : State) (a : BitVec 6), CtlReady s [a.toNat] →
    (s.here.filledOf qcCq s.here.q.cq.length < 32 → Goes (.qmovCq a) s (fun t =>
      MovedQueue s t { s.here.q with cq := s.here.q.cq ++ [s.reg a] } none)) ∧
    (s.here.filledOf qcXq s.here.q.xq.length < 16 → Goes (.qmovXq a) s (fun t =>
      MovedQueue s t { s.here.q with xq := s.here.q.xq ++ [s.reg a] } none))) ∧
  (∀ (s : State) (a b : BitVec 6), CtlReady s [a.toNat, b.toNat] → s.here.mpushOut = false →
    s.here.filledOf qcMq s.here.q.mq.length < 8 →
    Goes (.qmovMq a b) s (fun t => MovedQueue s t { s.here.q with mq := s.here.q.mq ++
      [{ base := bitsOf (s.reg a).toNat 19 0, rho := bitsOf (s.reg a).toNat 23 20,
         rowPitch := bitsOf (s.reg b).toNat 19 0, tilePitch := bitsOf (s.reg b).toNat 39 20 }] } none)) ∧
  (∀ (s : State) (d : BitVec 6) (x : Word) (rest : List Word), CtlReady s [d.toNat] → s.here.q.vq = x :: rest →
    s.here.poppable qcVq (rest.length + 1) ≠ 0 →
    Goes (.qmovVq d) s (fun t => MovedQueue s t { s.here.q with vq := rest } (some (d.toNat, x))))

/-- R266, R267, R135: flags. `flag.rd` reads one as it stood at the start of the ac; the others change one, modulo 2^20,
once every control-strand access issued so far is done. A write applies before every increment of its ac. -/
def Obligations.Flags : Prop :=
  (∀ (s : State) (d : BitVec 6) (k : BitVec 4), CtlReady s [d.toNat] →
    GivesScalar (.flagRd d k) s d ((s.here.flagAt k.toNat).setWidth 64)) ∧
  (∀ (s : State) (a : BitVec 6) (k : BitVec 4), CtlReady s [a.toNat] → s.flagMay s.cur.bank = true →
    Goes (.flagWr a k) s (fun t => WroteFlag s t k ((s.reg a).setWidth 20 + s.incsNow k)) ∧
    Goes (.flagAdd a k) s (fun t =>
      WroteFlag s t k (s.here.flagAt k.toNat + (s.reg a).setWidth 20 + s.incsNow k))) ∧
  (∀ (s : State) (k : BitVec 4), CtlReady s [] → s.flagMay s.cur.bank = true →
    Goes (.flagInc k) s (fun t => WroteFlag s t k (s.here.r.readF k.toNat + 1)))

/-- R171, R286: references. `rbind` binds sb to parcel register k; `radd` keeps the binding of sa; `runbind` gives the
virtual address of a bound scalar whose parcel is OPEN, and traps with REF_FORM on an unbound one and with
PARCEL_GONE on one that is not OPEN. -/
def Obligations.References : Prop :=
  (∀ (s : State) (d k c : BitVec 6), CtlReady s [d.toNat, c.toNat] →
    (k.toNat < 8 → Goes (.rbind d k c) s (fun t => WroteBound s t d.toNat (s.reg c) (k.toNat + 1))) ∧
    (8 ≤ k.toNat → Traps (.rbind d k c) s .c 0x01 (wordVal (.rbind d k c)))) ∧
  (∀ (s : State) (d a c : BitVec 6), CtlReady s [d.toNat, a.toNat, c.toNat] →
    (s.here.r.binding a.toNat ≠ 0 → Goes (.radd d a c) s (fun t =>
      WroteBound s t d.toNat (s.reg a + s.reg c) (s.here.r.binding a.toNat))) ∧
    (s.here.r.binding a.toNat = 0 → Traps (.radd d a c) s .c 0x0A (s.reg a))) ∧
  (∀ (s : State) (d a : BitVec 6), CtlReady s [d.toNat, a.toNat] →
    (s.here.r.binding a.toNat = 0 → Traps (.runbind d a) s .c 0x0A (s.reg a)) ∧
    (s.here.r.binding a.toNat ≠ 0 → s.openEntry s.cur.bank (s.here.r.binding a.toNat - 1) = none →
      Traps (.runbind d a) s .c 0x0B (s.reg a)) ∧
    (∀ q, s.here.r.binding a.toNat ≠ 0 → s.openEntry s.cur.bank (s.here.r.binding a.toNat - 1) = some q →
      GivesScalar (.runbind d a) s d (BitVec.ofNat 64 q.base + s.reg a)))

/-- R282 to R284: routing counters. Once every earlier `vhist` has completed, `cnt.rd` reads the task's counter sa mod
256 and `cnt.snap` clears it too; the group forms sum it over the group's tasks on the cluster; the overflow forms
read a counter of the task's interface at an instance, or 0 where there is none. What the ac of a clear, or the
decision cycle of one at an instance (R97), adds stays in the counter after it. -/
def Obligations.Counters : Prop :=
  ∀ (s : State) (d a : BitVec 6), CtlReady s [d.toNat, a.toNat] → s.here.histDone = true →
    let k := (s.reg a).toNat % 256
    let x := s.here.counter k
    let sum := ((s.groupOnCluster s.cur.bank).map (fun c => ((s.bank c).counter k).toNat)).foldl (· + ·) 0
    let key := entryInst (bitsOf (s.reg a).toNat 14 0)
    let n := bitsOf (s.reg a).toNat 17 15
    let ovf := if s.instPresent key = true ∧ n < 6 then (s.inst key).counter s.here.place.vi n else 0
    let new := KV.get 0 (s.inst key).recent (8 * s.here.place.vi + n)
    GivesScalar (.cntRd d a) s d (BitVec.ofNat 64 x.toNat) ∧
    Goes (.cntSnap d a) s (fun t => t.here.r.readS d.toNat = (if d = 0 then 0 else BitVec.ofNat 64 x.toNat) ∧
      t.here.counter k = 0 ∧ ∀ j, j ≠ k → t.here.counter j = s.here.counter j) ∧
    GivesScalar (.cntRdGrp d a) s d (BitVec.ofNat 64 sum) ∧
    Goes (.cntSnapGrp d a) s (fun t => t.here.r.readS d.toNat = (if d = 0 then 0 else BitVec.ofNat 64 sum) ∧
      ∀ c, c ∈ s.groupOnCluster s.cur.bank → (t.bank c).counter k = 0) ∧
    GivesScalar (.cntOvf d a) s d (BitVec.ofNat 64 ovf) ∧
    Goes (.cntOvfSnap d a) s (fun t => t.here.r.readS d.toNat =
        (if d = 0 then 0 else BitVec.ofNat 64 (if s.instPresent key = true ∧ n < 6 then
          KV.get ovf (s.inst key).before (8 * s.here.place.vi + n) else 0)) ∧
      (s.instPresent key = true → n < 6 → (t.inst key).counter s.here.place.vi n = new))

/-- R285: `rand` writes 64 bits that nothing constrains (a free value of the model, log entry 2), and `rand.below` a
value below sa where sa is not 0. -/
def Obligations.Random : Prop :=
  (∀ (s : State) (d : BitVec 6), CtlReady s [d.toNat] →
    Goes (.rand d) s (fun t => t.here.r.readS d.toNat = (if d = 0 then 0 else Config.random s.freeCtr) ∧ t.freeCtr = s.freeCtr + 1 ∧
      (∀ n, n ≠ d.toNat → t.here.r.readS n = s.here.r.readS n) ∧ t.mem = s.mem)) ∧
  (∀ (s : State) (d a : BitVec 6), CtlReady s [d.toNat, a.toNat] → s.reg a ≠ 0 →
    Goes (.randBelow d a) s (fun t => (t.here.r.readS d.toNat).toNat < (s.reg a).toNat ∧
      t.freeCtr = s.freeCtr + 1 ∧ (∀ n, n ≠ d.toNat → t.here.r.readS n = s.here.r.readS n) ∧ t.mem = s.mem)) ∧
  (∀ (s : State) (d a : BitVec 6), CtlReady s [d.toNat, a.toNat] → s.reg a = 0 →
    Goes (.randBelow d a) s (fun t => t.here.r.readS d.toNat = (if d = 0 then 0 else Config.random s.freeCtr) ∧
      t.freeCtr = s.freeCtr + 1 ∧ (∀ n, n ≠ d.toNat → t.here.r.readS n = s.here.r.readS n) ∧ t.mem = s.mem))

/-! ### System registers, traps and yield points -/

/-- R287: `csr`. In a task a number of 0x800 or above traps with PRIV, and one that the map does not list with ILLEGAL.
Otherwise sd takes the value before the word, and where a is not 0 the register's writable fields take sa's, its other
bits staying; where the write is a rendezvous, it takes place when the four strands stand at the word, and all pass.
FSTAT reads as at the start of the ac, and keeps the bits that the ac of the write raises; the fields of any other
register that the machine has updated in the ac of the write keep the update. -/
def Obligations.SystemRegisters : Prop :=
  ∀ (s : State) (d a : BitVec 6) (i : BitVec 12), CtlReady s [d.toNat, a.toNat] →
    let n := i.toNat
    (0x800 ≤ n → Traps (.csr d a i) s .c 0x02 (wordVal (.csr d a i))) ∧
    (n < 0x800 → csrListed n = false →
      Traps (.csr d a i) s .c 0x01 (wordVal (.csr d a i))) ∧
    (n < 0x800 → csrListed n = true → a = 0 → GivesScalar (.csr d a i) s d (s.csrRead s.cur.bank n)) ∧
    (n < 0x800 → csrListed n = true → a ≠ 0 → csrMask n ≠ 0 → csrRefuses n (s.reg a) = false →
      (meets (.csr d a i) = true → s.here.allHere = true ∨ s.here.trap.handler = true) →
      Goes (.csr d a i) s (fun t =>
        t.here.r.readS d.toNat = (if d = 0 then 0 else s.csrRead s.cur.bank n) ∧
        (let v := (s.reg a &&& csrMask n) ||| (s.here.csrGet n &&& ~~~ csrMask n)
         let u := KV.get (0, 0) s.here.now.hard n
         t.here.csrGet n = (if n = csrFSTAT then v ||| s.here.now.raised.setWidth 64
           else (v &&& ~~~ u.1) ||| (u.2 &&& u.1))) ∧
        t.here.wc.pc = s.here.wc.pc + 1 ∧
        (meets (.csr d a i) = true → s.here.trap.handler = false →
          t.here.wv.pc = s.here.wv.pc + 1 ∧ t.here.wm.pc = s.here.wm.pc + 1 ∧ t.here.wx.pc = s.here.wx.pc + 1) ∧
        (∀ k, k ≠ d.toNat → t.here.r.readS k = s.here.r.readS k) ∧
        (∀ k, k ≠ n → t.here.csrGet k = s.here.csrGet k)))

/-- R280, R163: `trap` traps precisely with code 0x11 and TVAL sa plus its immediate. Taking a trap (HANDLER_ENTRY),
with handlers enabled and every strand drained, writes TCAUSE, TVAL and TPC, enters handler mode and sends the control
strand to TVEC.index; no other strand moves, and no general register and no byte of memory changes. A task that has
stopped takes a trap that has come since, and runs on (log entry 111). The prefix and the request of the control strand's
own word are kept for the return (log entries 12, 13). -/
def Obligations.TrapEntry : Prop :=
  (∀ (s : State) (a : BitVec 6) (i : BitVec 12), CtlReady s [a.toNat] →
    Traps (.trap a i) s .c 0x11 (s.reg a + i.setWidth 64)) ∧
  (∀ (s : State) (b : Nat) (t : PendTrap), s.input.who = b → isSys b = false →
    (s.bank b).status = .live ∨ (s.bank b).status = .stopped → (s.bank b).nextTrap = some t → (s.bank b).trap.handler = false → s.trapReady b t = true →
    bitAt ((s.bank b).csrGet csrTVEC).toNat 15 = true →
    Goes .handlerEntry s (fun u => OnlyBank b s u ∧ (u.bank b).trap.handler = true ∧ (u.bank b).status = .live ∧
      (u.bank b).csrGet csrTCAUSE =
        BitVec.ofNat 64 (t.code + 256 * t.strand.code + (if t.deferred then 1024 else 0)) ∧
      (u.bank b).csrGet csrTVAL = t.tval ∧
      (u.bank b).csrGet csrTPC = BitVec.ofNat 64 (if t.deferred then (s.bank b).wc.pc else t.pc) ∧
      (u.bank b).wc.pc = bitsOf ((s.bank b).csrGet csrTVEC).toNat 14 0 ∧ (u.bank b).wc.walk = (s.bank b).wc.walk ∧
      (u.bank b).wv = (s.bank b).wv ∧ (u.bank b).wm = (s.bank b).wm ∧ (u.bank b).wx = (s.bank b).wx ∧
      (u.bank b).r = (s.bank b).r ∧ (u.bank b).q = (s.bank b).q ∧
      (u.bank b).trap.pfx = (s.bank b).wc.pfx ∧ (u.bank b).trap.dec = (s.bank b).out.dec ∧
      (∀ n, n ≠ csrTCAUSE → n ≠ csrTVAL → n ≠ csrTPC → (u.bank b).csrGet n = (s.bank b).csrGet n)))

/-- R165: `tret` outside handler mode raises ILLEGAL. In it, the strand that TCAUSE names resumes at TPC.pc, with the
trapping word's walk index where that is the word at which the trap was taken and the next one where it is not; the bank
has left handler mode, and the control strand, where another strand had trapped, is back where it stood. At its own word
it finds the prefix and the request that the trap kept; a word that it does not go back to counts as passed by every
strand (log entries 11, 12, 13). -/
def Obligations.TrapReturn : Prop :=
  ∀ (s : State), s.cur.strand = .c →
    (s.here.trap.handler = false → Traps .tret s .c 0x01 (wordVal .tret)) ∧
    (∀ e : Strand, s.here.trap.handler = true → s.here.trap.taken.strand = e →
      bitsOf (s.here.csrGet csrTCAUSE).toNat 9 8 = e.code →
      let t := s.here.trap.taken
      let pc := bitsOf (s.here.csrGet csrTPC).toNat 14 0
      let trapPc := if e = .c then t.pc else (s.here.walker e).pc
      Goes .tret s (fun u => OnlyBank s.cur.bank s u ∧ u.here.trap.handler = false ∧
        (u.here.walker e).pc = pc ∧ (u.here.walker e).walk = (if pc = trapPc then t.walk else t.walk + 1) ∧
        (e ≠ .c → u.here.wc.pc = t.pc) ∧
        (e ≠ .c ∨ pc = t.pc → u.here.wc.pfx = s.here.trap.pfx ∧ u.here.out.dec = s.here.trap.dec) ∧
        (e = .c → pc ≠ t.pc → u.here.wc.pfx = none ∧ s.here.wc.walk ∈ u.here.trap.skips) ∧
        (∀ f, f ≠ e → f ≠ .c → (u.here.walker f).pc = (s.here.walker f).pc ∧
          (u.here.walker f).walk = (s.here.walker f).walk) ∧
        u.here.r = s.here.r ∧ u.here.q = s.here.q ∧ u.here.csr = s.here.csr))

/-- R221, R280, R281, R73, R269, R270: words of the control strand that touch no register. `trapfence`, in an ac after
that in which the last earlier vector or matrix word raised its flags, traps with ARITH and TVAL FSTAT & FENA where an
enabled flag is set and else passes; `yield` is a yield point, where the watchdog count restarts and a task whose group
is pending checkpoint stops, unless it waits at a `bar` or has a trap still to take (the model's choice, log entry 111);
`intr` leaves its vector to be sent, and passes at once while a message of its vector waits, which is sent once (the
model's choice, log entry 51); `fence` puts a fence in force, and one of a scope above 5 or without an order is ILLEGAL. -/
def Obligations.YieldAndFences : Prop :=
  (∀ s : State, CtlReady s [] → s.here.arithDone = true → s.here.now.raised = 0 →
    let bits := s.here.fstatAt &&& s.here.csrGet csrFENA
    (bits = 0 → Goes .trapfence s (fun t => t.here.wc.pc = s.here.wc.pc + 1 ∧ t.here.trap = s.here.trap ∧
      t.here.r = s.here.r ∧ t.mem = s.mem)) ∧
    (bits ≠ 0 → Goes .trapfence s (fun t => t.here.wc.pc = s.here.wc.pc ∧ t.here.trap.pending = s.here.trap.pending ++
      [{ strand := .c, code := 0x0E, tval := bits, walk := s.here.wc.walk, pc := s.here.wc.pc,
         deferred := false, arose := s.here.trap.handler }]))) ∧
  (∀ s : State, CtlReady s [] →
    let stops := s.checkpointPending s.cur.bank = true ∧ s.here.status = .live ∧ s.here.atBar = false ∧
      s.here.trap.pending = []
    Goes .yield s (fun t => (¬ stops → OnlyBank s.cur.bank s t) ∧ t.here.n.watchdog = 0 ∧
      t.here.r = s.here.r ∧ t.here.wc.pc = s.here.wc.pc + 1 ∧ t.mem = s.mem ∧
      t.here.status = (if stops then .stopped else s.here.status))) ∧
  (∀ (s : State) (v : BitVec 6), CtlReady s [] → v.toNat < 62 → Goes (.intr v) s (fun t =>
    (∃ w, w ∈ t.here.out.intrs ∧ w.1 = v.toNat ∧ w.2.2 = s.here.wc.walk) ∧
    (∀ w w', w ∈ t.here.out.intrs → w' ∈ t.here.out.intrs → w.1 = v.toNat → w'.1 = v.toNat → w = w') ∧
    t.here.r = s.here.r ∧ t.here.wc.pc = s.here.wc.pc + 1)) ∧
  (∀ (s : State) (v : BitVec 6), CtlReady s [] → 62 ≤ v.toNat → Traps (.intr v) s .c 0x01 (wordVal (.intr v))) ∧
  (∀ (s : State) (sc : BitVec 3) (o : BitVec 2), CtlReady s [] → sc.toNat ≤ 5 → o ≠ 0 →
    Goes (.fence sc o) s (fun t => (∃ f, f ∈ t.here.out.fences ∧ f.ord = o.toNat ∧ f.scope = sc.toNat ∧
      f.walk = s.here.wc.walk) ∧ t.here.r = s.here.r ∧ t.mem = s.mem ∧ t.here.wc.pc = s.here.wc.pc + 1)) ∧
  (∀ (s : State) (sc : BitVec 3) (o : BitVec 2), CtlReady s [] → 5 < sc.toNat ∨ o = 0 →
    Traps (.fence sc o) s .c 0x01 (wordVal (.fence sc o)))

/-- R136, R118, R227: words that stand before others. A header word whose mask does not name the strand is skipped;
one whose condition holds at the start of the ac is passed, and HEADER_PASS passes it for a strand that waits at it;
where it does not hold the strand stands there, at a yield point. Passing one that waits on a flag which a completed
barrier of the split form has raised is the departure, an acquire fence at the barrier's scope (R269). A prefix word
before a MEM word is kept for it by the control strand; before any other word it raises PREFIX. That the control strand
takes these traps at the prefix word is the model's choice (log entry 17). -/
def Obligations.HeadersAndPrefixes : Prop :=
  (∀ (s : State) (m f : BitVec 4) (c : BitVec 1) (v : BitVec 20), isSys s.cur.bank = false →
    s.here.trap.handler = false →
    let e := s.cur.strand
    let holds := if c = 1 then s.here.flagAt f.toNat = v else (s.here.flagAt f.toNat - v).toNat < 2 ^ 19
    (maskNames m e = false ∨ (holds ∧ ∀ x, x ∈ s.here.out.departs → x.1 ≠ f.toNat) →
      Goes (.hwait m f c v) s (fun t => OnlyPasses e s t)) ∧
    (∀ sc, maskNames m e = true → holds → s.here.out.departs.filter (fun x => decide (x.1 = f.toNat)) = [(f.toNat, sc)] →
      Goes (.hwait m f c v) s (fun t => (t.here.walker e).pc = (s.here.walker e).pc + 1 ∧ t.here.r = s.here.r ∧
        t.mem = s.mem ∧ ∃ x, x ∈ t.here.out.fences ∧ x.ord = 1 ∧ x.scope = sc ∧ x.walk = (s.here.walker e).walk)) ∧
    (maskNames m e = true → ¬ holds → Goes (.hwait m f c v) s (fun t => (t.here.walker e).pc = (s.here.walker e).pc ∧
      (t.here.walker e).walk = (s.here.walker e).walk ∧ (t.here.walker e).stall = .header ∧
      t.here.n.watchdog = 0 ∧ t.here.r = s.here.r))) ∧
  (∀ (s : State) (b : Nat) (e : Strand) (m f : BitVec 4) (c : BitVec 1) (v : BitVec 20), s.input.who = b →
    s.input.strand = e → mayIssue s b e = true → ((s.bank b).walker e).stall = .header →
    decodeWord ((s.bank b).wordAt ((s.bank b).walker e).pc) = some (.hwait m f c v) → maskNames m e = true →
    headerHolds ((s.bank b).flagAt f.toNat) c v = true →
    Goes .headerPass s (fun t => ((∀ x, x ∈ (s.bank b).out.departs → x.1 ≠ f.toNat) → OnlyBank b s t) ∧
      t.mem = s.mem ∧ ((t.bank b).walker e).pc = ((s.bank b).walker e).pc + 1 ∧
      (t.bank b).r = (s.bank b).r)) ∧
  (∀ (s : State) (o sc : BitVec 3) (p : BitVec 2) (c : BitVec 3) (f : BitVec 2), s.cur.strand = .c →
    isSys s.cur.bank = false →
    (s.here.nextTag .c = some 1 → o.toNat ≤ 3 → sc.toNat ≤ 5 → c.toNat ≤ 3 →
      Goes (.pfx o sc p c f) s (fun t => t.here.wc.pc = s.here.wc.pc + 1 ∧
        t.here.wc.pfx = some (encode (.pfx o sc p c f)) ∧ t.here.r = s.here.r ∧
        t.here.annot .c = { ord := o.toNat, scope := sc.toNat, space := p.toNat, cache := c.toNat,
                            offset := f.toNat })) ∧
    (s.here.nextTag .c = some 1 → 3 < o.toNat ∨ 5 < sc.toNat ∨ 3 < c.toNat →
      Traps (.pfx o sc p c f) s .c 0x01 (wordVal (.pfx o sc p c f))) ∧
    (s.here.nextTag .c ≠ some 1 → s.here.nextTag .c ≠ some 4 →
      Traps (.pfx o sc p c f) s .c 0x05 (wordVal (.pfx o sc p c f)))) ∧
  (∀ s : State, isSys s.cur.bank = false → s.cur.strand = .c → (s.input.value.toNat % 2 ^ 32) / 2 ^ 29 ∈ [0, 1, 7] →
    Traps .illegalWord s .c 0x01 (BitVec.ofNat 64 (s.input.value.toNat % 2 ^ 32)))

/-! ### Memory words -/

/-- R293, R295, R300, R303, R306, R307, R310, R315: a MEM word that reads, whose checks pass at the address it forms,
leaves its access outstanding and passes; an updated base (R229) takes its new value. What the access reads arrives
later (LOAD_DATA_ARRIVAL). A word of which a request to a peer finds no slot stalls (R47): `ldq`, whose requests may be
several, at its word, until all of them have theirs. -/
def Obligations.ReadsIssue : Prop :=
  (∀ (s u : State) (t a : BitVec 6) (z : BitVec 2) (i : BitVec 10) (vas : List Nat) (ps : List Place),
    CtlReady s [t.toNat, a.toNat] →
    let b := s.cur.bank
    let an := s.here.annot .c
    let off := (fmOffset an.offset z i).1
    let upd := (fmOffset an.offset z i).2
    fmIllegal an.offset a.toNat (some t.toNat) = false → u.remoteRoom b an true (2 ^ z.toNat) vas ps = true →
    (memCheck (.ld t a z i) b s an .read a.toNat [off] (2 ^ z.toNat) false .may = .ok u vas ps →
      exec (.ld t a z i) s = .next (((fmBase b a.toNat (s.reg a) upd u).issueAccess b
        (mkAccess u b an .ld (2 ^ z.toNat) t.toNat 0 0 [] vas ps)).updBank b (·.pass .c))) ∧
    (memCheck (.ldz t a z i) b s an .read a.toNat [off] (2 ^ z.toNat) false .may = .ok u vas ps →
      exec (.ldz t a z i) s = .next (((fmBase b a.toNat (s.reg a) upd u).issueAccess b
        (mkAccess u b an .ldz (2 ^ z.toNat) t.toNat 0 0 [] vas ps)).updBank b (·.pass .c)))) ∧
  (∀ (s : State) (t a : BitVec 6) (i : BitVec 10), CtlReady s [t.toNat, a.toNat] →
    let b := s.cur.bank
    let an := s.here.annot .c
    let upd := (fmOffset an.offset 3 i).2
    fmIllegal an.offset a.toNat (some t.toNat) = false → an.space ≠ 1 → an.space ≠ 2 →
    ∀ (u : State) (vas : List Nat) (ps : List Place) (q : Parcel),
      memCheck (.ldref t a i) b s an .read a.toNat [(fmOffset an.offset 3 i).1] 8 true .never = .ok u vas ps →
      u.openEntry b ((u.bank b).r.binding a.toNat - 1) = some q →
      exec (.ldref t a i) s = .next (((fmBase b a.toNat (s.reg a) upd u).issueAccess b
        (mkAccess u b an (.ldref q.length (refMark (u.bank b) a.toNat (s.reg a) upd)) 8 t.toNat 0 0 [] vas ps)).updBank b
          (·.pass .c))) ∧
  (∀ (s u : State) (q : BitVec 3) (x : BitVec 1) (z : BitVec 2) (a : BitVec 6) (i : BitVec 12) (vas : List Nat)
    (ps : List Place), CtlReady s [a.toNat] → q.toNat < 4 → (∀ id, s.here.out.dec ≠ .issuing id) →
    s.here.filledOf (32 + q.toNat) (KV.get [] s.here.q.lq q.toNat).length < 16 →
    (x = 1 → s.here.poppable qcOq s.here.q.oq.length ≠ 0) →
    let b := s.cur.bank
    let an := s.here.annot .c
    let n := queueLanes s.here x z.toNat
    memCheck (.ldq q x z a i) b s an .read a.toNat (queueDisps x z.toNat n i (s.here.q.oq.headD 0)) (2 ^ z.toNat)
      false (queueRule x) = .ok u vas ps → u.remoteRoom b an true (2 ^ z.toNat * n) vas ps = true →
    let acc := mkAccess u b an (.ldq q.toNat) (2 ^ z.toNat) 0 0 0 [] vas ps
    let w := (((popOq x b u).onQ b (fun w => { w with
      lq := KV.put w.lq q.toNat (KV.get [] w.lq q.toNat ++ [{ access := acc.id, data := none }]) })).updBank b
        (·.notePush (32 + q.toNat) 1)).issueAccess b acc
    (w.lacksSlot b acc.id = false →
      exec (.ldq q x z a i) s = .next ((w.setDec b .none).updBank b (·.pass .c))) ∧
    (w.lacksSlot b acc.id = true →
      exec (.ldq q x z a i) s = .next (w.standsForSlot b acc.id))) ∧
  (∀ (s : State) (q : BitVec 3) (x : BitVec 1) (z : BitVec 2) (a : BitVec 6) (i : BitVec 12) (id : Nat),
    CtlReady s [a.toNat] → q.toNat < 4 → s.here.out.dec = .issuing id →
    let b := s.cur.bank
    let w := (s.takeAll b id).pump b id
    (w.lacksSlot b id = false → exec (.ldq q x z a i) s = .next ((w.setDec b .none).updBank b (·.pass .c))) ∧
    (w.lacksSlot b id = true → exec (.ldq q x z a i) s = .next (w.standsForSlot b id))) ∧
  (∀ (s u : State) (d a c : BitVec 6) (n : BitVec 4) (z : BitVec 2) (vas : List Nat) (ps : List Place),
    CtlReady s [d.toNat, a.toNat, c.toNat] → n.toNat ≤ 8 → 2 ≤ z.toNat →
    let b := s.cur.bank
    let an := s.here.annot .c
    memCheck (.amo d a c n z) b s an .atomic a.toNat [0] (2 ^ z.toNat) false .may = .ok u vas ps →
    u.remoteRoom b an false (2 ^ z.toNat) vas ps = true →
    let w := if (ps.headD (.mem 0)).isRem then u.markDirty (u.bank b).place.vi (vas.headD 0) (2 ^ z.toNat) else u
    exec (.amo d a c n z) s = .next ((w.issueAccess b
      (mkAccess w b an (.amo n.toNat) (2 ^ z.toNat) d.toNat (s.reg c) 0 [] vas ps)).updBank b (·.pass .c))) ∧
  (∀ (s u : State) (d a c : BitVec 6) (k : BitVec 4) (z : BitVec 2) (vas : List Nat) (ps : List Place),
    CtlReady s [d.toNat, a.toNat, c.toNat, 64 + k.toNat] → 2 ≤ z.toNat →
    let b := s.cur.bank
    let an := s.here.annot .c
    memCheck (.cas d a c k z) b s an .atomic a.toNat [0] (2 ^ z.toNat) false .may = .ok u vas ps →
    u.remoteRoom b an false (2 ^ z.toNat) vas ps = true →
    let w := if (ps.headD (.mem 0)).isRem then u.markDirty (u.bank b).place.vi (vas.headD 0) (2 ^ z.toNat) else u
    exec (.cas d a c k z) s = .next ((w.issueAccess b
      (mkAccess w b an (.cas k.toNat) (2 ^ z.toNat) d.toNat (s.reg d) (s.reg c) [] vas ps)).updBank b
        (·.pass .c))) ∧
  (∀ (s u : State) (a : BitVec 6) (n : BitVec 3) (vas : List Nat) (ps : List Place), CtlReady s [a.toNat] →
    let b := s.cur.bank
    let an := s.here.annot .c
    let k := n.toNat + 1
    s.here.mpushOut = false → s.here.filledOf qcMq s.here.q.mq.length + k ≤ 8 → an.space ≠ 2 →
    memCheck (.mpush a n) b s an .read a.toNat ((List.range k).map (fun (j : Nat) => 16 * (j : Int))) 16 false
      .never = .ok u vas ps →
    exec (.mpush a n) s = .next ((u.issueAccess b (mkAccess u b an (.mpush k) 16 0 0 0 [] vas ps)).updBank b
      (·.pass .c)))

/-- R125, R295, R300, R303, R306, R307, R315: LOAD_DATA_ARRIVAL performs an access of bank `input.who` that may be
performed now and is not poisoned: the access leaves, its scalar is no longer pending, and it holds the bytes read at
the access's lanes, sign- or zero-extended; a load-queue entry or mq takes them. A reference that an `ldref` reads
takes the base's binding where it is well-formed (R170); a malformed one traps with REF_FORM at the word of the
`ldref`, to which the control strand goes back while what later words have done stays (the model's choice, log entry
10). An atomic in a scratchpad writes its result there and returns the old bytes. A lane of a system core in hub register
space reads the registers there, with what reading them does. -/
def Obligations.LoadsLand : Prop :=
  ∀ (s : State) (b : Nat) (a : Access), s.input.who = b → a.id = s.input.sub →
    (s.bank b).out.acc.find? (fun x => x.id = s.input.sub) = some a → a.remote = false → s.accReady b a = true →
    s.input.check ≠ .fail → s.poisoned a = false →
    let read := if isSys b && a.lanes.any inHub then s.hubBytes b a else (s, s.accBytes b a)
    let h := read.1
    let bs := read.2
    let v := ofLeBytes (bs.take a.size)
    let left := fun (t : State) => (t.bank b).out.acc = (h.bank b).out.acc.filter (fun x => x.id ≠ a.id)
    let other := fun (t : State) => ∀ n, n ≠ a.dst → (t.bank b).r.readS n = (h.bank b).r.readS n
    let dst := fun (t : State) (x : Word) => (t.bank b).r.readS a.dst = (if a.dst = 0 then 0 else x) ∧
      a.dst ∉ (t.bank b).r.pend
    (a.op = .ld → Goes .loadDataArrival s (fun t => left t ∧ other t ∧ t.mem = h.mem ∧
      dst t ((BitVec.ofNat (8 * a.size) v).signExtend 64))) ∧
    (a.op = .ldz → Goes .loadDataArrival s (fun t => left t ∧ other t ∧ t.mem = h.mem ∧ dst t (BitVec.ofNat 64 v))) ∧
    (∀ len m, a.op = .ldref len m →
      let bad := v ≠ 0 ∧ (v < 64 ∨ len ≤ v ∨ 2 ^ 40 ≤ v)
      (¬ bad → Goes .loadDataArrival s (fun t => left t ∧ other t ∧ t.mem = h.mem ∧ dst t (BitVec.ofNat 64 v) ∧
        (t.bank b).r.binding a.dst = (if a.dst = 0 then 0 else m.bind))) ∧
      (bad → Goes .loadDataArrival s (fun t => left t ∧ t.mem = h.mem ∧ a.dst ∉ (t.bank b).r.pend ∧
        (t.bank b).wc.pc = m.pc ∧ (t.bank b).wc.walk = a.walk ∧
        (∃ x, x ∈ (t.bank b).trap.pending ∧ x.strand = .c ∧ x.code = 0x0A ∧ x.tval = BitVec.ofNat 64 v ∧
          x.walk = a.walk ∧ x.pc = m.pc ∧ x.deferred = false) ∧
        ∀ n, n ≠ m.base → (t.bank b).r.readS n = (h.bank b).r.readS n))) ∧
    (∀ q, a.op = .ldq q → Goes .loadDataArrival s (fun t => left t ∧ t.mem = h.mem ∧
      KV.get [] (t.bank b).q.lq q = (KV.get [] (h.bank b).q.lq q).map (fun e =>
        if e.access = a.id then { e with data := some (BitVec.ofNat 4096 (ofLeBytes bs)) } else e))) ∧
    (∀ n, a.op = .mpush n → Goes .loadDataArrival s (fun t => left t ∧ t.mem = h.mem ∧
      (t.bank b).q.mq.length = (h.bank b).q.mq.length + n)) ∧
    (∀ fn, a.op = .amo fn → a.scr = true → Goes .loadDataArrival s (fun t =>
      let old := ofLeBytes (s.scr.readN (a.lanes.headD 0) a.size)
      (t.bank b).out.acc = (s.bank b).out.acc.filter (fun x => x.id ≠ a.id) ∧
      (∀ n, n ≠ a.dst → (t.bank b).r.readS n = (s.bank b).r.readS n) ∧ t.mem = s.mem ∧
      t.scr = s.scr.writeN (a.lanes.headD 0)
        (leBytes a.size (amoOp fn (8 * a.size) old (a.x.toNat % 2 ^ (8 * a.size)))) ∧
      dst t (BitVec.ofNat 64 (ofLeBytes ((leBytes a.size old).take a.size)))))

/-- R300, R304, R310, R188, R190: a store whose checks pass, to memory of this module or to a scratchpad. It has no
effect on memory yet beyond its granule's mark in the dirty log: its bytes stand in writes in flight that are applied
on no die, at the address that the checks gave, so every other observer reads every byte as before. -/
def Obligations.StoresIssue : Prop :=
  (∀ (s u : State) (t a : BitVec 6) (z : BitVec 2) (i : BitVec 10) (va pa : Nat),
    CtlReady s [t.toNat, a.toNat] →
    let b := s.cur.bank
    let an := s.here.annot .c
    fmIllegal an.offset a.toNat none = false →
    memCheck (.st t a z i) b s an .write a.toNat [(fmOffset an.offset z i).1] (2 ^ z.toNat) false .may =
      .ok u [va] [.mem pa] →
    Goes (.st t a z i) s (fun v =>
      let d := u.markDirty (u.bank b).place.vi va (2 ^ z.toNat)
      v.mem = d.mem ∧ v.scr = s.scr ∧ v.here.wc.pc = (u.bank b).wc.pc + 1 ∧
      (∃ new : List Write, v.writes = d.writes ++ new ∧ (new.map (·.bytes)).flatten = leBytes (2 ^ z.toNat) (s.reg t).toNat ∧
        ∀ w, w ∈ new → w.writer = .ctl b ∧ w.scr = false ∧ w.dies = [] ∧ w.ord = none ∧ pa ≤ w.addr ∧
          w.addr + w.bytes.length ≤ pa + 2 ^ z.toNat) ∧
      (∀ e x, v.seeByte none e x = d.seeByte none e x) ∧
      (∀ e x, x < pa ∨ pa + 2 ^ z.toNat ≤ x →
        v.seeByte (some (.ctl b, v.nextId)) e x = d.seeByte (some (.ctl b, v.nextId)) e x))) ∧
  (∀ (s : State) (t a : BitVec 6) (z : BitVec 2) (i : BitVec 10) (va sa : Nat) (own : Bool),
    CtlReady s [t.toNat, a.toNat] →
    let b := s.cur.bank
    let an := s.here.annot .c
    fmIllegal an.offset a.toNat none = false → an.offset < 2 →
    memCheck (.st t a z i) b s an .write a.toNat [(fmOffset an.offset z i).1] (2 ^ z.toNat) false .may =
      .ok s [va] [.scr sa own] →
    Goes (.st t a z i) s (fun v => v.mem = s.mem ∧ v.scr = s.scr ∧ v.here.r = s.here.r ∧
      ∃ w, v.writes = s.writes ++ [w] ∧ w.writer = .ctl b ∧ w.scr = true ∧ w.own = own ∧ w.addr = sa ∧
        w.bytes = leBytes (2 ^ z.toNat) (s.reg t).toNat)) ∧
  (∀ (s u : State) (t a : BitVec 6) (i : BitVec 10) (va : Nat) (p : Place) (q : Parcel), CtlReady s [t.toNat, a.toNat] →
    let b := s.cur.bank
    let an := s.here.annot .c
    let r := s.here.r
    fmIllegal an.offset a.toNat none = false → an.space ≠ 1 → an.space ≠ 2 →
    memCheck (.stref t a i) b s an .write a.toNat [(fmOffset an.offset 3 i).1] 8 true .never = .ok u [va] [p] →
    p.isRem = false → u.openEntry b ((u.bank b).r.binding a.toNat - 1) = some q →
    (t = 0 ∨ r.binding t.toNat = r.binding a.toNat) →
    (s.reg t = 0 ∨ (64 ≤ (s.reg t).toNat ∧ (s.reg t).toNat < q.length ∧ (s.reg t).toNat < 2 ^ 40)) →
    exec (.stref t a i) s = .next (((fmBase b a.toNat (s.reg a) (fmOffset an.offset 3 i).2 u).storeAt b an none va p
      (leBytes 8 (s.reg t &&& 0xFFFFFFFFFF).toNat)).updBank b (·.pass .c))) ∧
  (∀ (s u : State) (q : BitVec 3) (z : BitVec 2) (a : BitVec 6) (i : BitVec 12) (vas : List Nat) (ps : List Place)
    (head : VecBits) (more : List VecBits), CtlReady s [a.toNat] → 4 ≤ q.toNat → q.toNat < 6 →
    KV.get [] s.here.q.sq (q.toNat - 4) = head :: more →
    s.here.poppable (37 + (q.toNat - 4)) (more.length + 1) ≠ 0 →
    let b := s.cur.bank
    let an := s.here.annot .c
    let size := 2 ^ z.toNat
    let n := queueLanes s.here 0 z.toNat
    memCheck (.stq q 0 z a i) b s an .write a.toNat (queueDisps 0 z.toNat n i (s.here.q.oq.headD 0)) size false
      .oneGranule = .ok u vas ps → ps.any Place.isRem = false →
    exec (.stq q 0 z a i) s = .next (((lanePieces size (vas.zip ps) (laneBytes size n head)).foldl
      (fun s y => s.storeAt b an (footOf size ps) y.1 y.2.1 y.2.2) ((u.onQ b (fun w => { w with
        sq := KV.put w.sq (q.toNat - 4) more })).updBank b (·.notePop (37 + (q.toNat - 4)) 1))).updBank b (·.pass .c)))

/-- R139, R293, R294, R171: where a scalar load traps. In local scratchpad space a misaligned window address traps with
ALIGN and one whose bytes pass the window with SCRATCH_BOUNDS; in global space an unbound base whose address is 2^57 or
above traps with ACCESS, a misaligned one with ALIGN; TVAL holds the address. -/
def Obligations.LoadsTrap : Prop :=
  ∀ (s : State) (t a : BitVec 6) (z : BitVec 2) (i : BitVec 10), CtlReady s [t.toNat, a.toNat] →
    s.here.out.denied = none →
    let an := s.here.annot .c
    let x := addTo (s.reg a).toNat (fmOffset an.offset z i).1
    let size := 2 ^ z.toNat
    fmIllegal an.offset a.toNat (some t.toNat) = false →
    (an.space = 1 → x % size ≠ 0 → Traps (.ld t a z i) s .c 0x06 (BitVec.ofNat 64 x)) ∧
    (an.space = 1 → x % size = 0 → s.here.windowSize < x + size →
      Traps (.ld t a z i) s .c 0x08 (BitVec.ofNat 64 (max x s.here.windowSize))) ∧
    (an.space = 0 → s.here.r.binding a.toNat = 0 → 2 ^ 57 ≤ x →
      Traps (.ld t a z i) s .c 0x07 (BitVec.ofNat 64 x)) ∧
    (an.space = 0 → s.here.r.binding a.toNat = 0 → x < 2 ^ 57 → x % size ≠ 0 →
      Traps (.ld t a z i) s .c 0x06 (BitVec.ofNat 64 x))

/-- R309, R196: a `scop` whose checks pass waits for its wheel position, one at a time. SCOP_PERFORM performs it at a
position that its bank holds, in a tick after that in which it became ready: it reads the bytes, writes them for
`scop.st` and the read-modify-writes, and ends the wait; the scalar takes the old value. One of a system core in hub
register space reads and writes the registers there. -/
def Obligations.Scops : Prop :=
  (∀ (s u : State) (d a c : BitVec 6) (o : BitVec 4) (z : BitVec 2) (vas : List Nat) (ps : List Place),
    2 ≤ z.toNat → s.here.out.scop = none →
    let b := s.cur.bank
    let an := s.here.annot .c
    let wait := fun (op : Nat) (x : Word) (dst : Nat) (t : State) =>
      (∃ r, t.here.out.scop = some r ∧ r.id = u.nextId ∧ r.walk = (u.bank b).wc.walk ∧ r.op = op ∧
        r.size = 2 ^ z.toNat ∧ r.pa = (ps.headD (.mem 0)).addr ∧ r.va = vas.headD 0 ∧ r.dst = dst ∧ r.x = x) ∧
      t.mem = u.mem ∧ t.here.wc.pc = (u.bank b).wc.pc + 1 ∧ (op ≠ 1 → dst ≠ 0 → dst ∈ t.here.r.pend)
    an.space ≠ 1 → an.space ≠ 2 →
    (CtlReady s [d.toNat, a.toNat] →
      memCheck (.scopLd d a z) b s an .scopRead a.toNat [0] (2 ^ z.toNat) false .neverTransit = .ok u vas ps →
      Goes (.scopLd d a z) s (wait 0 0 d.toNat)) ∧
    (CtlReady s [a.toNat, c.toNat] →
      memCheck (.scopSt a c z) b s an .write a.toNat [0] (2 ^ z.toNat) false .neverTransit = .ok u vas ps →
      Goes (.scopSt a c z) s (wait 1 (s.reg c) 0)) ∧
    (CtlReady s [d.toNat, a.toNat, c.toNat] → 2 ≤ o.toNat → o.toNat ≤ 6 →
      memCheck (.scopRmw d a c o z) b s an .atomic a.toNat [0] (2 ^ z.toNat) false .neverTransit = .ok u vas ps →
      Goes (.scopRmw d a c o z) s (wait o.toNat (s.reg c) d.toNat))) ∧
  (∀ (s : State) (b : Nat) (r : ScopRec), s.input.who = b → (s.bank b).out.scop = some r →
    (∃ k, r.ready = some k ∧ k < wheelTick s.time) →
    wheelHolds b (s.bank b).place.wheel (wheelTick s.time % 4096) = true → s.poisonAt r.pa = false → s.writes = [] →
    (r.op = 1 ∨ s.input.check ≠ .fail) →
    let ends := fun (old : Nat) (t : State) => (t.bank b).out.scop = none ∧
      (r.op ≠ 1 → (t.bank b).r.readS r.dst = (if r.dst = 0 then 0 else BitVec.ofNat 64 old) ∧
        r.dst ∉ (t.bank b).r.pend)
    ((isSys b && inHub r.pa) = true → Goes .scopPerform s (ends (s.hubGet (r.pa - hubBase) r.size).2)) ∧
    ((isSys b && inHub r.pa) = false → Goes .scopPerform s (fun t =>
      let old := ofLeBytes (s.mem.readN r.pa r.size)
      ends old t ∧
      (r.op = 0 → t.mem = s.mem) ∧
      (r.op = 1 → t.mem = (s.markDirty (s.bank b).place.vi r.va r.size).mem.writeN r.pa
        (leBytes r.size r.x.toNat)) ∧
      (2 ≤ r.op → t.mem = (s.markDirty (s.bank b).place.vi r.va r.size).mem.writeN r.pa
        (leBytes r.size (amoOp (r.op - 2) (8 * r.size) old (r.x.toNat % 2 ^ (8 * r.size))))))))

/-- R316, R317: hints never fault. `pfetch`, `cache.drop` and `cache.demote` pass, whatever their address, where their
offset mode is one that they may take; no register but an updated base changes, and no byte of memory does. -/
def Obligations.Hints : Prop :=
  ∀ (s : State) (a : BitVec 6) (z : BitVec 2) (i : BitVec 10), CtlReady s [a.toNat] →
    let an := s.here.annot .c
    let upd := (fmOffset an.offset z i).2
    let plain := fun (t : State) => t.mem = s.mem ∧ t.scr = s.scr ∧ t.writes = s.writes ∧
      t.here.wc.pc = s.here.wc.pc + 1 ∧
      t.here.r = ((fmBase s.cur.bank a.toNat (s.reg a) upd s).bank s.cur.bank).r ∧ t.here.trap = s.here.trap
    fmIllegal an.offset a.toNat none = false →
    Goes (.pfetch a z i) s plain ∧ Goes (.cacheDrop a z i) s plain ∧ Goes (.cacheDemote a z i) s plain

/-- R318, R319, R314: words on the ticket table, the grant registers and the parcel registers. -/
def Obligations.TicketsGrantsParcels : Prop :=
  (∀ (s : State) (d a : BitVec 6), CtlReady s [d.toNat] →
    GivesScalar (.tktCnt d) s d (BitVec.ofNat 64 s.here.out.tkt.length) ∧
    (CtlReady s [d.toNat, a.toNat] → GivesScalar (.tktRd d a) s d
      (BitVec.ofNat 64 (s.here.ticketStatus ((s.reg a).toNat % 16))))) ∧
  (∀ s : State, CtlReady s [] → s.here.out.tkt = [] → Goes .tktWait s (fun t => OnlyPasses .c s t)) ∧
  (∀ (s : State) (a : BitVec 6) (k : BitVec 3), CtlReady s [a.toNat] →
    Goes (.grantSet a k) s (fun t => KV.get 0 t.here.r.g k.toNat = s.reg a ∧ t.here.r.s = s.here.r.s ∧
      (∀ n, n ≠ k.toNat → KV.get 0 t.here.r.g n = KV.get 0 s.here.r.g n) ∧ t.mem = s.mem) ∧
    Goes (.pctlSet a k) s (fun t => KV.get 0 t.here.r.h k.toNat = s.reg a ∧ t.here.r.s = s.here.r.s ∧
      (∀ n, n ≠ k.toNat → KV.get 0 t.here.r.h n = KV.get 0 s.here.r.h n) ∧ t.mem = s.mem)) ∧
  (∀ (s : State) (d : BitVec 6) (k : BitVec 3), CtlReady s [d.toNat] →
    GivesScalar (.grantGet d k) s d (KV.get 0 s.here.r.g k.toNat) ∧
    GivesScalar (.pctlGet d k) s d (KV.get 0 s.here.r.h k.toNat) ∧
    GivesScalar (.pctlQuery d k) s d (match s.parcel s.here.place.vi (KV.get 0 s.here.r.h k.toNat).toNat with
      | some p => BitVec.ofNat 64 p.state.code
      | none => 0)) ∧
  (∀ (s : State) (d a c : BitVec 6), CtlReady s [d.toNat, a.toNat, c.toNat] →
    let x := (s.reg a).toNat
    let y := (s.reg c).toNat
    let w := s.hubReg (offGWIN (bitsOf x 63 52))
    (gwinValid w = true → gwinTenant w = s.here.place.vi → bitsOf x 51 48 &&& gwinRights w = bitsOf x 51 48 →
      bitsOf y 9 0 ≤ 992 → GivesScalar (.grantMint d a c) s d (BitVec.ofNat 64 (bitsOf x 63 36 * 2 ^ 36 +
        s.tokenCode (bitsOf x 63 36) (bitsOf y 9 0) (bitsOf y 17 10)))) ∧
    (gwinValid w = false ∨ gwinTenant w ≠ s.here.place.vi ∨ bitsOf x 51 48 &&& gwinRights w ≠ bitsOf x 51 48 ∨
      992 < bitsOf y 9 0 → Traps (.grantMint d a c) s .c 0x0C (s.reg a)))

/-- R311 to R314, R182: parcels. `pmake` over mapped PARCEL granules that no parcel covers makes an OPEN entry with a
new handle, which the parcel register takes, and clears its predicate; a full table sets it. `pclaim` opens what has
arrived with the next generation of its handle, or sets its predicate. `pctl.free` removes an OPEN entry once no
access to it is under way. `post` of a parcel that is not OPEN traps with PARCEL_GONE; admitted, it clears its
predicate, writes where, and its parcel is on its way; with every entry of its list refused it sets its predicate. That
TVAL of PARCEL_GONE is the handle at `pctl.free` and `post` (log entry 16), and which claims of different clusters are
decided together (log entry 46), are the model's choices. -/
def Obligations.ParcelWords : Prop :=
  (∀ (s u : State) (k a c : BitVec 6) (p : BitVec 4) (xs : List (Nat × Xlat)),
    CtlReady s [a.toNat, c.toNat, 64 + p.toNat] → k.toNat < 8 →
    let base := (s.reg a).toNat
    let len := (s.reg c).toNat
    let b := s.cur.bank
    s.here.deniedHere = none →
    base % 4096 = 0 → len % 4096 = 0 → 4096 ≤ len → len ≤ 2 ^ 36 → base + len ≤ 2 ^ 57 →
    xlatAll b .write ((List.range (len / 4096)).map (fun g => base + 4096 * g)) s = (u, xs) →
    xs.all (fun x => pmakePage x.2) = true →
    s.parcels.table.any (fun q => decide (q.tenant = s.here.place.vi ∧ q.base < base + len ∧
      base < q.base + q.length)) = false →
    (16384 ≤ u.parcels.table.length → Goes (.pmake k a c p) s (fun t =>
      t.here.r.readP p.toNat = true ∧ t.parcels = u.parcels)) ∧
    (u.parcels.table.length < 16384 → Goes (.pmake k a c p) s (fun t =>
      let handle := u.boot.moduleNo * 2 ^ 54 + u.parcels.nextSerial * 2 ^ 16
      (p ≠ 0 → t.here.r.readP p.toNat = false) ∧ KV.get 0 t.here.r.h k.toNat = BitVec.ofNat 64 handle ∧
      ∃ q, q ∈ t.parcels.table ∧ q.handle = handle ∧ q.tenant = s.here.place.vi ∧ q.base = base ∧ q.length = len ∧
        q.state = .opened))) ∧
  (∀ (s : State) (k : BitVec 3) (a : BitVec 6) (p : BitVec 4), CtlReady s [a.toNat, 64 + p.toNat] →
    let b := s.cur.bank
    let ac := s.acOf (clusterOf b)
    let wins := fun (h : Word) (t : State) => (p ≠ 0 → t.here.r.readP p.toNat = false) ∧ t.here.r.s = s.here.r.s ∧
      KV.get 0 t.here.r.h k.toNat = h ∧ t.here.wc.pc = s.here.wc.pc + 1 ∧ t.here.out.dec = .none
    let loses := fun (t : State) => t.here.r.readP p.toNat = true ∧ t.here.r.s = s.here.r.s ∧
      t.here.r.h = s.here.r.h ∧ t.here.wc.pc = s.here.wc.pc + 1 ∧ t.here.out.dec = .none
    (s.here.out.dec = .none → Goes (.pclaim k a p) s (fun t => OnlyBank b s t ∧ t.here.wc.pc = s.here.wc.pc ∧
      t.here.r = s.here.r ∧ t.here.out.dec = .claiming ac s.time a.toNat)) ∧
    (∀ n m, s.here.out.dec = .claiming n m a.toNat → n ≠ ac → s.claimed b a.toNat = none →
      Goes (.pclaim k a p) s loses) ∧
    (∀ n m q, s.here.out.dec = .claiming n m a.toNat → n ≠ ac → s.claimed b a.toNat = some q →
      let c : Claim := { bank := b, ac := n, at_ := m, parcel := q }
      s.claimAhead c = false →
      ((∀ d, d ∈ s.rivals c → b ≤ d.bank) →
        Goes (.pclaim k a p) s (wins (BitVec.ofNat 64 (nextGeneration q.handle)))) ∧
      ((∃ d, d ∈ s.rivals c ∧ d.bank < b) → Goes (.pclaim k a p) s loses)) ∧
    (∀ h, s.here.out.dec = .admitted h → Goes (.pclaim k a p) s (wins h)) ∧
    (∀ x, s.here.out.dec = .refused x → Goes (.pclaim k a p) s loses)) ∧
  (∀ (s : State) (k : BitVec 3), CtlReady s [] →
    (s.openEntry s.cur.bank k.toNat = none →
      Traps (.pctlFree k) s .c 0x0B (KV.get 0 s.here.r.h k.toNat)) ∧
    (∀ q, s.openEntry s.cur.bank k.toNat = some q → s.parcelBusy q = false → Goes (.pctlFree k) s (fun t =>
      KV.get 0 t.here.r.h k.toNat = 0 ∧ t.here.r.s = s.here.r.s ∧ ∀ r, r ∈ t.parcels.table → r.id ≠ q.id))) ∧
  (∀ (s : State) (d : BitVec 6) (g k j : BitVec 3) (p f : BitVec 4), CtlReady s [d.toNat, 64 + p.toNat] →
    (s.openEntry s.cur.bank k.toNat = none →
      Traps (.post d g k j p f) s .c 0x0B (KV.get 0 s.here.r.h k.toNat)) ∧
    (∀ q n, s.openEntry s.cur.bank k.toNat = some q →
      s.listBad s.cur.bank [5] (s.here.routeList j.toNat) = false → s.here.out.dec = .declined n →
      (listEntries (s.here.routeList j.toNat)).drop (n + 1) = [] →
      Goes (.post d g k j p f) s (fun t => t.here.r.readP p.toNat = true ∧ t.here.r.readS d.toNat = 0 ∧
        t.here.out.dec = .none ∧ t.parcels = s.parcels)) ∧
    (∀ q h, s.openEntry s.cur.bank k.toNat = some q →
      s.listBad s.cur.bank [5] (s.here.routeList j.toNat) = false → s.here.out.dec = .admitted h →
      s.parcelBusy q = false →
      Goes (.post d g k j p f) s (fun t => (p ≠ 0 → t.here.r.readP p.toNat = false) ∧
        t.here.r.readS d.toNat = (if d = 0 then 0 else h &&& 0x3FFFF) ∧ t.here.out.dec = .none ∧
        t.here.wc.pc = s.here.wc.pc + 1 ∧
        ∀ r, r ∈ t.parcels.table → r.id = q.id → r.state = .inTransit ∨ r.state = .bounced)))

/-- R320, R321, R322, R146, R62: `tlbop` and `dirty` are for the system cores: in a task they trap with PRIV. On a
system core `tlbop`, with nothing in flight that uses what it names, drops the translations named and passes;
`dirty.rd` reads a word of a tenant's bitmap, 0 past its end, and `dirty.snap` clears it too. -/
def Obligations.PrivilegedWords : Prop :=
  (∀ (s : State) (d a c : BitVec 6), CtlReady s [d.toNat, a.toNat, c.toNat] →
    Traps (.tlbopRng d a c) s .c 0x02 (wordVal (.tlbopRng d a c)) ∧
    Traps (.dirtySnap d a c) s .c 0x02 (wordVal (.dirtySnap d a c)) ∧
    Traps (.dirtyRd d a c) s .c 0x02 (wordVal (.dirtyRd d a c))) ∧
  (∀ (s : State) (d : BitVec 6), CtlReady s [d.toNat] → Traps (.tlbopTen d) s .c 0x02 (wordVal (.tlbopTen d))) ∧
  (∀ s : State, CtlReady s [] → Traps .tlbopAll s .c 0x02 (wordVal .tlbopAll)) ∧
  (∀ (s : State) (d a c : BitVec 6), SysReady s [d.toNat, a.toNat, c.toNat] →
    let v : Inval := { tenant := some ((s.reg d).toNat % 256), lo := (s.reg a).toNat / 4096 * 4096,
                       hi := ((s.reg a).toNat + (s.reg c).toNat + 4095) / 4096 * 4096 }
    ((s.reg c).toNat = 0 → Goes (.tlbopRng d a c) s (fun t => OnlyPasses .c s t)) ∧
    ((s.reg c).toNat ≠ 0 → (s.invalidate v).invalBusy v = false → Goes (.tlbopRng d a c) s (fun t =>
      t.tlb = s.tlb.filter (fun x => ! v.has x) ∧ t.mem = s.mem ∧ t.here.r = s.here.r ∧
      t.here.wc.pc = s.here.wc.pc + 1))) ∧
  (∀ (s : State) (d : BitVec 6), SysReady s [d.toNat] →
    let v : Inval := { tenant := some ((s.reg d).toNat % 256), lo := 0, hi := 2 ^ 57 }
    (s.invalidate v).invalBusy v = false → Goes (.tlbopTen d) s (fun t =>
      t.tlb = s.tlb.filter (fun x => ! v.has x) ∧ t.mem = s.mem ∧ t.here.wc.pc = s.here.wc.pc + 1)) ∧
  (∀ s : State, SysReady s [] →
    let v : Inval := { tenant := none, lo := 0, hi := 2 ^ 57 }
    (s.invalidate v).invalBusy v = false → Goes .tlbopAll s (fun t =>
      t.tlb = s.tlb.filter (fun x => ! v.has x) ∧ t.mem = s.mem ∧ t.here.wc.pc = s.here.wc.pc + 1)) ∧
  (∀ (s : State) (d a c : BitVec 6), SysReady s [d.toNat, a.toNat, c.toNat] →
    let vi := (s.reg c).toNat % 256
    let w := (s.reg a).toNat
    (s.dirtyWord vi w = none → Goes (.dirtyRd d a c) s (fun t => t.here.r.readS d.toNat = 0 ∧ t.mem = s.mem) ∧
      Goes (.dirtySnap d a c) s (fun t => t.here.r.readS d.toNat = 0 ∧ t.mem = s.mem)) ∧
    (∀ pa, s.dirtyWord vi w = some pa →
      Goes (.dirtyRd d a c) s (fun t => t.mem = s.mem ∧
        t.here.r.readS d.toNat = (if d = 0 then 0 else BitVec.ofNat 64 (ofLeBytes (s.mem.readN pa 8)))) ∧
      (s.dirtyBusy vi w = false → Goes (.dirtySnap d a c) s (fun t =>
        t.here.r.readS d.toNat = (if d = 0 then 0 else BitVec.ofNat 64 (ofLeBytes (s.mem.readN pa 8))) ∧
        t.mem = s.mem.writeN pa (List.replicate 8 0)))))

/-! ### Vector words -/

/-- R118, R325 to R328, R345: a vector word in the vector strand of a task. Bits that it may not have trap with
ILLEGAL, tags that it does not accept with FORMAT_TAG, a level below the one it needs with POWER_OVER; otherwise, once
its sources are there and its destination has room, it issues: it pops its sources, its effect on their values is in
flight behind those of earlier words, and the strand passes it. The words: `vadd`, `vsub`, `vmul`, `vfma`, `vmin`,
`vmax`, `vun`, `vcmp`, `vsel`, `vlog`, `vshf`, `vcvt`, `vscale`, `vred`, `vscan`, `vperm`, `vslide`, `vbcast`, `vmov`,
the four of `vmsk` (logic, ld, st, pop), `vsh`, `vtag`, `vacc`, `vhist`, `vfn`, `viota`, `vclamp`, `vtrn`. -/
def Obligations.VectorWordsIssue : Prop :=
  ∀ (s : State) (i : Instr) (plan : Bank → Nat → VecPlan), vecPlanOf i = some plan →
    let b := s.cur.bank
    let p := plan s.here.vecView s.freeCtr
    (s.cur.strand = .v → isSys b = false → i.legal = false → Traps i s .v 0x01 (wordVal i)) ∧
    (s.cur.strand = .v → isSys b = false → i.legal = true → p.tagOk = false → Traps i s .v 0x03 (wordVal i)) ∧
    (VecTagged s i p → s.here.level < p.level → Traps i s .v 0x0F (BitVec.ofNat 64 p.level)) ∧
    (VecReady s i p → exec i s = .next ((s.issueVec b i p).updBank b (·.pass .v)))

/-- R330, R332, R336, R348: integer lanes. With both tags t an integer format of w bits, `vadd`, `vsub` and `vmul`
give the low w bits of the sum, difference and product (f = 0), or the saturated sum and difference and the high bits
of the product (f = 1); `vmin` and `vmax` the smaller and the larger; `vlog` the bitwise function; `vshf` the shift or
rotate by b mod w; `vun` the negation, absolute value or complement; `viota` the lane's number. -/
def Obligations.VectorIntegers : Prop :=
  ∀ (s : State) (d a b : BitVec 6) (m f : BitVec 3),
    let V := s.here.vecView
    let t := V.opTag a
    let w := tagBits t
    let x := fun (l : Nat) => lane w (s.vecSrc a w) l
    let y := fun (l : Nat) => lane w (s.vecSrc b w) l
    let sx := fun (l : Nat) => intOf (tagSigned t) w (x l)
    let sy := fun (l : Nat) => intOf (tagSigned t) w (y l)
    let lo : Int := if tagSigned t then - 2 ^ (w - 1) else 0
    let hi : Int := if tagSigned t then 2 ^ (w - 1) - 1 else 2 ^ w - 1
    let code := fun (v : Int) => (v % (2 : Int) ^ w).toNat
    (∀ k : BitVec 6, VecReady s (.viota d k m 0) (planViota d k m 0 V s.freeCtr) →
      LanesMade (.viota d k m 0) s d m (tagBits k.toNat) k.toNat (fun l => l % 2 ^ tagBits k.toNat)) ∧
    (tagInt t = true →
    (VecReady s (.vadd d a b m f) (planVadd d a b m f V s.freeCtr) → LanesMade (.vadd d a b m f) s d m w t (fun l =>
      if f = 0 then (x l + y l) % 2 ^ w else code (max lo (min hi (sx l + sy l))))) ∧
    (VecReady s (.vsub d a b m f) (planVsub d a b m f V s.freeCtr) → LanesMade (.vsub d a b m f) s d m w t (fun l =>
      if f = 0 then (x l + 2 ^ w - y l) % 2 ^ w else code (max lo (min hi (sx l - sy l))))) ∧
    (VecReady s (.vmul d a b m f) (planVmul d a b m f V s.freeCtr) → LanesMade (.vmul d a b m f) s d m w t (fun l =>
      if f = 0 then (x l * y l) % 2 ^ w else code (sx l * sy l / (2 : Int) ^ w))) ∧
    (VecReady s (.vmin d a b m f) (planPick false d a b m f V s.freeCtr) → LanesMade (.vmin d a b m f) s d m w t
      (fun l => if sx l ≤ sy l then x l else y l)) ∧
    (VecReady s (.vmax d a b m f) (planPick true d a b m f V s.freeCtr) → LanesMade (.vmax d a b m f) s d m w t
      (fun l => if sx l ≤ sy l then y l else x l)) ∧
    (VecReady s (.vlog d a b m f) (planVlog d a b m f V s.freeCtr) → LanesMade (.vlog d a b m f) s d m w t (fun l =>
      let nx := 2 ^ w - 1 - x l
      let ny := 2 ^ w - 1 - y l
      [x l &&& y l, x l ||| y l, x l ^^^ y l, x l &&& ny, x l ||| ny, (nx &&& ny) ||| (x l &&& y l)].getD f.toNat 0)) ∧
    (VecReady s (.vshf d a b m f) (planVshf d a b m f V s.freeCtr) → LanesMade (.vshf d a b m f) s d m w t (fun l =>
      let k := y l % w
      [x l * 2 ^ k % 2 ^ w, x l / 2 ^ k, code (intOf true w (x l) / (2 : Int) ^ k),
       (x l * 2 ^ k % 2 ^ w) ||| (x l / 2 ^ (w - k)), (x l / 2 ^ k) ||| (x l * 2 ^ (w - k) % 2 ^ w)].getD f.toNat 0)) ∧
    (f.toNat ≤ 2 → VecReady s (.vun d a m f) (planVun d a m f V s.freeCtr) → LanesMade (.vun d a m f) s d m w t
      (fun l => [code (- sx l), code (if sx l < 0 then - sx l else sx l), 2 ^ w - 1 - x l].getD f.toNat 0)))

/-- R328, R346, R114: VECTOR_WORD_COMPLETE. The oldest word in flight leaves; the register, mask or queue that it writes
takes what it made; its additions reach the routing counters, and no other register, mask, scalar or byte of memory
changes. Where a word that is checked fails its check twice, nothing of it is written, and MACHINE is raised at it; that
the strand goes back to that word, with the later words in flight undone, is read from R114 (log entry 61). -/
def Obligations.VectorWordCompletes : Prop :=
  ∀ (s : State) (b : Nat) (j : VecJob) (rest : List VecJob), s.input.who = b → (s.bank b).vec = j :: rest →
    (j.checked = false ∨ s.input.check ≠ .fail → Goes .vectorWordComplete s (fun t =>
      (t.bank b).vec = rest ∧ t.mem = s.mem ∧ t.scr = s.scr ∧
      { (t.bank b).r with v := [], m := [] } = { (s.bank b).r with v := [], m := [] } ∧
      (∀ n x, j.dstV = some (n, x) → (t.bank b).r.readV n = x) ∧
      (∀ n, (∀ x, j.dstV ≠ some (n, x)) → (t.bank b).r.readV n = (s.bank b).r.readV n) ∧
      (∀ k x, j.dstM = some (k, x) → k ≠ 0 → (t.bank b).r.readM k = x) ∧
      (∀ k, (∀ x, j.dstM ≠ some (k, x)) → (t.bank b).r.readM k = (s.bank b).r.readM k) ∧
      (∀ x, j.push = some (39, x) → (t.bank b).q.vq = (s.bank b).q.vq ++ [x.setWidth 64]) ∧
      (∀ x, j.push = some (40, x) → (t.bank b).q.oq = (s.bank b).q.oq ++ [x]) ∧
      (∀ k x, k < 2 → j.push = some (37 + k, x) →
        KV.get [] (t.bank b).q.sq k = KV.get [] (s.bank b).q.sq k ++ [x]) ∧
      (t.bank b).cnt = (j.hist.foldl Bank.addCount (s.bank b)).cnt)) ∧
    (j.checked = true → s.input.check = .fail → Goes .vectorWordComplete s (fun t =>
      (t.bank b).vec = [] ∧ t.mem = s.mem ∧ (t.bank b).r = (s.bank b).r ∧ (t.bank b).cnt = (s.bank b).cnt ∧
      (t.bank b).wv.pc = j.mark.pc ∧ (t.bank b).wv.walk = j.walk ∧
      { strand := .v, code := 0x13, tval := 0, walk := j.walk, pc := j.mark.pc, deferred := false,
        arose := (s.bank b).trap.handler } ∈
        (t.bank b).trap.pending))

/-! ### Matrix words -/

/-- R350, R128, R112: a matrix word in the matrix strand of a task. Its tags and level are checked, it waits for room
in the window of eight commands and for its descriptors, its footprint by them must lie in the window of the bank,
else it traps with SCRATCH_BOUNDS; then it pops them and enters the window, and the strand passes it. The words:
`mma`, `mzero`, `mzero.t`, `manch`, `mshape`, `mfmt`, `mldt`, `msta`, `mchk`, both forms of `mmov`, `mscl` and its
form `one`. -/
def Obligations.MatrixWordsIssue : Prop :=
  ∀ (s : State) (i : Instr) (plan : Bank → MatPlan), matPlanOf i = some plan → MatAt s i →
    let b := s.cur.bank
    let p := plan s.here.matView
    let foot := p.ranges (s.here.q.mq.take p.pops)
    (p.tagOk = false → Traps i s .m 0x03 (wordVal i)) ∧
    (p.tagOk = true → s.here.level < p.level → Traps i s .m 0x0F (BitVec.ofNat 64 p.level)) ∧
    (p.tagOk = true → p.level ≤ s.here.level → s.here.mat.window.length < 8 →
      p.pops ≤ s.here.poppable qcMq s.here.q.mq.length →
      (∀ x, s.here.firstInvalid foot = some x → Traps i s .m 0x08 (BitVec.ofNat 64 x)) ∧
      (s.here.firstInvalid foot = none → Goes i s (fun t => OnlyBank b { s with nextId := s.nextId + 1 } t ∧
        t.here.q = { s.here.q with mq := s.here.q.mq.drop p.pops } ∧ t.here.r = s.here.r ∧
        t.here.wm.pc = s.here.wm.pc + 1 ∧
        ∃ c : MatWin, t.here.mat = { s.here.mat with window := s.here.mat.window ++ [c] } ∧ c.instr = i ∧
          c.descs = s.here.q.mq.take p.pops ∧ c.walk = s.here.wm.walk ∧ c.ranges = foot ∧ c.begun = false)))

/-- R128, R133, R345, R352 to R356, R358, R362: matrix commands begin and complete in their order. MATRIX_COMMAND_BEGIN
begins the oldest once the range checker and the other bank of the core allow it; MATRIX_COMMAND_COMPLETE gives the one
that has begun its effect: a new shape or formats, a cleared accumulator or tile, unit scales, a copied tile, or for an
`mma` the accumulator's step and one more step counted. -/
def Obligations.MatrixCommands : Prop :=
  ∀ (s : State) (b : Nat) (c : MatWin) (rest : List MatWin),
    (s.input.who = b → (s.bank b).mat.window = c :: rest → s.matMayBegin b c = true →
      Goes .matrixCommandBegin s (fun t => OnlyBank b s t ∧ (t.bank b).r = (s.bank b).r ∧
        (t.bank b).mat.window = { c with begun := true } :: rest)) ∧
    (Begun s b c rest →
      (∀ m n k, c.instr = .mshape m n k → Goes .matrixCommandComplete s (fun t => MatDone b rest s t ∧
        (t.bank b).mat.m = m.toNat + 1 ∧ (t.bank b).mat.n = n.toNat + 1 ∧ (t.bank b).mat.k = k.toNat + 1 ∧
        t.scr = s.scr)) ∧
      (∀ f g, c.instr = .mfmt f g → Goes .matrixCommandComplete s (fun t => MatDone b rest s t ∧
        (t.bank b).mat.fa = f ∧ (t.bank b).mat.fb = g ∧ t.scr = s.scr)) ∧
      (∀ k, c.instr = .mzero k → Goes .matrixCommandComplete s (fun t => MatDone b rest s t ∧ t.scr = s.scr ∧
        (∀ i j, ((t.bank b).r.readA k.toNat).elem i j = AccElem.zero) ∧
        ((t.bank b).r.readA k.toNat).anchor = ((s.bank b).r.readA k.toNat).anchor)) ∧
      (∀ k, c.instr = .mzeroT k → Goes .matrixCommandComplete s (fun t => MatDone b rest s t ∧ t.scr = s.scr ∧
        ((t.bank b).r.readT k.toNat).bits = 0 ∧
        ((t.bank b).r.readT k.toNat).tag = ((s.bank b).r.readT k.toNat).tag)) ∧
      (∀ k a, c.instr = .mmov k a → Goes .matrixCommandComplete s (fun t => MatDone b rest s t ∧ t.scr = s.scr ∧
        (t.bank b).r.readT k.toNat = (s.bank b).r.readT a.toNat)) ∧
      (∀ k i, c.instr = .manch k i → Goes .matrixCommandComplete s (fun t => MatDone b rest s t ∧ t.scr = s.scr ∧
        ((t.bank b).r.readA k.toNat).anchor = i.toInt)) ∧
      (∀ d t k o r, c.instr = .mmovFmt d t k o r → Goes .matrixCommandComplete s (fun u => MatDone b rest s u ∧
        u.scr = s.scr ∧ (u.bank b).r.a = (s.bank b).r.a ∧ ((u.bank b).r.readT d.toNat).tag = t)) ∧
      (∀ x, c.instr = .msclOne x → Goes .matrixCommandComplete s (fun t => MatDone b rest s t ∧ t.scr = s.scr ∧
        ∀ row q, (x = 0 → scaleAt (t.bank b).mat.sa row q = 0x7F) ∧ (x = 1 → scaleAt (t.bank b).mat.sb row q = 0x7F))) ∧
      (∀ k a x sb sa z, c.instr = .mma k a x sb sa z → Goes .matrixCommandComplete s (fun t => MatDone b rest s t ∧
        t.scr = s.scr ∧ (t.bank b).r.readA k.toNat = (s.mmaResult b c k a x sb sa z).1 ∧
        (t.bank b).mat.steps = (s.bank b).mat.steps + 1)) ∧
      (∀ k t n l, c.instr = .mldt k t n l → Goes .matrixCommandComplete s (fun u => MatDone b rest s u ∧
        u.scr = s.scr ∧ ∀ q, q ≤ n.toNat → ((u.bank b).r.readT (k.toNat + q)).tag = t)) ∧
      (∀ e j t k o r, c.instr = .msta e j t k o r → Goes .matrixCommandComplete s (fun u => MatDone b rest s u ∧
        (u.bank b).r.a = (s.bank b).r.a ∧
        (u.bank b).r.readF j.toNat = (s.bank b).r.readF j.toNat + (if e = 1 then 1 else 0))) ∧
      (∀ e j i k, c.instr = .mchk e j i k → Goes .matrixCommandComplete s (fun u => MatDone b rest s u ∧
        (u.bank b).r.a = (s.bank b).r.a ∧ (k = 1 → (u.bank b).mat.steps = 0))))

/-! ### Transfers -/

/-- R364 to R366, R372, R128: a transfer word in the transfer strand of a task. `xset` pops its values from xq into
consecutive staging fields; `xgo`, its fields within their limits and its footprint in the bank's window, enters the
window of eight commands with the fields as they stand, else it traps with ILLEGAL or SCRATCH_BOUNDS; `xclr` clears
the fields; `xclr.drop` abandons the commands that hold a progress record. -/
def Obligations.TransferWords : Prop :=
  (∀ (s : State) (d : BitVec 6) (c : BitVec 3), XferAt s (.xset d c) →
    c.toNat + 1 ≤ s.here.poppable qcXq s.here.q.xq.length →
    Goes (.xset d c) s (fun t => OnlyBank s.cur.bank s t ∧ t.here.q.xq = s.here.q.xq.drop (c.toNat + 1) ∧
      t.here.r = s.here.r ∧ t.here.wx.pc = s.here.wx.pc + 1 ∧
      ∀ k, t.here.xfer.staging.field k = (if d.toNat ≤ k ∧ k ≤ d.toNat + c.toNat then s.here.q.xq.getD (k - d.toNat) 0
        else s.here.xfer.staging.field k))) ∧
  (∀ (s : State) (e : BitVec 1) (j : BitVec 4) (r : BitVec 2), XferAt s (.xgo e j r) →
    let st := s.here.xfer.staging
    let an := s.here.annot .x
    (2 ≤ an.space ∨ st.ok r.toNat = false → Traps (.xgo e j r) s .x 0x01 (wordVal (.xgo e j r))) ∧
    (an.space < 2 → st.ok r.toNat = true →
      (∀ x, s.here.firstInvalid (st.ranges r.toNat) = some x → Traps (.xgo e j r) s .x 0x08 (BitVec.ofNat 64 x)) ∧
      (s.here.firstInvalid (st.ranges r.toNat) = none → s.here.xferDepth < 8 → Goes (.xgo e j r) s (fun t =>
        OnlyBank s.cur.bank { s with nextId := s.nextId + 1 } t ∧ t.here.r = s.here.r ∧ t.here.q = s.here.q ∧
        t.here.wx.pc = s.here.wx.pc + 1 ∧
        ∃ c : XferWin, t.here.xfer = { s.here.xfer with window := s.here.xfer.window ++ [c] } ∧ c.st = st ∧
          c.dir = r.toNat ∧ c.flag = (if e = 1 then some j.toNat else none) ∧ c.walk = s.here.wx.walk ∧
          c.flight = [] ∧ c.gidx = 0)))) ∧
  (∀ s : State, XferAt s .xclr → Goes .xclr s (fun t => OnlyBank s.cur.bank s t ∧ t.here.r = s.here.r ∧
    t.here.wx.pc = s.here.wx.pc + 1 ∧ t.here.xfer.window = s.here.xfer.window ∧
    ∀ k, t.here.xfer.staging.field k = 0)) ∧
  (∀ s : State, XferAt s .xclrDrop → Goes .xclrDrop s (fun t => OnlyBank s.cur.bank s t ∧ t.here.r = s.here.r ∧
    t.here.wx.pc = s.here.wx.pc + 1 ∧ t.here.xfer.staging = s.here.xfer.staging ∧
    (∀ c, c ∈ t.here.xfer.window → c.dropped = true → c.flight ≠ []) ∧
    (∀ c, c ∈ t.here.xfer.window → c.record = true → c.dropped = true)))

/-- R368, R369, R370, R149: granules. TRANSFER_GRANULE_START puts the lowest granule of the bank's head command that may
start into flight; TRANSFER_GRANULE_COMPLETE completes one whose writes are all visible, and ends a command whose
granules are all complete: it leaves the window and its flag rises by one. -/
def Obligations.TransferGranules : Prop :=
  (∀ (s : State) (b : Nat) (c : XferWin) (g : Nat) (more : List Nat), s.input.who = b → s.input.ok = false →
    (s.bank b).xferHead = some c → s.mayStart b c = true → c.startable = g :: more →
    Goes .transferGranuleStart s (fun t => t.mem = s.mem ∧ t.writes = s.writes ∧ (t.bank b).r = (s.bank b).r ∧
      ∃ x, x ∈ (t.bank b).xfer.window ∧ x.walk = c.walk ∧ ∃ f, f ∈ x.flight ∧ f.g = g ∧ f.moved = false)) ∧
  (∀ (s : State) (b : Nat) (c : XferWin) (f : Flight), s.input.who = b → s.xferAt b s.input.sub = some c →
    c.flight.find? (fun x => x.g = s.input.third) = some f → f.ready = true → f.moved = true →
    s.writes.all (fun w => ! f.ids.contains w.id || (! w.scr && w.dies.contains (dieOf b))) = true →
    Goes .transferGranuleComplete s (fun t => t.mem = s.mem ∧ t.writes = s.writes ∧ (t.bank b).r = (s.bank b).r ∧
      ∀ x, x ∈ (t.bank b).xfer.window → x.walk = c.walk → x = c.completes f.g)) ∧
  (∀ (s : State) (b k : Nat) (c : XferWin), s.input.who = b → s.xferAt b s.input.sub = some c → c.flight = [] →
    c.finished = true → c.dropped = false → c.held = false → c.flag = some k → c.st.ctr = 0 →
    (s.bank b).out.faults = [] → s.commandAt b c.walk c.endScope = true →
    Goes .transferGranuleComplete s (fun t => t.mem = s.mem ∧
      (t.bank b).r.readF k = (s.bank b).r.readF k + 1 ∧ ∀ x, x ∈ (t.bank b).xfer.window → x.walk ≠ c.walk))

/-! ### Requests of services, barriers, rendezvous -/

/-- R271, R272, R277, R279, R91: requests. With a route list that R86 refuses `engreq` traps with ENGINE; once its
request has been decided it ends: admitted, with its handle and its predicate clear; refused, with the predicate set.
`launch` ends alike, with a group or with the reason. `engctl.query` says whether a handle names a running job of the
task, `engctl.abandon` ends it with ABANDONED, and `engctl.unhold` removes the task's hold-list entry at the first choice
of a route list, of `launch` or of `pwr.acq`, and clears its count; at another module's parcel receive unit it clears a
count that has reached ESC (the model's choice, log entry 40). -/
def Obligations.ServiceRequests : Prop :=
  (∀ (s : State) (d a r : BitVec 6) (k : BitVec 3), CtlReady s [a.toNat, r.toNat, 64 + d.toNat] → d.toNat < 16 →
    let es := listEntries (s.here.routeList k.toNat)
    let bad := s.listBad s.cur.bank [1, 2, 3, 4] (s.here.routeList k.toNat) ||
      es.any (fun e => decide (entryKind e ≠ entryKind (es.headD 0)))
    (bad = true → Traps (.engreq d a r k) s .c 0x12 (k.setWidth 64)) ∧
    (∀ h, bad = false → s.here.out.dec = .admitted h →
      Goes (.engreq d a r k) s (fun t => Answered s t d.toNat r.toNat false h ∧ OnlyBank s.cur.bank s t)) ∧
    (∀ x, bad = false → s.here.out.dec = .refused x →
      Goes (.engreq d a r k) s (fun t => Answered s t d.toNat r.toNat true x ∧ OnlyBank s.cur.bank s t)) ∧
    (∀ p, bad = false → s.here.out.dec = .declined p → es.drop (p + 1) = [] →
      Goes (.engreq d a r k) s (fun t => Answered s t d.toNat r.toNat true 0))) ∧
  (∀ (s : State) (d a r : BitVec 6), CtlReady s [a.toNat, r.toNat, 64 + d.toNat] → d.toNat < 16 →
    (∀ g, s.here.out.dec = .admitted g →
      Goes (.launch d a r) s (fun t => Answered s t d.toNat r.toNat false g ∧ OnlyBank s.cur.bank s t)) ∧
    (∀ x, s.here.out.dec = .refused x →
      Goes (.launch d a r) s (fun t => Answered s t d.toNat r.toNat true x ∧ OnlyBank s.cur.bank s t)) ∧
    (∀ p, s.here.out.dec = .declined p → Goes (.launch d a r) s (fun t => Answered s t d.toNat r.toNat true 7))) ∧
  (∀ (s : State) (d a : BitVec 6), CtlReady s [d.toNat, a.toNat] →
    let job := s.handleJob s.cur.bank (s.reg a)
    GivesScalar (.engctlQuery d a) s d (if job.isSome then 0 else 0xFF) ∧
    (job = none → GivesScalar (.engctlAbandon d a) s d 0xFF) ∧
    (∀ key j, job = some (key, j) → Goes (.engctlAbandon d a) s (fun t => t.here.r = s.here.r.writeS d.toNat 0 ∧
      t.mem = s.mem ∧ ∀ i, i ∈ (t.inst key).jobs → i.number = j.number → j.ending = 0 → i.ending = 4))) ∧
  (∀ (s : State) (k : BitVec 6), CtlReady s [] → k.toNat < 10 →
    let gone := fun (t : State) => t.here.r = s.here.r ∧ t.here.wc.pc = s.here.wc.pc + 1 ∧
      t.here.refusals k.toNat = 0
    (s.unholdAt s.cur.bank k.toNat = none →
      (s.here.refusals k.toNat < max 1 s.here.esc → Goes (.engctlUnhold k) s (fun t => OnlyPasses .c s t)) ∧
      (max 1 s.here.esc ≤ s.here.refusals k.toNat → Goes (.engctlUnhold k) s gone)) ∧
    (∀ key x, s.unholdAt s.cur.bank k.toNat = some (key, x) →
      ((s.inst key).holder x = none → Goes (.engctlUnhold k) s (fun t => OnlyPasses .c s t)) ∧
      (((s.inst key).holder x).isSome = true → Goes (.engctlUnhold k) s (fun t => gone t ∧
        (t.inst key).holder x = none ∧ (t.inst key).jobs = (s.inst key).jobs))))

/-- R278, R249, R111: regions. `pwr.acq` meets all four strands; it asks the Bellows for its level, waits, and ends with
its predicate clear if the region has begun, else set. The Bellows' decision that admits it gives PWRST the level and the
units of the new region (R111). `pwr.rel` ends the region that the task holds: PWRST shows level 0 and no units; with none
held it leaves PWRST as it is. At its E the Bellows ends a region, and PWRST shows that as well. -/
def Obligations.PowerRegions : Prop :=
  (∀ (s : State) (d : BitVec 6) (l : BitVec 3), CtlReady s [64 + d.toNat] → d.toNat < 16 → 1 ≤ l.toNat →
    l.toNat ≤ 4 → Meet s →
    (∀ h, s.here.out.dec = .admitted h → Goes (.pwrAcq d l) s (fun t => AllPassed s t ∧
      t.here.r = s.here.r.writeP d.toNat false ∧ t.here.out.dec = .none ∧ t.here.csr = s.here.csr ∧
      OnlyBank s.cur.bank s t)) ∧
    (∀ p, s.here.out.dec = .declined p → Goes (.pwrAcq d l) s (fun t => AllPassed s t ∧
      t.here.r = s.here.r.writeP d.toNat true ∧ t.here.out.dec = .none)) ∧
    (s.here.out.dec = .none → Goes (.pwrAcq d l) s (fun t => t.here.wc.pc = s.here.wc.pc ∧ t.here.r = s.here.r ∧
      t.here.out.dec = .asked 0 ∧ ∃ u : Try, (t.inst instBellows).tries = (s.inst instBellows).tries ++ [u] ∧
        u.asker = .bank s.cur.bank ∧ u.va = l.toNat))) ∧
  (∀ (s : State) (b : Nat) (u : Try), s.input.who = instBellows → s.input.size = 0 →
    (s.inst instBellows).begun = true → s.nextTry instBellows (s.inst instBellows) = some u → u.asker = .bank b →
    u.va < 8 →
    let k := levelUnits u.va (s.fmaxOf (clusterOf b))
    let off := (s.inst instBellows).offered u.asker
    k < 256 → (off = 0 ∧ s.admits instBellows (s.inst instBellows) u.tenant k u.pos = true) ∨ (0 < off ∧ k ≤ off) →
    Goes .serviceTry s (fun t => t.mem = s.mem ∧ (t.bank b).out.dec = .admitted 0 ∧ (t.bank b).level = u.va ∧
      bitsOf ((t.bank b).csrGet csrPWRST).toNat 15 8 = k)) ∧
  (∀ s : State, CtlReady s [] → Meet s →
    let region := (s.inst instBellows).jobs.find? (fun j => j.asker.same (.bank s.cur.bank))
    Goes .pwrRel s (fun t => AllPassed s t ∧ t.here.r = s.here.r ∧ t.mem = s.mem ∧
      (region = none → t.here.csr = s.here.csr) ∧
      ∀ j, region = some j → t.here.level = 0 ∧ bitsOf (t.here.csrGet csrPWRST).toNat 15 8 = 0 ∧
        ∀ i, i ∈ (t.inst instBellows).jobs → i.number ≠ j.number)) ∧
  (∀ (s : State) (b : Nat) (j : Job), s.input.who = instBellows →
    (s.inst instBellows).jobs.find? (fun j => j.occupies && s.jobOverdue instBellows j) = some j → j.asker = .bank b →
    (s.inst instBellows).jobs.find? (fun i => i.asker.same (.bank b)) = some j →
    Goes .serviceEExpiry s (fun t => t.mem = s.mem ∧ (t.bank b).level = 0 ∧
      bitsOf ((t.bank b).csrGet csrPWRST).toNat 15 8 = 0 ∧ bitAt ((t.bank b).csrGet csrPWRST).toNat 7 = true ∧
      ∀ i, i ∈ (t.inst instBellows).jobs → i.number ≠ j.number))

/-- R268, R269, R193, R135: barriers. `bar` and `bar.split` arrive once every earlier `vhist` has completed: `bar.split`
passes, and `bar` waits and passes once its barrier has completed. BARRIER_COMPLETE lets every member that waits at the
instance go: the blocked ones go on, at once or, where a trap holds their word, once they have returned to it (the
model's choice, log entry 13), and the flag of a split one rises. -/
def Obligations.Barriers : Prop :=
  (∀ (s : State) (i : BitVec 4) (sc : BitVec 3), CtlReady s [] → 1 ≤ sc.toNat → sc.toNat ≤ 5 →
    let key := 8 * i.toNat + sc.toNat
    (s.here.out.dec = .none → s.here.out.splits.any (fun x => decide (x.1 = key)) = false → s.here.histDone = true →
      Goes (.bar i sc) s (fun t => t.here.wc.pc = s.here.wc.pc ∧ t.here.r = s.here.r ∧ t.mem = s.mem ∧
        t.here.out.dec = .asked 0 ∧ t.here.arrivals key = s.here.arrivals key + 1 ∧
        t.here.out.splits = s.here.out.splits ++ [(key, 16)])) ∧
    (∀ h, s.here.out.dec = .admitted h → Goes (.bar i sc) s (fun t => t.here.wc.pc = s.here.wc.pc + 1 ∧
      t.here.r = s.here.r ∧ t.mem = s.mem ∧ t.here.out.dec = .none))) ∧
  (∀ (s : State) (d : BitVec 6) (i : BitVec 4) (sc : BitVec 3), CtlReady s [] → d.toNat < 16 → 1 ≤ sc.toNat →
    sc.toNat ≤ 5 → s.here.out.dec = .none →
    let key := 8 * i.toNat + sc.toNat
    s.here.out.splits.any (fun x => decide (x.1 = key)) = false → s.here.histDone = true →
      Goes (.barSplit d i sc) s (fun t => t.here.wc.pc = s.here.wc.pc + 1 ∧ t.here.r = s.here.r ∧ t.mem = s.mem ∧
        t.here.arrivals key = s.here.arrivals key + 1 ∧
        t.here.out.splits = s.here.out.splits ++ [(key, d.toNat)])) ∧
  (∀ (s : State) (b c key f : Nat), s.input.who = b → s.input.sub = key →
    let n := (s.bank b).arrivals key
    let ms := s.members b (key % 8)
    let waits := fun (c : Nat) => (s.bank c).out.splits.any (fun x => decide (x.1 = key))
    waits b = true → ms.all (fun c => decide ((s.bank c).place.group = (s.bank b).place.group) &&
      decide (n ≤ (s.bank c).arrivals key) && s.arrivalDone c key (key % 8)) = true →
    c ∈ ms → (s.bank c).arrivals key = n → (s.bank c).out.splits.find? (fun x => decide (x.1 = key)) = some (key, f) →
    Goes .barrierComplete s (fun t => t.mem = s.mem ∧
      (t.bank c).out.splits = (s.bank c).out.splits.filter (fun x => decide (x.1 ≠ key)) ∧
      (f = 16 → (t.bank c).out.dec = .admitted 0 ∧ (t.bank c).r = (s.bank c).r) ∧
      (f = 17 → (t.bank c).trap.dec = .admitted 0 ∧ (t.bank c).r = (s.bank c).r) ∧
      (f < 16 → (t.bank c).r.readF f = (s.bank c).r.readF f + 1)))

/-- R249, R281: RENDEZVOUS lets the control strand execute the rendezvous word at which all four strands stand; for
`pwr.rel` without a region, all four pass it. INTERRUPT_MESSAGE sends one message for the requests of a vector that wait
in an interface's tasks, once what is before each of them is performed. -/
def Obligations.RendezvousAndInterrupts : Prop :=
  (∀ (s : State) (b : Nat) (i : Instr), s.input.who = b → mayIssue s b .c = true → (s.bank b).allHere = true →
    (s.bank b).wc.stall = .rendezvous → decodeWord ((s.bank b).wordAt (s.bank b).wc.pc) = some i → meets i = true →
    exec .rendezvous s = exec i { s with cur := { bank := b, strand := .c } } ∧
    (i = .pwrRel → isSys b = false → (s.bank b).trap.handler = false →
      (s.inst instBellows).jobs.find? (fun j => j.asker.same (.bank b)) = none →
      Goes .rendezvous s (fun t => ∀ e, ((t.bank b).walker e).pc = ((s.bank b).walker e).pc + 1))) ∧
  (∀ s : State,
    let vi := (s.bank s.input.who).place.vi
    let v := s.input.sub
    s.intrsOf vi v ≠ [] → (∀ w, w ∈ s.intrsOf vi v → s.earlierAllAt w.1 w.2.1 w.2.2 4 = true) →
    Goes .interruptMessage s (fun t => t.mem = s.mem ∧
      (∀ c, (s.bank c).place.vi = vi → (∀ x, x ∈ (t.bank c).out.intrs → x.1 ≠ v) ∧ (t.bank c).r = (s.bank c).r) ∧
      ((s.ifc vi).masked.contains v = false → (t.ifc vi).sent = (s.ifc vi).sent ++ [v]) ∧
      ((s.ifc vi).masked.contains v = true → (t.ifc vi).pending.contains v = true ∧
        (t.ifc vi).sent = (s.ifc vi).sent)))

/-! ### Services -/

/-- R82, R88, R89, R92, R93, R83, R96, R275: an instance of a service. SERVICE_TRY decides the try that comes first:
one that R88 admits becomes a job, and the word that waits learns of it; one that it does not is declined at its
entry. OFFER_STEP gives a free place to the holder that lacks it, as the first thing of a decision cycle, which has then
begun (the model's choice, log entry 38). HOLD_WINDOW_EXPIRY removes every holder whose window has ended and clears its
count; the window of another module's task has ended when that module says so, within the bounds of R92 (the model's
choice, log entry 40). SERVICE_E_EXPIRY frees the place of a job that has run for E. JOB_COMPLETE, as its last step,
raises the flag of a job whose work is done and forgets it. ADMQ_WRITE takes a quota whose min and max are within P, whose
min is within a max other than 0, and which leaves the sum of the minima within P - R; any other is refused whole, and
ADMCFG.qrej says so (R96). -/
def Obligations.Services : Prop :=
  (∀ (s : State) (key b : Nat) (u : Try), s.input.who = key → s.input.size = 0 → (s.inst key).begun = true →
    s.nextTry key (s.inst key) = some u → u.asker = .bank b → entryKind key ∈ [1, 2, 4] →
    (s.inst key).offered u.asker = 0 →
    (s.admits key (s.inst key) u.tenant u.k u.pos = true → Goes .serviceTry s (fun t => t.mem = s.mem ∧
      (∃ h, (t.bank b).out.dec = .admitted h) ∧
      ∃ j, j ∈ (t.inst key).jobs ∧ j.number = (s.inst key).next ∧ j.asker = .bank b ∧ j.k = u.k ∧ j.occupies = true)) ∧
    (s.admits key (s.inst key) u.tenant u.k u.pos = false → Goes .serviceTry s (fun t => t.mem = s.mem ∧
      (t.bank b).out.dec = .declined u.pos ∧ (t.inst key).jobs = (s.inst key).jobs))) ∧
  (∀ (s : State) (key : Nat) (h : Holder), s.input.who = key → (s.inst key).begun = false →
    (s.inst key).holds = [h] → h.held + 1 = h.k → (s.inst key).freePlaces (entryKind key) = 1 →
    Goes .offerStep s (fun t => t.banks = s.banks ∧
      t.mem = s.mem ∧ (t.inst key).jobs = (s.inst key).jobs ∧ (t.inst key).begun = true ∧
      (t.inst key).holds = [{ h with held := h.k, offered := true, since := s.time, sinceAc := s.holderAc h.asker }])) ∧
  (∀ (s : State) (key : Nat), s.input.who = key →
    let ended := fun (h : Holder) => s.windowEnded (s.input.ok && decide (s.reqNumber h.asker = s.input.sub)) h
    Goes .holdWindowExpiry s (fun t => t.mem = s.mem ∧ (t.inst key).jobs = (s.inst key).jobs ∧
      ∀ h, h ∈ (s.inst key).holds →
        (ended h = true → (t.inst key).holder h.asker = none ∧
          ∀ b, s.askerBank h.asker = some b → (t.bank b).refusals h.list = 0) ∧
        ((∀ g, g ∈ (s.inst key).holds → g.asker.same h.asker = true → ended g = false) →
          h ∈ (t.inst key).holds))) ∧
  (∀ (s : State) (key : Nat) (j : Job), s.input.who = key → entryKind key ∈ [1, 2, 3, 4] →
    (s.inst key).jobs.find? (fun j => (j.occupies || decide (j.ending = 0 ∧ entryKind key ≤ 4)) &&
      s.jobOverdue key j) = some j →
    Goes .serviceEExpiry s (fun t => t.mem = s.mem ∧ t.banks = s.banks ∧
      ∀ i, i ∈ (t.inst key).jobs → i.number = j.number → i.occupies = false ∧ i.ending ≠ 0)) ∧
  (∀ (s : State) (key : Nat) (j : Job), s.input.who = key → entryKind key ∈ [1, 2, 3, 4] →
    s.jobAt key s.input.sub = some j → j.ending ≠ 0 → j.fault = none → 2 ≤ j.stage →
    s.jobWritesAt j j.endScope = true → s.copyAwaited j = false → Goes .jobComplete s (fun t => t.mem = s.mem ∧
      (bitAt j.flagByte 7 = true →
        (t.bank j.bank).r.readF (j.flagByte % 16) = (s.bank j.bank).r.readF (j.flagByte % 16) + 1) ∧
      ∀ i, i ∈ (t.inst key).jobs → i.number ≠ j.number)) ∧
  (∀ s : State,
    let kind := s.input.who / 256 + 1
    let tenant := s.input.who % 256
    let v := s.input.value.toNat &&& 0x0FFF0FFF
    let lo := v / 2 ^ 16 % 2 ^ 12
    let hi := v % 2 ^ 12
    let sum := ((List.range 256).map (fun n => if n = tenant then lo else (s.quota kind n).1)).foldl (· + ·) 0
    let p := svcPlaces kind
    (sum ≤ p - svcReserve kind → lo ≤ p → hi ≤ p → (hi = 0 ∨ lo ≤ hi) →
      Goes .admqWrite s (fun t => t.hubReg (offADMQ kind tenant) = v ∧ t.banks = s.banks ∧ t.mem = s.mem)) ∧
    (p - svcReserve kind < sum ∨ p < lo ∨ p < hi ∨ (hi ≠ 0 ∧ hi < lo) →
      Goes .admqWrite s (fun t => t.hubReg (offADMCFG) = s.hubReg offADMCFG ||| 2 ^ 31 ∧
        (∀ k n, t.hubReg (offADMQ k n) = s.hubReg (offADMQ k n)) ∧ t.banks = s.banks ∧ t.mem = s.mem)))

/-! ### Boot and dies -/

/-- R26, R27, R28, R29: boot. BOOT_START ends in reset where no second stage is accepted, and reports it; else it begins
the exchange with each compute die, or fences it. A reply whose checks hold takes the exchange on; one that fails them
fences the die with the result that says why (3 for a wrong position is the model's choice, log entry 57, as is the
layout of the message that is signed, log entry 91); so do 100 ms. TRAINING_COMPLETE, with every present die authenticated and
offering the hub's one revision and every channel trained, starts the system cores with the next incarnation. -/
def Obligations.BootAndDies : Prop :=
  (∀ s : State, s.phase = .inReset →
    let fails := Goes .bootStart s (fun t => t.phase = .bootFail ∧ t.boot.i3c = s.boot.i3c ++ [1] ∧
      t.boot.incarnation = s.boot.incarnation ∧ t.boot.images = s.boot.images)
    match s.bootBank with
    | none => fails
    | some bank =>
      if (s.targetImage bank 5).isSome = true ∧ (s.targetImage bank 6).isSome = true then
        Goes .bootStart s (fun t => (t.phase = .dies ∨ t.phase = .noDie) ∧ t.boot.images = s.loadedImages bank ∧
          t.boot.incarnation = s.boot.incarnation ∧
          ∀ d, d < 4 → (t.die d).stage = 1 ∨ ((t.die d).stage = 4 ∧ t.boot.fenced.contains d = true))
      else fails) ∧
  (∀ (s : State) (d : Nat), s.input.who = d → s.phase = .dies → (s.die d).stage = 1 →
    let x := s.die d
    let r := s.input.reply
    let fenced := fun (n : Nat) => Goes .dieAuthReply s (fun t => (t.die d).stage = 4 ∧ (t.die d).result = n ∧
      t.boot.fenced.contains d = true)
    if s.dieLate x = true then fenced 6
    else if Config.certVerifies r.certificate = false then fenced 4
    else if Config.ecdsaVerifies r.certificate (dieMessage x r) (leBytes 96 r.signature.toNat) = false then fenced 3
    else if r.position ≠ d then fenced 3
    else if r.measurement ≠ x.measurement then fenced 5
    else Goes .dieAuthReply s (fun t => (t.die d).stage = 2 ∧ (t.die d).since = s.time ∧ (t.die d).nonceD = r.nonce ∧
      t.boot.fenced = s.boot.fenced)) ∧
  (∀ (s : State) (d : Nat), s.input.who = d → s.phase = .dies → (s.die d).stage = 2 →
    let m := leBytes 32 (s.die d).nonceD.toNat ++ leBytes 32 (s.die d).nonceS.toNat
    if s.dieLate (s.die d) = true then
      Goes .dieAuthConfirm s (fun t => (t.die d).stage = 4 ∧ (t.die d).result = 6 ∧ t.boot.fenced.contains d = true)
    else if Config.certVerifies Config.ownCert = true ∧ Config.ecdsaVerifies Config.ownCert m (Config.ecdsaSign 1 m) = true
    then Goes .dieAuthConfirm s (fun t => (t.die d).stage = 3 ∧ (t.die d).result = 1 ∧ t.boot.fenced = s.boot.fenced)
    else Goes .dieAuthConfirm s (fun t => (t.die d).stage = 4 ∧ t.boot.fenced.contains d = true)) ∧
  (∀ (s : State) (d : Nat), s.input.who = d → s.phase = .dies → (s.die d).stage = 1 ∨ (s.die d).stage = 2 →
    100000000000 ≤ s.time - (s.die d).since →
    Goes .dieAuthTimeout s (fun t => (t.die d).stage = 4 ∧ (t.die d).result = 6 ∧ t.boot.fenced.contains d = true)) ∧
  (∀ (s : State) (r : Nat), s.phase = .dies → s.present ≠ [] → s.input.sub = r → s.input.size = r → r < 65536 →
    (∀ d, d ∈ s.present → (s.die d).stage = 3 ∧ s.input.list.getD (2 * d) 0 % 65536 ≤ r ∧
      r ≤ s.input.list.getD (2 * d + 1) 0 % 65536 ∧ bitAt s.input.third d = false) →
    Goes .trainingComplete s (fun t => t.phase = .running ∧ t.boot.revision = r ∧ t.boot.fenced = s.boot.fenced ∧
      t.boot.incarnation = (if 0xFFFF ≤ s.boot.incarnation then 1 else s.boot.incarnation + 1)))

/-! ### Fabric -/

/-- R39, R41, R42, R44, R46: flits at a trained port. A data flit that verifies and is next is accepted: the port
expects the one after it, owes its channel a credit and holds its part of a packet, and a whole packet for this module
brings about the event of its op. One that is not is discarded and counted. A control flit that verifies and is later
is accepted: `nack` sends every unacknowledged flit again, unless one of them has been sent four times (what follows a
fourth sending is the model's choice, log entry 107); `join` is reported (the bytes of its payload are the model's choice,
log entry 48), `retrain` stops the port. -/
def Obligations.FlitsReceived : Prop :=
  (∀ (s : State) (port : Nat) (f : Flit), s.input.who = port → s.input.flit = f → (s.link port).carries →
    let drops := Goes .dataFlit s (fun t => (t.link port).rxSeq = (s.link port).rxSeq ∧
      (t.link port).discards = (s.link port).discards + 1 ∧ t.mem = s.mem ∧
      (t.link port).wire.length = (s.link port).wire.length + 1)
    (f.kind ≠ 0 ∨ f.seq ≠ (s.link port).rxSeq → drops) ∧
    (f.kind = 0 → f.seq = (s.link port).rxSeq → match s.openFlit port f (s.link port).rxEpoch with
      | none => drops
      | some bs =>
        (f.pos = 1 → Goes .dataFlit s (fun t => (t.link port).rxSeq = ((s.link port).rxSeq + 1) % 2 ^ 24 ∧
          (t.link port).discards = 0 ∧ KV.get [] (t.link port).part f.vc = bs ∧ t.agenda = s.agenda ∧ t.mem = s.mem)) ∧
        (f.pos = 0 → (Packet.ofBytes bs).dest = s.boot.moduleNo → (Packet.ofBytes bs).inter = 0x3FF →
          ∀ i, opEvent (Packet.ofBytes bs).op = some i → Goes .dataFlit s (fun t =>
            (t.link port).rxSeq = ((s.link port).rxSeq + 1) % 2 ^ 24 ∧ t.mem = s.mem ∧ ∃ x, t.agenda = s.agenda ++ [x] ∧
              x.ps = 0 ∧ x.act = .event i { Input.none with who := port / 8, packet := Packet.ofBytes bs })))) ∧
  (∀ s : State, GoodControl s →
    let port := s.input.who
    let f := s.input.flit
    let l := s.link port
    let keep := l.buf.filter (fun x => ! seqGe f.ack x.seq)
    match s.openFlit port f (l.ctlEpochOf f.seq) with
    | none => ∀ i, i ∈ [Instr.idle, .nack, .join, .retrain] → Goes i s (fun t => t.mem = s.mem ∧
        (t.link port).discards = l.discards + 1 ∧ (t.link port).rxCtl = l.rxCtl ∧ t.fab.joins = s.fab.joins)
    | some bs =>
      (leAt bs 0 1 = 0 → Goes .idle s (fun t => t.mem = s.mem ∧ (t.link port).rxCtl = some f.seq ∧
        (t.link port).discards = 0 ∧ (t.link port).wire = l.wire)) ∧
      (leAt bs 0 1 = 1 → (∀ x, x ∈ keep → x.txc < 4) → Goes .nack s (fun t => t.mem = s.mem ∧
        (t.link port).rxCtl = some f.seq ∧ (t.link port).buf = keep.map (fun x => { x with txc := x.txc + 1 }) ∧
        (t.link port).wire.length = l.wire.length + keep.length)) ∧
      (leAt bs 0 1 = 1 → (∃ x, x ∈ keep ∧ 4 ≤ x.txc) → Goes .nack s (fun t => t.mem = s.mem ∧
        (t.link port).rxCtl = some f.seq ∧ (t.link port).buf = keep ∧ (t.link port).wire = l.wire)) ∧
      (leAt bs 0 1 = 2 → Goes .join s (fun t => t.mem = s.mem ∧
        t.fab.joins = s.fab.joins ++ [(leAt bs 1 2, leAt bs 3 2)])) ∧
      (leAt bs 0 1 = 3 → Goes .retrain s (fun t => t.mem = s.mem ∧ (t.link port).trained = true ∧
        (t.link port).training = true)))

/-- R41, R43, R44, R31, R36, R38: a port's own events. Two microseconds without progress send the buffer again; the
sixteenth flit discarded in a row makes a retrain due, which nothing takes back; an exchange that succeeds starts both directions at generation 0 and keeps
the counters, one that fails leaves the port untrained; a key switch advances the transmitter's generation; training
gives 64 credits a channel at the highest common revision. A packet for another module goes on towards it, on the next
channel of its class; one that came on the last is dropped (log entry 89). -/
def Obligations.LinkEvents : Prop :=
  (∀ (s : State) (port : Nat), s.input.who = port → (s.link port).carries → (s.link port).buf ≠ [] →
    2000000 ≤ s.time - (s.link port).ackAt → (∀ f, f ∈ (s.link port).buf → f.txc < 4) →
    Goes .replayTimeout s (fun t => t.mem = s.mem ∧
      (t.link port).buf = (s.link port).buf.map (fun f => { f with txc := f.txc + 1 }) ∧
      (t.link port).wire.length = (s.link port).wire.length + (s.link port).buf.length)) ∧
  (∀ (s : State) (port : Nat), s.input.who = port → (s.link port).carries → s.input.flit.kind ≠ 0 →
    15 ≤ (s.link port).discards → Goes .dataFlit s (fun t => t.mem = s.mem ∧ (t.link port).due = true ∧
      ∃ x, x ∈ t.agenda ∧ x.act = .event .linkRetrain { Input.none with who := port })) ∧
  (∀ (s : State) (port : Nat), s.input.who = port → (s.link port).carries → (s.link port).due = true →
    Goes .linkRetrain s (fun t => t.mem = s.mem ∧ (t.link port).training = true ∧ (t.link port).due = false ∧
      (t.link port).wire.length = (s.link port).wire.length + 1)) ∧
  (∀ (s : State) (port : Nat), s.input.who = port → (s.link port).training = true →
    (s.input.ok = true → (s.link port).queue = [] → Goes .retrainExchangeDone s (fun t => t.mem = s.mem ∧
      (t.link port).carries ∧ (t.link port).txGen = 0 ∧ (t.link port).rxGen = 0 ∧ (t.link port).txPhase = 0 ∧
      (t.link port).rxPhase = 0 ∧ (t.link port).txSeq = (s.link port).txSeq ∧
      (t.link port).rxSeq = (s.link port).rxSeq ∧
      (t.link port).buf = (s.link port).buf.map (fun f => { f with txc := 1 }))) ∧
    (s.input.ok = false → Goes .retrainExchangeDone s (fun t => t.mem = s.mem ∧ (t.link port).trained = false ∧
      (t.link port).training = false ∧ (t.link port).buf = [] ∧ t.boot.fabricRev = t.lowestRevision))) ∧
  (∀ (s : State) (port : Nat), s.input.who = port → (s.link port).carries → (s.link port).switching = false →
    s.input.ok = true ∨ 2 ^ 32 ≤ (s.link port).sentUnderKey ∨ 60000000000000 ≤ s.time - (s.link port).keyAt →
    Goes .keySwitch s (fun t => t.mem = s.mem ∧ (t.link port).txGen = (s.link port).txGen + 1 ∧
      (t.link port).txPhase = 1 - (s.link port).txPhase ∧ (t.link port).switching = true ∧
      (t.link port).rxGen = (s.link port).rxGen ∧ (t.link port).txSeq = (s.link port).txSeq)) ∧
  (∀ (s : State) (port lo hi : Nat), s.input.who = port → s.input.sub = lo → s.input.third = hi → s.phase = .running →
    port < 32 → port < (neighbours s.boot.moduleNo).length → s.boot.fenced.contains (port / 8) = false →
    let r := s.fabricRange
    (Nat.max r.1 lo ≤ Nat.min r.2 hi → Goes .linkTraining s (fun t => t.mem = s.mem ∧ (t.link port).trained = true ∧
      (t.link port).revision = Nat.min r.2 hi ∧ (t.link port).txGen = 0 ∧
      ∀ v, v < 8 → KV.get 0 (t.link port).credits v = 64)) ∧
    (¬ Nat.max r.1 lo ≤ Nat.min r.2 hi → Goes .linkTraining s (fun t => t.mem = s.mem ∧
      (t.link port).trained = false))) ∧
  (∀ (s : State) (p : Packet), s.input.packet = p →
    (p.dest = s.boot.moduleNo → p.inter = 0x3FF → ∀ i, opEvent p.op = some i →
      Goes .packetForward s (fun t => ∃ x, t.agenda = s.agenda ++ [x] ∧ t.fab = s.fab ∧
        x.act = .event i { Input.none with who := s.input.who / 8, packet := p })) ∧
    (∀ q, p.dest ≠ s.boot.moduleNo → p.inter = 0x3FF → s.input.sub % 4 ≠ 3 → bitAt (s.hubReg (offRTAB p.dest)) 0 = true →
      rtHops (s.hubReg (offRTAB p.dest)) = 1 ∨ rtHops (s.hubReg (offRTAB p.dest)) = 2 →
      rtPort (s.hubReg (offRTAB p.dest)) = q → s.portUp q = true → (s.link q).training = true →
      Goes .packetForward s (fun t => t.agenda = s.agenda ∧ (t.link q).queue = (s.link q).queue ++
        (packetFlits p (opClass p.op * 4 + (s.input.sub % 4 + 1))).map (fun f =>
          { f with from_ := some (s.input.who, s.input.sub) }))) ∧
    (p.dest ≠ s.boot.moduleNo → p.inter = 0x3FF → s.input.sub % 4 = 3 → Goes .packetForward s (fun t =>
      t.agenda = s.agenda ∧ t.mem = s.mem ∧ ∀ q, (t.link q).queue = (s.link q).queue)))

/-! ### An owner of pages, and responses -/

/-- R46, R49, R50, R105, R194, R198, R307, R177, R178, R182: a peer's requests. One that a check of R49 refuses is
answered with status 3 and reaches no byte. A read or a read-modify-write that is accepted joins the queue of its
bytes' memory port, and its event follows again; memory outside the package has no port, and there it is performed at
once. Once the port has served it, a read is answered with the bytes, and a read-modify-write is performed where its
bytes are serialised and answers the old value: neither is checked again (R50). One that meets poison is answered with
nothing: the task of this module that made it traps with MACHINE (R52, R117), and another module's request ends by FTMO
(the model's choice, log entry 122). A write's bytes go in flight, line by line, and its answer is owed until they are
applied on every die; a `cas` that does not swap answers once what it has read is applied on the die of its observer. A
parcel's try goes before the unit that it names, the size field of its packet holding die and position (the model's
choice, log entry 41). The data of an admitted delivery goes to the memory ports, packet by packet, and is in its span, on
every die at once (the model's choice, log entry 46), when they have served it; with its last byte the parcel has
ARRIVED. -/
def Obligations.PeerRequests : Prop :=
  (∀ (s : State), s.requestOk s.input.packet = true → s.input.ok = false →
    let p := s.input.packet
    let size := leAt p.body 0 2
    (s.grantCheck p.token p.source p.tenant 0 p.addr size ≠ 0 → exec .read s = .next (s.reply 0x81 p 3 [])) ∧
    (s.grantCheck p.token p.source p.tenant 1 p.addr size ≠ 0 → exec .write s = .next (s.reply 0x81 p 3 [])) ∧
    (s.grantCheck p.token p.source p.tenant 2 p.addr (rmwSize p) ≠ 0 →
      exec .amoRequest s = .next (s.reply 0x81 p 3 []) ∧ exec .casRequest s = .next (s.reply 0x81 p 3 []))) ∧
  (∀ (s t : State) (i : Instr) (right size : Nat) (kind : AccKind) (pa : Nat), s.input.ok = false →
    ((i = .read ∧ right = 0 ∧ size = leAt s.input.packet.body 0 2 ∧ kind = .read) ∨
      ((i = .amoRequest ∨ i = .casRequest) ∧ right = 2 ∧ size = rmwSize s.input.packet ∧ kind = .atomic)) →
    ServedHere s right size kind t pa → t.input = s.input → t.portOf pa ≠ none →
    let q : OwnerReq := { id := t.nextId, packet := s.input.packet, pa := pa, die := t.servedDie pa,
                          tenant := s.servedTenant, va := s.servedVa }
    Goes i s (fun u => u.mem = t.mem ∧ u.fab.inbox = t.fab.inbox ++ [q] ∧ u.queued q.id = true ∧
      ∃ x, u.agenda = t.agenda ++ [x] ∧ x.act = .event i { Input.none with ok := true, sub := q.id })) ∧
  (∀ (s t : State) (pa : Nat), s.input.ok = false → ServedHere s 0 (leAt s.input.packet.body 0 2) .read t pa →
    t.input = s.input → t.portOf pa = none → t.queued t.nextId = false → t.poisonAt pa = false →
    s.input.check ≠ .fail →
    let x := t.takeIn s.input.packet pa (t.servedDie pa) s.servedTenant s.servedVa
    exec .read s = .next ((x.1.reply 0x81 s.input.packet 0 (x.1.see none (t.servedDie pa) pa
      (leAt s.input.packet.body 0 2))).takeOut x.2)) ∧
  (∀ (s : State) (q : OwnerReq), s.input.ok = true → s.fab.inbox.find? (fun q => q.id = s.input.sub) = some q →
    s.queued q.id = false →
    (s.poisonAt q.pa = false → s.input.check ≠ .fail →
      exec .read s = .next ((s.reply 0x81 q.packet 0 (s.see none q.die q.pa (leAt q.packet.body 0 2))).takeOut q)) ∧
    (s.poisonAt q.pa = true ∨ s.input.check = .fail → ∀ i, i ∈ [Instr.read, .amoRequest, .casRequest] →
      exec i s = .next ((s.peerPoison q.packet).takeOut q))) ∧
  (∀ (s t : State) (pa : Nat), ServedHere s 1 (leAt s.input.packet.body 0 2) .write t pa → t.input = s.input →
    let size := leAt s.input.packet.body 0 2
    1 ≤ size → (s.input.packet.body.drop 32).length = size →
    Goes .write s (fun u => u.mem = (t.markDirty s.servedTenant s.servedVa size).mem ∧
      (∀ x, x ∈ linePieces size pa (s.input.packet.body.drop 32) → ∃ w, w ∈ u.writes ∧ w.addr = x.1 ∧ w.bytes = x.2 ∧
        w.dies = []) ∧
      ∃ a, a ∈ u.fab.answers ∧ a.packet = s.input.packet ∧ a.ids ≠ [])) ∧
  (∀ (s v : State) (q : OwnerReq) (old : Nat), s.input.ok = true →
    s.fab.inbox.find? (fun q => q.id = s.input.sub) = some q → s.queued q.id = false → s.poisonAt q.pa = false →
    s.input.check ≠ .fail →
    let size := rmwSize q.packet
    let x := leAt q.packet.body 8 8 % 2 ^ (8 * size)
    (s.rmwAt (peerTag q.die q.tenant q.va) q.pa size
        (fun m => some (amoOp (leAt q.packet.body 2 1 / 4) (8 * size) m x)) = some (v, old) →
      exec .amoRequest s = .next ((((v.markDirty q.tenant q.va size).owe s.nextId q.packet
        (leBytes size old)).settleAnswers).takeOut q)) ∧
    (s.rmwAt (peerTag q.die q.tenant q.va) q.pa size
        (fun m => if m = x then some (leAt q.packet.body 16 8 % 2 ^ (8 * size)) else none) = some (v, old) →
      exec .casRequest s = .next (((if old = x
        then (v.markDirty q.tenant q.va size).owe s.nextId q.packet (leBytes size old)
        else (v.markDirty q.tenant q.va size).oweSeen q.die q.pa size q.packet (leBytes size old)).settleAnswers).takeOut
          q))) ∧
  (∀ s : State, s.requestOk s.input.packet = true →
    let p := s.input.packet
    let n := leAt p.body 0 2 - 1
    let c := s.grantCheck p.token p.source p.tenant 3 0 (leAt p.body 16 8)
    c ≠ 1 → c ≠ 2 → s.instPresent (instPRU (n % 4)) = true → Goes .ptry s (fun t => t.mem = s.mem ∧
      ∃ u, (t.inst (instPRU (n % 4))).tries = (s.inst (instPRU (n % 4))).tries ++ [u] ∧
        u.va = leAt p.body 16 8 ∧ u.tenant = s.servedTenant ∧ u.pos = n / 4 % 4)) ∧
  (∀ (s : State) (d : Delivery) (q : Parcel) (pa : Nat), s.input.ok = false → s.requestOk s.input.packet = true →
    let p := s.input.packet
    let size := leAt p.body 0 2
    s.receiving (fun d => decide (d.handle = leAt p.body 8 8 ∧ d.peer = p.source ∧ d.off ≤ p.addr ∧
      p.addr + size ≤ d.off + d.length)) = some d →
    s.grantCheck p.token p.source p.tenant 3 p.addr size = 0 → d.waiting = false →
    s.parcels.table.find? (fun q => q.id = d.entry) = some q → s.hubXlat q.tenant (q.base + (p.addr - d.off)) .write = .ok pa →
    let u := ({ s.markDirty q.tenant (q.base + (p.addr - d.off)) size with nextId := s.nextId + 1 } : State).enqueueAll
      q.tenant s.nextId (spanLines64 [(pa, size)])
    u.queued s.nextId = true →
    Goes .pdata s (fun t => t.mem = u.mem ∧ t.parcels.table = s.parcels.table ∧ t.queued s.nextId = true ∧
      (∃ e, e ∈ t.parcels.deliveries ∧ e.entry = d.entry ∧ e.done = d.done ∧
        e.queue = d.queue ++ [(s.nextId, pa, p)]) ∧
      ∃ x, x ∈ t.agenda ∧ x.act = .event .pdata { Input.none with ok := true, sub := s.nextId, third := d.entry })) ∧
  (∀ (s : State) (d : Delivery) (pa : Nat) (p : Packet), s.input.ok = true → s.input.size ≠ 1 →
    s.receiving (fun d => decide (d.entry = s.input.third)) = some d →
    d.queue.find? (fun x => x.1 = s.input.sub) = some (s.input.sub, pa, p) → s.queued s.input.sub = false →
    s.freeGranule pa = false →
    let size := leAt p.body 0 2
    let bs := (p.body.drop 32).take size
    (d.done + size < d.length → Goes .pdata s (fun t => t.mem = s.mem.writeN pa bs ∧
      t.parcels.table = s.parcels.table ∧ ∃ e, e ∈ t.parcels.deliveries ∧ e.entry = d.entry ∧ e.done = d.done + size ∧
        ∀ x, x ∈ e.queue → x.1 ≠ s.input.sub)) ∧
    (∀ q, d.length ≤ d.done + size → s.parcels.table.find? (fun q => q.id = d.entry) = some q →
      Goes .pdata s (fun t => ∃ r, r ∈ t.parcels.table ∧ r.id = q.id ∧ r.state = .arrived ∧ r.handle = q.handle)))

/-- R46, R47, R154, R156, R157, R176, R178: how requests end. A response returns its slot, the generation advancing;
refused, the access ends with GRANT; told to retry, it waits a microsecond. A slot in use for FTMO ends its access
with PEER_RESET. A notice of FAILED ends its access with ACCESS. A retry that is due leaves the waiting list as its
request is sent. A SHADOW entry with nothing older on its line goes on, once what its access is ordered after lets it
(R159). A response or notice of a core number from 512 on goes to the fabric copy that it names. PDONE removes the
sender's entry and raises its flag; a bounced entry opens again, and the flag of its delivery rises. -/
def Obligations.RequestEnds : Prop :=
  (∀ (s : State) (sl : Slot), SlotNamed s sl →
    let p := s.input.packet
    let code := bitsOf p.addr 7 0
    ∃ u, exec .resp s = .next (u.pumpCore p.core) ∧ u.mem = s.mem ∧
      (code ≠ 4 → SlotReturned s u p.core (p.slot % 8)) ∧
      (code = 3 → ∀ a, (s.bank sl.bank).out.acc.find? (fun a => a.id = sl.access) = some a →
        (a.reqs ++ a.unsent).contains sl.req = true → FailedWith s u sl.bank sl.access cGrant) ∧
      (code = 2 → ∃ r, u.fab.retries = s.fab.retries ++ [r] ∧ r.access = sl.access ∧ r.at_ = s.time + 1000000) ∧
      (code = 1 → (∃ a, a ∈ (s.bank sl.bank).out.acc ∧ a.id = sl.access) → ∃ k, k ∈ (u.bank sl.bank).out.tkt ∧ k.2.state = .wait ∧ k.2.access = sl.access ∧
        k.2.number = bitsOf p.addr 31 16 ∧ k.2.owner = p.source)) ∧
  (∀ (s : State) (c i : Nat) (sl : Slot) (a : Access), s.input.who = c → s.input.sub = i → s.input.size ≠ 1 →
    (s.core c).slots.find? (fun x => x.1 = i) = some (i, sl) → s.timeoutUs * 1000000 ≤ s.time - sl.sent → sl.op ≠ 5 →
    (s.bank sl.bank).out.acc.find? (fun a => a.id = sl.access) = some a → (a.reqs ++ a.unsent).contains sl.req = true →
    ∃ u, exec .requestTimeout s = .next (u.pumpCore c) ∧ SlotReturned s u c i ∧
      FailedWith s u sl.bank sl.access cPeerReset) ∧
  (∀ (s : State) (key : Nat) (j : Job) (c : CopyReq), s.responseOk s.input.packet = true →
    let p := s.input.packet
    512 ≤ p.core →
    (bitsOf p.addr 7 0 ≤ 4 → bitsOf p.addr 15 10 = 0 → bitsOf p.addr 63 32 = 0 →
      s.copyFor p.core (fun j c => decide (c.state = .sent ∧ c.peer = p.source ∧ j.slotByte = p.slot)) =
        some (key, j, c) → exec .resp s = .next (s.copyResp key j c p)) ∧
    (noticeReserved p.body = true → s.copyFor p.core (fun _ c => decide (c.state = .ticket ∧ c.peer = p.source ∧
        c.number = leAt p.body 0 2)) = some (key, j, c) → exec .notice s = .next (s.copyNotice key j c p.body))) ∧
  (∀ (s : State) (k : Nat) (t : Ticket) (a : Access), s.responseOk s.input.packet = true →
    let p := s.input.packet
    p.core < 512 →
    let b := 2 * p.core
    (s.bank b).ticketOf p.source (leAt p.body 0 2) = some k → (s.bank b).out.tkt.find? (fun x => x.1 = k) = some (k, t) →
    noticeReserved p.body = true → leAt p.body 2 1 = 2 →
    (s.bank b).out.acc.find? (fun a => a.id = t.access) = some a → (a.reqs ++ a.unsent).contains t.req = true →
    Goes .notice s (fun u => FailedWith s u b t.access cAccess)) ∧
  (∀ (s : State) (r : Retry), s.fab.retries.find? (fun r => r.id = s.input.sub) = some r → r.at_ ≤ s.time →
    (∀ x, x ∈ s.fab.retries → x.id = r.id → x.bank = r.bank) → (s.slotFor r.bank).isSome = true → Goes .retryResend s (fun t => t.mem = s.mem ∧
      ∀ x, x ∈ t.fab.retries → x.id ≠ r.id)) ∧
  (∀ (s : State) (b k : Nat) (t : Ticket), s.input.who = b → s.input.sub = k →
    (s.bank b).out.tkt.find? (fun x => x.1 = k) = some (k, t) → t.state = .shadow →
    (s.bank b).olderOnLine t.access t.req = false → s.shadowReady b t.access = true → (s.slotFor b).isSome = true →
    exec .shadowRelease s = .next ((s.settleDrops b t.access).replay b t.access t.req (some k))) ∧
  (∀ (s : State) (d : Delivery) (p : Parcel) (b f : Nat), s.responseOk s.input.packet = true →
    s.parcels.deliveries.find? (fun d => d.sender.isSome && decide (d.handle = leAt s.input.packet.body 0 8 ∧
      d.peer = s.input.packet.source)) = some d →
    s.parcels.table.find? (fun p => p.id = d.entry) = some p → d.sender = some (b, f) → f < 16 →
    Goes .pdone s (fun t => (∀ q, q ∈ t.parcels.table → q.id ≠ p.id) ∧
      (t.bank b).r.readF f = (s.bank b).r.readF f + 1)) ∧
  (∀ (s : State) (p : Parcel), s.parcels.table.find? (fun p => p.id = s.input.sub) = some p → p.state = .bounced →
    Goes .bounceReopen s (fun t =>
      (∀ d b f, s.parcels.deliveries.find? (fun d => d.sender.isSome && decide (d.entry = s.input.sub)) = some d →
        d.sender = some (b, f) → f < 16 → (t.bank b).r.readF f = (s.bank b).r.readF f + 1) ∧
      (∃ q, q ∈ t.parcels.table ∧ q.id = p.id ∧ q.state = .opened ∧ q.handle = p.handle) ∧
      ∀ e, e ∈ t.parcels.deliveries → e.sender.isSome = true → e.entry ≠ p.id))

/-- R117, R188, R189, R190, R45, R50: WRITE_APPLY. A write to a scratchpad is performed at once: its bytes stand
there, and it is in flight no more. A write to memory that is no module release, once it is applied on its last die,
joins memory; before that it stays in flight, applied on the one die more, its place in coherence order settled. One
that reaches a free granule is lost, and where a task's control strand made it the task traps with MACHINE; of a module
release the stamp stays. A change of a module's incarnation is taken, and ends every request to the module, those of
fabric copies among them; a grant window and the ingress key are replaced. -/
def Obligations.WritesAndGrants : Prop :=
  (∀ (s : State) (w : Write) (e : Nat), s.input.who = e → s.writes.find? (fun u => u.id = s.input.sub) = some w →
    s.mayApply w e = true → s.fab.answers = [] →
    (w.scr = true → Goes .writeApply s (fun t => t.scr = s.scr.writeN w.addr w.bytes ∧ t.mem = s.mem ∧
      (∀ u, u ∈ t.writes → u.id ≠ w.id))) ∧
    (w.scr = false → w.bytes ≠ [] → s.freeGranule w.addr = true → Goes .writeApply s (fun t =>
      t.mem = s.mem ∧ t.scr = s.scr ∧
      (w.isModuleRelease = false → ∀ u, u ∈ t.writes ↔ u ∈ s.writes ∧ u.id ≠ w.id) ∧
      (w.isModuleRelease = true → ∀ u, u ∈ t.writes → u.id = w.id → u = { w with bytes := [] }) ∧
      ∀ b, w.writer = .ctl b → ∃ x, x ∈ (t.bank b).trap.pending ∧ x.code = cMachine ∧ x.deferred = true)) ∧
    (w.scr = false → s.freeGranule w.addr = false → w.isModuleRelease = false → (∀ d, d ∈ s.allDies → d = e ∨ d ∈ w.dies) →
      Goes .writeApply s (fun t => t.mem = s.mem.writeN w.addr w.bytes ∧ t.scr = s.scr ∧
        (∀ u, u ∈ t.writes → u.id ≠ w.id))) ∧
    (w.scr = false → s.freeGranule w.addr = false → w.isModuleRelease = false → (∃ d, d ∈ s.allDies ∧ d ≠ e ∧ d ∉ w.dies) →
      Goes .writeApply s (fun t => t.mem = s.mem ∧ t.scr = s.scr ∧ ∃ u, u ∈ t.writes ∧ u.id = w.id ∧
        u.dies = w.dies ++ [e] ∧ u.bytes = w.bytes ∧ u.ord = (match w.ord with | none => some s.nextOrd | o => o)))) ∧
  (∀ (s : State) (n v : Nat), s.input.who = n → s.input.value.toNat % 65536 = v →
    (n = s.boot.moduleNo → exec .peerincWrite s = .next s) ∧
    (n ≠ s.boot.moduleNo → s.hubReg (offPEERINC n) ≠ v →
      exec .peerincWrite s =
        .next (((((s.setHub (offPEERINC n) v).resetSlots n).resetTickets n).resetCopies n).resetDeliveries n))) ∧
  (∀ (s : State) (n : Nat), s.input.who = n →
    let v := s.input.value.toNat / 2 ^ 64 * 2 ^ 64
    gwinValid v = true → Goes .gwinWrite s (fun t => t.hubReg (offGWIN n) = v ∧ t.mem = s.mem ∧
      t.parcels = s.parcels)) ∧
  (∀ s : State, (∀ d, d ∈ s.parcels.deliveries → d.sender.isSome = true) → Goes .ingressKeyReplace s (fun t =>
    t.boot.ingressKey = Config.randomKey s.freeCtr ∧ t.mem = s.mem ∧ t.parcels = s.parcels))

/-! ### Hosts -/

/-- R51, R52, R53, R54, R55, R58: the host interface. A launch write that is not taken, or finds no two free
completion entries, is dropped and counted, and vector 63 tells of the change; at 0xFFFF the count stays, and nothing
is told. A taken one takes the next sequence number and goes before the Chanter. Enabling CQCTL starts the area anew.
VISTAT answers its counts and clears them; a launch window reads as zero, and a read of BAR0 that misses VISTAT clears
nothing. A read of the memory window goes to the memory ports of its pages' bytes, and answers them when it has been
served; a write of it is made in the hub's name. A function level reset clears the interface's registers, what its windows
wait for and the groups that a migration has stopped. A CXL link that goes down empties its field of the capability
record. That the reset clears the host accesses that wait (log entry 56), that bytes of the launch windows' space where no
window stands read as zero (log entry 100), and which writes the launch write count counts (log entry 125), are the
model's choices. -/
def Obligations.HostInterface : Prop :=
  (∀ (s : State) (vi : Nat), s.input.who = vi → s.input.third ≠ 1 →
    let v := s.ifc vi
    let w := s.input.sub / 0x1000
    (s.launchTaken vi s.input.sub s.input.data = false → 0xFFFF ≤ v.dropped → Goes .launchWrite s (fun t =>
      OnlyInterface vi s t ∧ t.ifc vi = v)) ∧
    (s.launchTaken vi s.input.sub s.input.data = false → v.dropped < 0xFFFF → Goes .launchWrite s (fun t =>
      OnlyInterface vi s t ∧ (t.ifc vi).dropped = v.dropped + 1 ∧ (t.ifc vi).launches = v.launches ∧
      (v.masked.contains 63 = false → (t.ifc vi).sent = v.sent ++ [63]))) ∧
    (s.launchTaken vi s.input.sub s.input.data = true → v.free - v.reserved < 2 →
      Goes .launchWrite s (fun t => OnlyInterface vi s t ∧ (t.ifc vi).dropped = Nat.min 0xFFFF (v.dropped + 1) ∧
        (t.ifc vi).launches = (v.launches + 1) % 2 ^ 32)) ∧
    (s.launchTaken vi s.input.sub s.input.data = true → 2 ≤ v.free - v.reserved → v.waits = [] → v.stuck = false →
      v.posted = [] → Goes .launchWrite s (fun t => t.mem = s.mem ∧ (t.ifc vi).launches = (v.launches + 1) % 2 ^ 32 ∧
        (t.ifc vi).dropped = v.dropped ∧
        ∃ u, (t.inst instChanter).tries = (s.inst instChanter).tries ++ [u] ∧ u.asker = .window vi w ∧
          u.desc = s.input.data ∧ u.tenant = vi ∧ u.id = v.launches))) ∧
  (∀ (s : State) (vi : Nat), s.input.who = vi →
    let x := s.input.value.toNat &&& 0x80007E0F
    Goes .cqctlWrite s (fun t => OnlyInterface vi s t ∧ (t.ifc vi).cqCtl = x ∧
      (bitAt x 31 = true → (s.ifc vi).cqOn = false → (t.ifc vi).cqTail = 0 ∧ (t.ifc vi).pass = 1 ∧
        (t.ifc vi).launches = 0 ∧ (t.ifc vi).refusals = []) ∧
      (bitAt x 31 = false ∨ (s.ifc vi).cqOn = true → t.ifc vi = { s.ifc vi with cqCtl := x }))) ∧
  (∀ (s : State) (vi : Nat), s.input.who = vi → s.input.third = 1 →
    (s.input.sub + s.input.size ≤ 0x8000 → Goes .vistatRead s (fun t =>
      (t.ifc vi).answer = some (List.replicate s.input.size 0) ∧ t.mem = s.mem)) ∧
    (s.input.sub + s.input.size ≤ 0x8014 ∨ 0x8018 ≤ s.input.sub → Goes .vistatRead s (fun t => t.mem = s.mem ∧
      (t.ifc vi).dropped = (s.ifc vi).dropped ∧ (t.ifc vi).failed = (s.ifc vi).failed))) ∧
  (∀ (s : State) (vi : Nat), s.input.who = vi → s.input.third ≠ 1 → s.input.third ≠ 2 → Goes .vistatRead s (fun t => OnlyInterface vi s t ∧
    (t.ifc vi).answer = some (leBytes 4 ((s.ifc vi).dropped * 65536 + (s.ifc vi).failed)) ∧ (t.ifc vi).dropped = 0 ∧
    (t.ifc vi).failed = 0)) ∧
  (∀ (s w : State) (vi n : Nat) (spans : List (Nat × Nat)), s.input.who = vi → s.input.size = n →
    let base := viMbase (s.hubReg (offVICFG vi))
    let u := s.updIfc vi (fun v => { v with waits := [.read s.input.sub n] })
    s.input.sub + n ≤ viMsize (s.hubReg (offVICFG vi)) → (s.ifc vi).waits = [] → (s.ifc vi).stuck = false →
    (s.ifc vi).posted = [] →
    u.hostXlat vi .read [] (granuleSpans n (base + s.input.sub) n) = (w, .ok spans) →
    let x := w.askPorts vi spans
    (x.queued w.nextId = true → Goes .bar2Read s (fun t => t.mem = w.mem ∧
      (t.ifc vi).waits = [.reading w.nextId spans] ∧ t.queued w.nextId = true ∧
      ∃ e, e ∈ t.agenda ∧ e.act = .event .launchWrite { Input.none with who := vi, third := 1 })) ∧
    (x.queued w.nextId = false → Goes .bar2Read s (fun t => t.mem = w.mem ∧ (t.ifc vi).waits = [] ∧
      (t.ifc vi).answer = some (spans.map (fun x => w.see none 4 x.1 x.2)).flatten))) ∧
  (∀ (s : State) (vi id : Nat) (spans : List (Nat × Nat)), s.input.who = vi → s.input.third = 1 →
    (s.ifc vi).stuck = false → (s.ifc vi).waits = [.reading id spans] → s.queued id = false →
    Goes .launchWrite s (fun t => t.mem = s.mem ∧ (t.ifc vi).waits = [] ∧
      (t.ifc vi).answer = some (spans.map (fun x => s.see none 4 x.1 x.2)).flatten)) ∧
  (∀ (s w : State) (vi : Nat) (spans : List (Nat × Nat)), s.input.who = vi →
    let n := s.input.data.length
    let va := viMbase (s.hubReg (offVICFG vi)) + s.input.sub
    let u := s.updIfc vi (fun v => { v with waits := [.write s.input.sub s.input.data] })
    s.input.sub + n ≤ viMsize (s.hubReg (offVICFG vi)) → (s.ifc vi).waits = [] → (s.ifc vi).stuck = false →
    u.hostXlat vi .write [] (granuleSpans n va n) = (w, .ok spans) →
    exec .bar2Write s = .next ((w.hostWrite vi va s.input.data spans).popWait vi)) ∧
  (∀ (s : State) (vi : Nat), s.input.who = vi → Goes .functionLevelReset s (fun t =>
    (t.ifc vi).cqCtl = 0 ∧ (t.ifc vi).cqBase = 0 ∧ (t.ifc vi).waits = [] ∧ (t.ifc vi).stuck = false ∧
    (t.ifc vi).reserved = 0 ∧ (∀ p, (t.ifc vi).precopy = some p → p.gone = []) ∧
    ∀ l, l ∈ t.chanter.queue → l.asker.ofVi vi = false)) ∧
  (∀ (s : State) (n : Nat), s.input.who = n → n < 4 → s.boot.capability.length = 128 →
    Goes .cxlLinkDown s (fun t => t.mem = s.mem ∧ KV.get false t.boot.cxlUp n = false ∧
      (∀ i, i < 128 → t.boot.capability.getD i 0 =
        (if 40 + 8 * n ≤ i ∧ i < 48 + 8 * n then 0 else s.boot.capability.getD i 0)) ∧
      ∀ x, x ∈ t.tlb → x ∈ s.tlb ∧ (leafRemote x.leaf = true ∨ leafPA x.leaf < (n + 1) * 2 ^ 42 ∨
        (n + 2) * 2 ^ 42 ≤ leafPA x.leaf)))

/-- R59, R32: attestation at the DOE mailbox of an interface; the codes of the responses are log entry 9's. Version 1.3,
certificates, challenge and measurements are answered; a request that is not supported, or names another slot, is
answered with an ERROR; and nothing changes but the interface. -/
def Obligations.Attestation : Prop :=
  ∀ (s : State) (vi : Nat), s.input.who = vi →
    let q := s.input.data
    let replies := fun (i : Instr) (n : Nat) (bs : List Byte) => Goes i s (fun t => OnlyInterface vi s t ∧
      (t.ifc vi).doe.take n = bs)
    replies .getVersion 8 [0x10, 0x04, 0, 0, 0x00, 0x01, 0x00, 0x13] ∧
    replies .getCapabilities 4 [0x13, 0x61, 0, 0] ∧
    (leAt q 8 4 &&& 0x80 = 0x80 → replies .negotiateAlgorithms 4 [0x13, 0x63, 0, 0]) ∧
    replies .getDigests 68 ([0x13, 0x01, 1, 1] ++ leBytes 64 (Config.sha512 Config.certChain).toNat) ∧
    (leAt q 2 1 % 16 = 0 →
      Goes .getCertificate s (fun t => OnlyInterface vi s t ∧ (t.ifc vi).doe.take 4 = [0x13, 0x02, 0, 0] ∧
        (t.ifc vi).doe.drop 8 = (Config.certChain.drop (leAt q 4 2)).take (leAt q 6 2))) ∧
    (leAt q 2 1 % 16 ≠ 0 → replies .getCertificate 4 [0x13, 0x7F, 7, 0]) ∧
    (leAt q 2 1 = 0 → Goes .challenge s (fun t => (t.ifc vi).doe.take 68 =
        [0x13, 0x03, 0, 1] ++ leBytes 64 (Config.sha512 Config.certChain).toNat ∧ (t.ifc vi).mid = [] ∧
        t.freeCtr = s.freeCtr + 4 ∧ t.mem = s.mem)) ∧
    (leAt q 2 1 ≠ 0 → replies .challenge 4 [0x13, 0x7F, 7, 0]) ∧
    (leAt q 2 1 % 2 = 1 → leAt q 3 1 = 0xFF → replies .getMeasurements 5 ([0x13, 0x60, 0, 0] ++
        leBytes 1 (s.boot.images.length + 2))) ∧
    (leAt q 2 1 % 2 = 0 ∨ leAt q 3 1 ≠ 0xFF → replies .getMeasurements 4 [0x13, 0x7F, 7, 0]) ∧
    replies .unsupportedRequest 4 [0x13, 0x7F, 7, 0]

/-- R61, R62, R63, R64: pre-copy migration. A job starts in ROUNDS; a round takes a snapshot that clears the bitmap of
the range and sends what it reported; a round that reported few enough ends in STOPPING, which ends in FINAL once the
interface has no group left. The round of FINAL ends with the context records of the groups that have stopped, and
FINAL in DONE, which frees the tenant's parcels, or FAILED by the destination's report. A granule message whose tag
does not verify is reported and writes nothing; the tenant's context key comes with the session (R78). What DONE frees
(log entries 60 and 102), and how the records are sent, the rounds numbered and an early report taken (log entry 59), are
the model's choices. -/
def Obligations.Migration : Prop :=
  (∀ (s : State) (vi : Nat), s.input.who = vi →
    (s.input.ok = true → (s.ifc vi).noPrecopy = true → Goes .precopyJobStart s (fun t => t.mem = s.mem ∧
      ∃ p, (t.ifc vi).precopy = some p ∧ p.phase = .rounds ∧ p.threshold = s.input.sub ∧ p.limit = s.input.third ∧
        p.job = s.host.nextJob ∧ p.count = 0 ∧ t.host.nextJob = s.host.nextJob + 1)) ∧
    (s.input.ok = false → Goes .precopyJobStart s (fun t => t.mem = s.mem ∧
      ∃ x, (t.ifc vi).session = some x ∧ x.job = s.input.size ∧ x.resend = []))) ∧
  (∀ (s u : State) (vi : Nat) (p : Precopy) (gs : List Nat), s.input.who = vi → (s.ifc vi).precopy = some p →
    p.sends = true → s.input.list = [] → p.begun = false → s.snapAll vi = some (u, gs) →
    Goes .precopyRound s (fun t => (∀ a, (s.dirtyMap vi).1 ≤ a → a < (s.dirtyMap vi).2 → t.mem.read a = 0) ∧
      (∀ a, a < (s.dirtyMap vi).1 ∨ (s.dirtyMap vi).2 ≤ a → t.mem.read a = s.mem.read a) ∧
      ∃ q, (t.ifc vi).precopy = some q ∧ q.begun = true ∧ q.round = p.round + 1 ∧ q.reported = gs.length ∧
        q.phase = p.phase)) ∧
  (∀ (s : State) (vi : Nat) (x : Session), s.input.who = vi → s.input.size ≠ 1 → s.input.size ≠ 2 →
    (s.ifc vi).session = some x →
    let m := s.input.granule
    match Config.gcmOpen x.key (granuleNonce m.job m.count) (granuleAad m.vi m.va m.round) m.cipher m.tag with
    | none => Goes .granuleMessage s (fun t => OnlyInterface vi s t ∧
        ∃ y, (t.ifc vi).session = some y ∧ y.resend = x.resend ++ [m.va])
    | some bs => ∀ u pa k, s.translate none false vi (m.va / 4096 * 4096) .write = (u, .phys pa k) →
        Goes .granuleMessage s (fun t => t.mem = u.mem ∧ ∀ y, y ∈ linePieces 4096 pa (bs.take 4096) →
          ∃ w, w ∈ t.writes ∧ w.addr = y.1 ∧ w.bytes = y.2)) ∧
  (∀ (s : State) (vi : Nat) (x : Session), s.input.who = vi → s.input.size = 2 → s.input.ok = true →
    (s.ifc vi).session = some x → Goes .granuleMessage s (fun t => OnlyInterface vi s t ∧
      (t.ifc vi).contextKey = some (BitVec.ofNat 256 (ofLeBytes s.input.data)))) ∧
  (∀ (s : State) (vi : Nat) (p : Precopy), s.input.who = vi → (s.ifc vi).precopy = some p → p.begun = true →
    p.todo = [] →
    (p.phase = .rounds → p.reported ≤ p.threshold ∨ p.limit ≤ p.round → Goes .precopyRoundEnd s (fun t =>
      ((∀ b, (s.bank b).now.barked = false) → t.mem = s.mem) ∧
      ∃ q, (t.ifc vi).precopy = some q ∧ q.phase = .stopping ∧ q.begun = false)) ∧
    (p.phase = .rounds → p.threshold < p.reported → p.round < p.limit → Goes .precopyRoundEnd s (fun t =>
      OnlyInterface vi s t ∧ ∃ q, (t.ifc vi).precopy = some q ∧ q.phase = .rounds ∧ q.begun = false)) ∧
    (p.phase = .final → p.sent = false → Goes .precopyRoundEnd s (fun t => OnlyInterface vi s t ∧
      t.host.records = s.host.records ++ p.gone.flatMap (fun x => x.2.map (fun r => (p.job, r.bytes))) ∧
      (t.ifc vi).precopy = some { p with sent := true }))) ∧
  (∀ (s : State) (vi : Nat) (p : Precopy), s.input.who = vi → (s.ifc vi).precopy = some p → p.phase = .stopping →
    s.openGroups vi = [] → Goes .stoppingComplete s (fun t => OnlyInterface vi s t ∧
      ∃ q, (t.ifc vi).precopy = some q ∧ q.phase = .final ∧ q.stopped = p.stopped)) ∧
  (∀ (s : State) (vi : Nat) (p : Precopy), s.input.who = vi → (s.ifc vi).precopy = some p → p.phase = .final →
    (p.sent = true → Goes .restoreCompleteReport s (fun t => t.mem = s.mem ∧
      (∀ q, q ∈ t.parcels.table ↔ q ∈ s.parcels.table ∧ q.tenant ≠ vi) ∧
      ((s.ifc vi).cqOn = true → (t.ifc vi).unread = (s.ifc vi).unread + p.gone.length) ∧
      ∃ q, (t.ifc vi).precopy = some q ∧ q.phase = .done ∧ q.gone = [])) ∧
    (p.sent = false → exec .restoreCompleteReport s = .next s) ∧
    Goes .restoreFailedReport s (fun t => ∃ q, (t.ifc vi).precopy = some q ∧ q.phase = .failed))

/-! ### The Chanter -/

/-- R66, R67, R68, R71, R73, R74, R79: the Chanter. It decides the launch that is first: refused with the reason of
the first check that fails, 4 for want of a placement, 5 for want of tokens; admitted, with the identifier of its
group. A report sets the mirror of a die's banks. A drain that has not ended in time becomes a checkpoint, or, where
its group cannot be checkpointed then, runs on and becomes none later. A watchdog raises WATCHDOG in the control
strand, or kills a group that is marked. A save frees the banks of its group and interrupts the system cores. -/
def Obligations.ChanterDecides : Prop :=
  (∀ (s : State) (l : Launch) (b : Nat), s.chanter.queue = [l] → l.asker = .bank b → s.launchesIn l.ac = true →
    let u := s.leaveChanter l
    let k := u.launchCheck l (u.launchDies l)
    let plan := u.plan l.record (u.launchDies l)
    (k ≠ 0 → Goes .launchDecision s (fun t => (t.bank b).out.dec = .refused (BitVec.ofNat 64 k) ∧
      t.chanter.queue = [] ∧ t.mem = s.mem ∧ t.chanter.groups = s.chanter.groups)) ∧
    (k = 0 → plan = none → Goes .launchDecision s (fun t => (t.bank b).out.dec = .refused 4 ∧
      t.chanter.queue = [] ∧ t.mem = s.mem ∧ t.chanter.groups = s.chanter.groups)) ∧
    (∀ p, k = 0 → plan = some p →
      recTokens l.record < p.cost ∨ u.balance l.vi < p.cost →
      Goes .launchDecision s (fun t => (t.bank b).out.dec = .refused 5 ∧ t.mem = s.mem ∧
        t.chanter.groups = s.chanter.groups)) ∧
    (∀ p, k = 0 → plan = some p → p.cost = 0 → p.victims = [] → Goes .launchDecision s (fun t =>
      (t.bank b).out.dec = .admitted (BitVec.ofNat 64 (s.groupId l.vi)) ∧ t.mem = s.mem ∧
      t.chanter.serial = s.chanter.serial + 1 ∧ ∃ g, t.group (s.groupId l.vi) = some g ∧ g.members = p.banks ∧
        g.record = l.record ∧ g.vi = l.vi))) ∧
  (∀ (s : State) (d i : Nat), s.input.who = d → i < 256 → Goes .resourceReport s (fun t => t.banks = s.banks ∧
    t.mem = s.mem ∧ t.mirrorIdle (256 * d + i) =
      (decide ((s.bank (256 * d + i)).status = .idle) && (s.keeper (256 * d + i)).isNone))) ∧
  (∀ (s : State) (g : Group), s.group s.input.sub = some g → g.id = s.input.sub → g.leave = .drain → g.closed = false →
    g.late = false → bitsOf (s.hubReg offCHCFG) 15 0 * 1000000 ≤ s.time - g.since →
    (s.canCheckpoint g = true → Goes .drainTimeout s (fun t => t.mem = s.mem ∧
      ∃ h, t.group g.id = some h ∧ h.leave = .checkpoint ∧ h.members = g.members)) ∧
    (s.canCheckpoint g = false → Goes .drainTimeout s (fun t => t.banks = s.banks ∧ t.mem = s.mem ∧
      t.group g.id = some { g with late := true }))) ∧
  (∀ (s : State) (b : Nat), s.input.who = b → (s.bank b).status = .live → isSys b = false →
    (s.bank b).watchLimit ≤ (s.bank b).n.watchdog →
    ((∀ g, s.group (s.bank b).place.group = some g → g.leave = .stay) → Goes .watchdogExpiry s (fun t =>
      OnlyBank b s t ∧ (t.bank b).n.watchdog = 0 ∧ (t.bank b).r = (s.bank b).r ∧
      ∃ x, (t.bank b).trap.pending = (s.bank b).trap.pending ++ [x] ∧ x.code = 0x10 ∧ x.strand = .c ∧
        x.tval = 0 ∧ x.deferred = false)) ∧
    (∀ g, s.group (s.bank b).place.group = some g → g.leave ≠ .stay →
      exec .watchdogExpiry s = .next (s.killGroup g.id 0x10))) ∧
  (∀ (s : State) (g : Group), s.group s.input.sub = some g → g.id = s.input.sub → s.canSave g = true →
    Goes .saveComplete s (fun t => t.group g.id = none ∧ 2 ∈ t.faults.irqs ∧
      (∀ b, b ∈ s.held g → (t.bank b).status = .scrubbing) ∧
      t.chanter.saved.length = s.chanter.saved.length + (s.held g).length))

/-- R75, R76, R77, R80, R56: a task's life. A placed bank of a loaded group takes the text, its arguments in s1 to s3
and zeros elsewhere, once the memory ports have served the reads of its text; a filled and quiet one goes live; a task that is done ends; a bank that is scrubbed is idle, and
its window reads zero. CHRST without go sets its fields and keeps its status, and go is ignored while a restore is
under way. A restore whose header fails, whose version is not 1 or whose sequence is not above the one last restored
ends with status 5, one that the module does not offer with 4, one without room with 3; else its group has its banks,
and its records are read. One whose records read and verify ends with status 2, one that does not ends with status 5. -/
def Obligations.TaskLife : Prop :=
  (∀ (s : State) (b : Nat) (g : Group), s.input.who = b → s.group (s.bank b).place.group = some g →
    (s.bank b).status = .placed → g.closed = false → s.windowFits b = true → s.releasedLaunch g = true →
    s.hasFaulter (.loader g.id) = false → s.chanter.restore = none → g.loaded = true →
    Goes .textPlaneFill s (fun t => OnlyBank b s t ∧ (t.bank b).status = .filled ∧
      (t.bank b).words = g.text.length ∧ (∀ i, i < g.text.length → (t.bank b).wordAt i = g.text.getD i 0) ∧
      (t.bank b).r.readS 1 = (s.bank b).place.args ∧
      (t.bank b).r.readS 2 = BitVec.ofNat 64 (s.bank b).place.rank ∧
      (t.bank b).r.readS 3 = BitVec.ofNat 64 (s.bank b).place.tasks ∧
      ∀ n, n ≠ 1 → n ≠ 2 → n ≠ 3 → (t.bank b).r.readS n = 0)) ∧
  (∀ (s : State) (b : Nat) (g : Group), s.input.who = b → s.group (s.bank b).place.group = some g →
    s.group g.id = some g → (s.bank b).status = .placed → g.closed = false → s.windowFits b = true →
    s.releasedLaunch g = true → s.hasFaulter (.loader g.id) = false → s.chanter.restore = none → g.loaded = false →
    (g.nextText.2 = 0 → Goes .textPlaneFill s (fun t => (t.bank b).status = .filled ∧ t.mem = s.mem ∧
      (t.bank b).words = g.text.length ∧ ∀ i, i < g.text.length → (t.bank b).wordAt i = g.text.getD i 0)) ∧
    (∀ id pa, g.nextText.2 ≠ 0 → g.reading = some (id, pa) → s.queued id = true → Goes .textPlaneFill s (fun t =>
      t.banks = s.banks ∧ t.mem = s.mem ∧
      ∃ x, x ∈ t.agenda ∧ x.act = .event .textPlaneFill { Input.none with who := b }))) ∧
  (∀ (s : State) (b : Nat), s.input.who = b → (s.bank b).status = .filled → (s.bank b).quiet = true →
    Goes .bankLive s (fun t => OnlyBank b s t ∧ (t.bank b).status = .live ∧ (t.bank b).r = (s.bank b).r ∧
      (t.bank b).n.watchdog = 0)) ∧
  (∀ (s : State) (b : Nat), s.input.who = b → s.taskDone b = true → Goes .taskEnd s (fun t =>
    (t.bank b).status = .ended)) ∧
  (∀ (s : State) (b : Nat), s.input.who = b → (s.bank b).status = .scrubbing ∨ (s.bank b).status = .ended →
    s.keeper b = none →
    let lo := coreOf b * 2 ^ 20 + ((s.bank b).csrGet csrSPBASE).toNat
    let hi := coreOf b * 2 ^ 20 + ((s.bank b).csrGet csrSPLIM).toNat
    Goes .scrubComplete s (fun t => t.bank b = Bank.idle ∧ t.mem = s.mem ∧ (∀ c, c ≠ b → t.bank c = s.bank c) ∧
      ∀ a, t.scr.read a = (if lo ≤ a ∧ a < hi then 0 else s.scr.read a))) ∧
  (∀ s : State,
    let v := s.input.value.toNat
    let old := s.hubReg offCHRST
    let new := fun (n : Nat) => putBits (putBits (putBits 0 63 56 (bitsOf v 63 56)) 51 6 (bitsOf v 51 6)) 55 52 n
    let u := s.setHub offCHRST (new 1)
    (bitAt v 0 = false → Goes .chrstGo s (fun t => t = { s with hub := t.hub } ∧
      t.hubReg offCHRST = new (bitsOf old 55 52))) ∧
    (bitAt v 0 = true → bitsOf old 55 52 = 1 → exec .chrstGo s = .next s) ∧
    (bitAt v 0 = true → bitsOf old 55 52 ≠ 1 → u.groupRecords (bitsOf v 51 6 * 64) = none →
      Goes .chrstGo s (fun t => bitsOf (t.hubReg offCHRST) 55 52 = 5 ∧ t.chanter.groups = s.chanter.groups ∧
        t.chanter.restore = s.chanter.restore ∧ t.banks = s.banks ∧ t.mem = s.mem)) ∧
    (∀ rs, bitAt v 0 = true → bitsOf old 55 52 ≠ 1 → u.groupRecords (bitsOf v 51 6 * 64) = some rs →
      let h := rs.headD []
      let gid := leAt h 48 8
      let shaped := (sectionOf h 11).take 20 ++ leBytes 4 (leAt h 60 4) ++ (sectionOf h 11).drop 24
      let plan := u.restorePlan (bitsOf (leAt h 8 8) 6 5) shaped
      let first := ∀ r, r ∈ rs → leAt r 4 2 = 1
      let later := ∀ r, r ∈ rs → KV.get 0 s.chanter.restored gid < leAt r 24 8
      let offered := ∀ r, r ∈ rs → u.offers (leAt r 8 8) = true
      let ends := fun (n : Nat) => Goes .chrstGo s (fun t => bitsOf (t.hubReg offCHRST) 55 52 = n ∧
        t.chanter.groups = s.chanter.groups ∧ t.chanter.restore = s.chanter.restore ∧ t.banks = s.banks ∧ t.mem = s.mem)
      (¬ (first ∧ later) → ends 5) ∧ (first → later → ¬ offered → ends 4) ∧
      (first → later → offered → plan = none → ends 3) ∧
      (∀ banks, first → later → offered → plan = some banks → Goes .chrstGo s (fun t => t.hubReg offCHRST = new 1 ∧
        t.chanter.restore = some (gid, rs) ∧ t.mem = s.mem ∧ ∃ g, t.group gid = some g ∧ g.members = banks ∧
          g.record = shaped ∧ g.vi = bitsOf v 63 56 ∧ g.sequence = leAt h 24 8 ∧ g.leave = .stay ∧
          ∀ b, b ∈ banks → (t.bank b).status = .placed)))) ∧
  (∀ (s : State) (gid : Nat) (rs : List (List Byte)) (g : Group), s.chanter.restore = some (gid, rs) →
    s.group gid = some g → g.closed = false →
    (s.input.ok = false ∨ rs.all sectionsKnown = false ∨ rs.all (tagOk (s.contextKey g.vi)) = false →
      Goes .restoreReadComplete s (fun t => bitsOf (t.hubReg offCHRST) 55 52 = 5 ∧ t.chanter.restore = none ∧
        ∀ b, b ∈ s.held g → (t.bank b).status = .scrubbing)) ∧
    (s.input.ok = true → rs.all sectionsKnown = true → rs.all (tagOk (s.contextKey g.vi)) = true →
      Goes .restoreReadComplete s (fun t => bitsOf (t.hubReg offCHRST) 55 52 = 2 ∧ t.chanter.restore = none ∧
        KV.get 0 t.chanter.restored gid = g.sequence)))

/-! ### Slots, power, hub registers -/

/-- R19, R103, R104, R105, R106: slot tables and quad modes. A write of a ring table waits for the frame boundary,
which brings the changes of its die into force; a core whose needs change is given the positions that it lacks on all
eight rings. A memory-port table takes its entries; a port slot serves the access that its entry picks, of those that
it may serve. A quad mode is taken field by field once no access in flight reaches a quad that changes, and waits
until then, with the later writes of QMODE behind it; the bytes of other quads are seen where they were. -/
def Obligations.SlotTables : Prop :=
  (∀ (s : State) (d r x : Nat), d < 4 → r < 8 → x < 32 → s.input.sub = offRSLOT d r x →
    Goes .rslotWrite s (fun t => t.svc.ring = s.svc.ring ∧ t.banks = s.banks ∧ t.mem = s.mem ∧
      t.svc.ringNext = s.svc.ringNext ++ (List.range 8).map (fun i => (65536 * d + 256 * r + (8 * x + i),
        station (bitsOf s.input.value.toNat (8 * i + 7) (8 * i)))))) ∧
  (∀ s : State, Goes .frameBoundary s (fun t => t.banks = s.banks ∧ t.mem = s.mem ∧
    t.svc.ring = KV.putAll s.svc.ring (s.svc.ringNext.filter (fun x => decide (x.1 / 65536 = s.input.who))))) ∧
  (∀ (s : State) (core : Nat), s.input.who = core →
    let own := (s.ownedBy core).length
    let share := s.shareOf core
    own ≤ share → share - own ≤ (s.unownedOn (core / 128)).length → Goes .slotAllocatorRequest s (fun t =>
      t.banks = s.banks ∧ t.mem = s.mem ∧ t.svc.ring = s.svc.ring ∧
      t.svc.ringNext.length = s.svc.ringNext.length + 8 * (share - own) ∧ core ∉ t.svc.shortfalls)) ∧
  (∀ s : State, Goes .mptabWrite s (fun t => t = { s with hub := t.hub } ∧
    t.hubReg s.input.sub = s.input.value.toNat &&& 0x01FF01FF01FF01FF)) ∧
  (∀ (s : State) (n : Nat), s.input.who = n → s.input.ok = false → s.svc.modes = [] →
    let old := s.hubReg (offQMODE n)
    let v := s.input.value.toNat
    let new := s.qmodeValue old v
    (s.quadBusy n old new = false → Goes .qmodeWrite s (fun t =>
      t = { s with hub := t.hub, mem := s.mem.remode n old new } ∧ t.hubReg (offQMODE n) = new ∧
      ∀ a, modeMoves n old new a = false → t.mem.read a = s.mem.read a)) ∧
    (s.quadBusy n old new = true → Goes .qmodeWrite s (fun t =>
      t = { s with svc := t.svc, agenda := t.agenda } ∧ t.svc.modes = [(n, v)]))) ∧
  (∀ (s : State) (n v : Nat) (rest : List (Nat × Nat)), s.svc.modes = (n, v) :: rest → s.input.ok = false →
    s.quadBusy n (s.hubReg (offQMODE n)) (s.qmodeValue (s.hubReg (offQMODE n)) v) = true →
    Goes .qmodeWrite s (fun t => t = { s with svc := t.svc, agenda := t.agenda } ∧
      t.svc.modes = (n, v) :: rest ++ [(s.input.who, s.input.value.toNat)])) ∧
  (∀ (s : State) (port i : Nat) (q : List PortReq), s.input.who = port → KV.get 0 s.svc.slot port = i → i ≠ 0 →
    KV.get [] s.svc.ports port = q →
    let pick := portPick (KV.get 0 s.svc.table (64 * port + i)) (s.servable port i q)
    Goes .portSlot s (fun t => t = { s with svc := t.svc } ∧ KV.get 0 t.svc.slot port = (i + 1) % 64 ∧
      KV.get [] t.svc.ports port = (match s.input.third, pick with | 1, _ => q | _, some r => q.erase r | _, none => q)))

/-- R107, R108, R109, R110, R113, R115: a cluster's controller. A sample of 10 us lowers the frequency above the cap;
stays with auto clear; lowers at a stall ratio of at least hi, raises at one of at most lo below the cap. A voltage
step that has settled starts the frequency step or ends the move; a frequency step stops the clock, at the end of an
ac in progress, and changes the step code by one. A droop is counted and starts a stretch, and after a stretch 1024 ac
pass before the next. PWRCFG refuses lo at or above hi. -/
def Obligations.PowerControl : Prop :=
  (∀ (s : State) (cl : Nat), s.input.who = cl → (s.cluster cl).ctl = .steady →
    10000000 ≤ s.time - (s.cluster cl).since →
    let f := s.mhz cl
    let cap := s.fcap cl
    let r := (s.cluster cl).ratio
    let lo := bitsOf (s.hubReg offPWRCFG) 23 16
    let hi := bitsOf (s.hubReg offPWRCFG) 31 24
    let auto := bitAt (s.hubReg (offPCLUS cl)) 0
    let lowers := Goes .powerSample s (fun t => (t.cluster cl).ctl = .fdn ∧ ClockStops s t cl ∧
      t.hub = s.hub ∧ t.banks = s.banks)
    let stays := Goes .powerSample s (fun t => (t.cluster cl).ctl = .steady ∧ (t.cluster cl).since = s.time ∧
      t.hub = s.hub ∧ t.banks = s.banks)
    (cap < f → lowers) ∧ (f ≤ cap → auto = false → stays) ∧ (f ≤ cap → auto = true → hi ≤ r → 300 < f → lowers) ∧
    (∀ v, f < cap → auto = true → r < hi → r ≤ lo → s.voltTarget cl (s.stepCode cl + 1) = some v →
      Goes .powerSample s (fun t => (t.cluster cl).ctl = .vup ∧ (t.cluster cl).target = v ∧ t.hub = s.hub)) ∧
    (f ≤ cap → auto = true → r < hi → lo < r → stays)) ∧
  (∀ (s : State) (cl : Nat), s.input.who = cl → 2000000 ≤ s.time - (s.cluster cl).stepAt →
    (s.cluster cl).target < 1024 →
    ((s.cluster cl).ctl = .vup → Goes .voltageStepDone s (fun t => (t.cluster cl).ctl = .fup ∧
      ClockStops s t cl ∧ bitsOf (t.hubReg (offPCLUS cl)) 39 30 = (s.cluster cl).target)) ∧
    ((s.cluster cl).ctl = .vdn → Goes .voltageStepDone s (fun t => (t.cluster cl).ctl = .steady ∧
      bitsOf (t.hubReg (offPCLUS cl)) 39 30 = (s.cluster cl).target))) ∧
  (∀ (s : State) (cl : Nat), s.input.who = cl → (s.cluster cl).stopped = false →
    exec .frequencyStepDone s = .next s) ∧
  (∀ (s : State) (cl : Nat), s.input.who = cl → (s.cluster cl).stopped = true →
    ((s.cluster cl).ctl = .fup → Goes .frequencyStepDone s (fun t => (t.cluster cl).ctl = .steady ∧
      (t.cluster cl).stopped = false ∧ bitsOf (t.hubReg (offPCLUS cl)) 29 25 = s.stepCode cl + 1)) ∧
    ((s.cluster cl).ctl = .fdn → Goes .frequencyStepDone s (fun t => (t.cluster cl).stopped = false ∧
      bitsOf (t.hubReg (offPCLUS cl)) 29 25 = s.stepCode cl - 1))) ∧
  (∀ (s : State) (cl : Nat), s.input.who = cl → Goes .droop s (fun t => t.banks = s.banks ∧
    bitsOf (t.hubReg (offPCLUS cl)) 63 52 = Nat.min 4095 (bitsOf (s.hubReg (offPCLUS cl)) 63 52 + 1) ∧
    (t.cluster cl).suspect = s.inFlight cl ∧
    ((s.cluster cl).stretched = false → (s.cluster cl).quiet = 0 →
      (t.cluster cl).stretched = true ∧ (t.cluster cl).stretch = 128) ∧
    ((s.cluster cl).stretched = true → (t.cluster cl).stretch = (s.cluster cl).stretch))) ∧
  (∀ (s : State) (cl : Nat), s.input.who = cl → (s.cluster cl).stretched = true → (s.cluster cl).stretch = 0 →
    Goes .stretchEnd s (fun t => t = { s with power := t.power } ∧ (t.cluster cl).stretched = false ∧
      (t.cluster cl).quiet = 1024)) ∧
  (∀ (s : State) (cl : Nat), s.input.who = cl → s.hubReg (offPCLUS cl) < 2 ^ 64 → Goes .pclusWrite s (fun t =>
    t = { s with hub := t.hub } ∧
    ∀ i, i < 64 → bitAt (t.hubReg (offPCLUS cl)) i =
      (if i = 0 ∨ (12 ≤ i ∧ i ≤ 24) then bitAt s.input.value.toNat i else bitAt (s.hubReg (offPCLUS cl)) i))) ∧
  (∀ s : State,
    let v := s.input.value.toNat
    (bitsOf v 31 24 ≤ bitsOf v 23 16 → exec .pwrcfgWrite s = .next s) ∧
    (bitsOf v 23 16 < bitsOf v 31 24 → Goes .pwrcfgWrite s (fun t => t = { s with hub := t.hub } ∧
      t.hubReg offPWRCFG = v &&& 0xFFFF0000)))

/-- R116, R117: refresh and free granules. REFCFG.sync starts a load of the bitmap, and reads 1 until it has been
loaded; a granule that then returns to use reads zero, and a write in flight to it is lost. A refresh that is due is made, but for REFCFG.skip where every
row lies in free granules; a channel that grows too hot interrupts. -/
def Obligations.Refresh : Prop :=
  (∀ (s : State) (d : Nat), s.input.who = d → bitAt s.input.value.toNat 1 = true → Goes .refcfgSync s (fun t =>
    KV.get false t.power.loading d = true ∧ bitAt (t.hubReg (offREFCFG d)) 1 = true ∧ t.mem = s.mem ∧
    t.banks = s.banks)) ∧
  (∀ (s : State) (d : Nat), s.input.who = d → KV.get false s.power.loading d = true → s.fab.answers = [] →
    let lost := fun (w : Write) => w.scr = false ∧ w.bytes ≠ [] ∧ s.returns d w.addr = true
    Goes .bitmapLoaded s (fun t =>
      KV.get false t.power.loading d = false ∧ bitAt (t.hubReg (offREFCFG d)) 1 = false ∧
      (∀ a, t.mem.read a = (if s.returns d a then 0 else s.mem.read a)) ∧ (∀ w ∈ t.writes, ¬ lost w) ∧
      ((∀ w ∈ s.writes, ¬ lost w) → t.writes = s.writes ∧ t.banks = s.banks))) ∧
  (∀ (s : State) (key : Nat), s.input.who = key →
    s.refreshInterval key ≤ s.time - KV.get 0 s.power.refreshed key →
    (bitAt (s.hubReg (offREFCFG (key / 4096))) 0 = false ∨ s.rowsFree key = false → Goes .refresh s (fun t =>
      t = { s with power := t.power } ∧ KV.get 0 t.power.refreshed key = s.time)) ∧
    (bitAt (s.hubReg (offREFCFG (key / 4096))) 0 = true → s.rowsFree key = true → exec .refresh s = .next s)) ∧
  (∀ (s : State) (key : Nat), s.input.who = key →
    let old := KV.get 25 s.power.temps key
    Goes .temperatureEvent s (fun t => KV.get 25 t.power.temps key = s.input.celsius ∧ t.banks = s.banks ∧
      (old ≤ 105 → 105 < s.input.celsius → t.faults.irqs = s.faults.irqs ++ [3]) ∧
      (105 < old ∨ s.input.celsius ≤ 105 → t.faults.irqs = s.faults.irqs)))

/-- R4, R51, R53, R97: registers of the hub and of an interface. A read of ADMDAT that is a snapshot answers with its
counter as it stood before the events of the same decision cycle and leaves only them counted; a read of PCLUS clears
what is read to clear. A write of a register without a row of its own sets its fields; CQBASE takes the address, its low
12 bits ignored. It is the model's own choice that a write in BAR0 is one of a whole register (log entry 121), and what
it knows of MSI-X that a mask bit that is cleared lets a pending message go (log entry 54). -/
def Obligations.HubRegisters : Prop :=
  (∀ s : State,
    let sel := s.hubReg offADMSEL
    let k := entryInst (bitsOf sel 47 33)
    let n := bitsOf sel 2 0
    let vi := bitsOf sel 32 25
    (s.instPresent k = true → n < 6 → bitAt sel 24 = false → bitAt sel 63 = true → Goes .admdatRead s (fun t =>
      (t.inst k).counter vi n = KV.get 0 (s.inst k).recent (8 * vi + n) ∧ t = { s with svc := t.svc } ∧
      s.admdat.2 = KV.get ((s.inst k).counter vi n) (s.inst k).before (8 * vi + n) ∧
      ∀ v m, 8 * v + m ≠ 8 * vi + n → (t.inst k).counter v m = (s.inst k).counter v m)) ∧
    (bitAt sel 63 = false → exec .admdatRead s = .next s)) ∧
  (∀ (s : State) (cl : Nat), s.input.who = cl → s.hubReg (offPCLUS cl) < 2 ^ 64 → Goes .pclusRead s (fun t => t = { s with hub := t.hub } ∧
    t.hubReg (offPCLUS cl) = s.hubReg (offPCLUS cl) % 2 ^ 40)) ∧
  (∀ s : State, s.input.size = 0 → s.input.sub = offCHCFG → s.hubReg offCHCFG < 2 ^ 16 → Goes .registerWrite s (fun t =>
    t = { s with hub := t.hub } ∧ t.hubReg offCHCFG = s.input.value.toNat % 2 ^ 16)) ∧
  (∀ (s : State) (vi : Nat), s.input.who = vi → s.input.size = 1 → s.input.sub = 0x8000 → Goes .registerWrite s (fun t =>
    OnlyInterface vi s t ∧ (t.ifc vi).cqBase = s.input.value.toNat % 2 ^ 64 / 4096 * 4096)) ∧
  (∀ (s : State) (vi k : Nat), s.input.who = vi → s.input.size = 2 → s.input.sub = k → k < 64 →
    (s.input.ok = true → Goes .registerWrite s (fun t => OnlyInterface vi s t ∧ k ∈ (t.ifc vi).masked ∧
      (t.ifc vi).sent = (s.ifc vi).sent)) ∧
    (s.input.ok = false → (s.ifc vi).pending.contains k = true → Goes .registerWrite s (fun t => OnlyInterface vi s t ∧
      (t.ifc vi).sent = (s.ifc vi).sent ++ [k] ∧ k ∉ (t.ifc vi).masked ∧ k ∉ (t.ifc vi).pending)))

/-! ### Faults -/

/-- R143, R150, R151, R152, R153, R148, R124, R127: faults. A MIGRATE entry that has counted to its threshold adds a
migrate request and stops counting. A batch closes with its ranges and the next serial, and the next one takes at most
64 of the faults that wait; the oldest closed one is written into the next slot, FCTAIL advances and the system cores
are interrupted. An answer of retry to a control strand's fault lets the bank's faulting words be tried again, and
with ACCESS the word is denied. A bank whose fault waits FSWITCH ac is switched out; one that cannot move for 256 ac
raises QUEUE. -/
def Obligations.FaultCollection : Prop :=
  (∀ (s : State) (d : Nat) (u : TlbEntry), s.input.who = d → d < 4 → s.tlb = [u] → u.place = lastLevel d →
    leafMode u.leaf = 3 → u.reported = false → 2 ^ (leafMclass u.leaf + 4) ≤ u.count → s.faults.delivered = [] →
    s.openBatch d = { entries := [], since := 0, waiting := [] } → Goes .migrateRequest s (fun t =>
      t.tlb = [{ u with reported := true }] ∧ t.mem = s.mem ∧ t.banks = s.banks ∧
      ∃ e, (t.openBatch d).entries = [e] ∧ e.tenant = u.tenant ∧ e.granule = u.va / 4096 ∧ e.kinds = 64 ∧
        e.faulters = [])) ∧
  (∀ (s : State) (d : Nat), s.input.who = d → (s.openBatch d).entries ≠ [] →
    s.faults.closed.any (fun b => b.die = d) = false →
    64 ≤ (s.openBatch d).entries.length ∨ 4000000 ≤ s.time - (s.openBatch d).since →
    Goes .batchClose s (fun t => t = { s with faults := t.faults } ∧ t.faults.nextSerial = s.faults.nextSerial + 1 ∧
      (t.openBatch d).entries = (s.openBatch d).waiting.take 64 ∧
      (t.openBatch d).waiting = (s.openBatch d).waiting.drop 64 ∧ ∃ b, t.faults.closed = s.faults.closed ++ [b] ∧
        b.die = d ∧ b.serial = s.faults.nextSerial ∧ b.time = s.time / 1000 ∧
        b.ranges = mergeEntries (sortEntries (s.openBatch d).entries))) ∧
  (∀ (s : State) (b : Batch) (rest : List Batch), s.faults.closed = b :: rest → s.fcRoom = true →
    let r := s.hubReg offFCBUF
    let tail := s.hubReg offFCTAIL
    Goes .batchDeliver s (fun t => t.hubReg offFCTAIL = (tail + 1) % 2 ^ 32 ∧ t.banks = s.banks ∧
      t.mem = s.mem.writeN (bitsOf r 51 12 * 4096 + tail % fcSlots r * 4096) b.bytes ∧
      t.faults.closed = rest ∧ t.faults.delivered = s.faults.delivered ++ [b] ∧
      t.faults.irqs = s.faults.irqs ++ [1])) ∧
  (∀ s : State, Goes .fcheadWrite s (fun t => t.hubReg offFCHEAD = s.input.value.toNat % 2 ^ 32 ∧
    t = { s with hub := t.hub, agenda := t.agenda })) ∧
  (∀ s : State, Goes .fcbufWrite s (fun t => t.hubReg offFCBUF = s.input.value.toNat &&& 0x000FFFFFFFFFF01F ∧
    t = { s with hub := t.hub, agenda := t.agenda })) ∧
  (∀ (s : State) (x : Batch) (r : FaultRange) (b : Nat),
    let v := s.input.value.toNat
    s.faults.delivered.find? (fun x => x.serial % 2 ^ 40 = bitsOf v 63 24) = some x →
    x.ranges[bitsOf v 23 16]? = some r → r.answered = false → r.kinds ≠ 64 → r.faulters = [.ctl b] →
    (v % 4 = 0 → Goes .fcansRetry s (fun t => t.mem = s.mem ∧ (∀ c, c ≠ b → t.bank c = s.bank c) ∧
      (t.bank b).r = (s.bank b).r ∧ (t.bank b).out.denied = (s.bank b).out.denied ∧
      ((∃ f, f ∈ (s.bank b).out.faults ∧ f.xfer = none ∧ f.within r = true) → (t.bank b).out.faults = []))) ∧
    (v % 4 = 1 → ∀ f, (s.bank b).out.faults.find? (fun f => decide (f.xfer = none) && f.within r) = some f →
      Goes .fcansAccess s (fun t => t.mem = s.mem ∧ (∀ c, c ≠ b → t.bank c = s.bank c) ∧
        (t.bank b).r = (s.bank b).r ∧ (t.bank b).out.denied = some (f.va, f.handler) ∧
        (t.bank b).out.faults =
          (s.bank b).out.faults.filter (fun f => ! (decide (f.xfer = none) && f.within r))))) ∧
  (∀ (s : State) (b : Nat), s.input.who = b → (s.bank b).status = .live →
    (∃ f, f ∈ (s.bank b).out.faults ∧ bitsOf ((s.bank b).csrGet csrFSWITCH).toNat 15 0 ≤ f.age) → Goes .bankSwitchOut s (fun t =>
      OnlyBank b s t ∧ (t.bank b).out.out = true ∧ (t.bank b).r = (s.bank b).r)) ∧
  (∀ (s : State) (b : Nat), s.input.who = b → (s.bank b).status = .live → isSys b = false → 256 ≤ (s.bank b).n.idle →
    s.nothingOut b = true → (s.bank b).activeTraps = [] → Goes .queueTrap s (fun t => OnlyBank b s t ∧
      (t.bank b).r = (s.bank b).r ∧ ∃ x, (t.bank b).trap.pending = (s.bank b).trap.pending ++ [x] ∧
        x.code = 0x04 ∧ x.strand = .c ∧ x.deferred = false ∧ x.tval = BitVec.ofNat 64 (s.bank b).stalledBits))

/-! ### Steps, encodings, reset -/

/-- R84, R108, R118, R123, R163, R196, R223: a step runs the decoded instruction. A turn takes its time and then runs
one row, unless a `scop` falls due before: then that is performed, and the turn goes on with the time that is left. A
strand that may issue, its cluster's clock running, issues the instruction that the word at its program counter
decodes to, or the event of a word that no row matches, which carries the word. Of a task it first waits for the next ac
where a strand that would pass the word has issued in this one, or its engine has served the other bank; and it lets
the other bank of its core go first where one of these engines serves that one. A strand that may not issue does
nothing; an agent's event runs with what it brings, under the same rules where it lets strands pass words or begins a
command. With no turn waiting, a module in reset leaves it (R26). The order of turns is the model's own (log entry 1). -/
def Obligations.StepRunsDecoded : Prop :=
  (∀ (s : State) (ps b : Nat) (e : Strand) (rest : List Turn), s.agenda = { ps := ps, act := .strand b e } :: rest →
    let v := State.noteReady { s with agenda := rest }
    v.dueScop (v.time + ps) = none →
    let word := fun (x : State) => (x.bank b).wordAt ((x.bank b).walker e).pc
    let runs := fun (x : State) (i : Instr) (z : State) => (decodeWord (word x) = some i ∧ z = x) ∨
      (decodeWord (word x) = none ∧ i = .illegalWord ∧
        z = { x with input := { Input.none with value := (word x).setWidth 128 } })
    let may := fun (x : State) => mayIssue x b e = true ∧ x.clocked b = true
    let t := (v.elapse ps).acting b e
    (¬ may t → step s = .next t) ∧
    (∀ i z, may t → isSys b = true → runs t i z → step s = exec i z) ∧
    (∀ i z, may t → isSys b = false → runs t i z →
      let es := z.passers b i
      let u := t.awaitEngines b es
      ((∀ f ∈ es, (t.bank b).now.issued.contains f = false ∧ t.engineFree b f = true) → u = t) ∧
      (¬ may u → step s = .next u) ∧
      (∀ j y, may u → runs u j y →
        (y.chooseAll b (y.passers b j) = none → step s = .next u) ∧
        (∀ x, y.chooseAll b (y.passers b j) = some x → step s = exec j x)))) ∧
  (∀ (s : State) (ps : Nat) (i : Instr) (x : Input) (rest : List Turn),
    s.agenda = { ps := ps, act := .event i x } :: rest →
    let v := State.noteReady { s with agenda := rest }
    v.dueScop (v.time + ps) = none →
    let b := x.who
    let u := { v.elapse ps with input := x }
    let y := if passesWords i then u.awaitEngines b (u.engines i b) else u
    (i.isWord = true ∨ u.eventClocked i b = false → step s = .next u) ∧
    (i.isWord = false → u.eventClocked i b = true →
      (passesWords i = false → engineOf i = none → step s = exec i u) ∧
      (y.eventClocked i b = false → step s = .next y) ∧
      (y.eventClocked i b = true →
        (y.chooseAll b (y.engines i b) = none → step s = .next y) ∧
        (∀ z, y.chooseAll b (y.engines i b) = some z → step s = exec i z)))) ∧
  (∀ (s : State) (k : Turn) (rest : List Turn) (b at_ : Nat), s.agenda = k :: rest →
    let v := State.noteReady { s with agenda := rest }
    let u := v.elapse (at_ - v.time)
    v.dueScop (v.time + k.ps) = some (b, at_) →
    step s = exec .scopPerform { u with input := { Input.none with who := b },
                                        agenda := { k with ps := k.ps - (at_ - v.time) } :: u.agenda }) ∧
  (∀ s : State, s.agenda = [] → s.phase = .inReset →
    let v := s.noteReady
    v.dueScop v.time = none → step s = exec .bootStart { v.elapse 0 with input := Input.none })

/-- R224, R227, R136, R250 to R263, R300, R303, R324, R358, R366: words that the spec gives with the instructions that
they stand for decode to them, and words that no row matches decode to nothing. -/
def Obligations.WordsDecode : Prop :=
  decodeWord 0x000C1080 = some (.add 3 1 2) ∧ decodeWord 0x01140003 = some (.addi 5 0 3) ∧
  decodeWord 0x05104203 = some (.shi 4 4 2 3) ∧ decodeWord 0x0617BEEF = some (.movw 5 3 0xBEEF) ∧
  decodeWord 0x0820C492 = some (.cmp 2 3 4 9 2) ∧ decodeWord 0x0B1461D2 = some (.sel 5 6 7 1 2) ∧
  decodeWord 0x0C3FFFFD = some (.br 3 1 0x7FFFD) ∧ decodeWord 0x1803F02A = some (.csr 0 63 0x02A) ∧
  decodeWord 0x20144BFE = some (.ld 5 4 2 0x3FE) ∧ decodeWord 0x23388010 = some (.ldq 1 1 2 8 16) ∧
  decodeWord 0x261461CB = some (.cas 5 6 7 2 3) ∧ decodeWord 0x2B26064C = some (.post 9 4 0 3 2 6) ∧
  decodeWord 0x400420D0 = some (.vadd 1 2 3 2 0) ∧ decodeWord 0x4B160287 = some (.vcvt 5 32 10 0 7) ∧
  decodeWord 0x60048087 = some (.mma 1 8 2 1 1 1) ∧ decodeWord 0x63060C7C = some (.mshape 3 3 31) ∧
  decodeWord 0x81481000 = some (.xgo 1 2 1) ∧ decodeWord 0xA8200001 = some (.hwait 4 1 0 1) ∧
  decodeWord 0xC9800000 = some (.pfx 2 3 0 0 0) ∧ decodeWord 0x10000FFF = none ∧ decodeWord 0xE0000000 = none

/-- R223 to R234: no bit of an encoding is dropped. For every word and every value of its operands that its entry
allows, the encoded word decodes to it. -/
def Obligations.RoundTrip : Prop := ∀ i : Instr, i.wf = true → decodeWord (encode i) = some i

/-- R15, R19, R26, R47, R66, R75, R81, R109, R288: what reset leaves. The module is held in reset, its memories in
their canonical form; every context bank is idle; the registers stand at the values that their maps give. That
registers without a reset value read 0 is the model's choice (log entry 3). -/
def Obligations.ResetState : Prop :=
  let s := State.reset
  s.phase = .inReset ∧ s.memOk = true ∧ s.writes = [] ∧ s.chanter.groups = [] ∧ s.parcels.table = [] ∧
  (∀ b, b < 1024 → (s.bank b).status = .idle) ∧
  (∀ b, (s.bank b).csrGet csrSLIP = 0x400 ∧ (s.bank b).csrGet csrESC = 4 ∧ (s.bank b).csrGet csrHOLD = 0x1000 ∧
    (s.bank b).csrGet csrWDOG = 0x4000000 ∧ (s.bank b).csrGet csrFSWITCH = 0x800 ∧ (s.bank b).csrGet csrVSH = 7 ∧
    (s.bank b).csrGet csrTVEC = 0 ∧ (s.bank b).csrGet csrMDEF = 0 ∧ (s.bank b).csrGet csrFSTAT = 0 ∧
    (∀ n, (s.bank b).r.readS n = 0)) ∧
  (∀ n, n < 24 → s.hubReg (offQMODE n) = 0xAAAAAAAA) ∧ s.hubReg offFTMO = 0x3E8 ∧ s.hubReg offCHCFG = 0x32 ∧
  s.hubReg offADMCFG = 0x100 ∧ s.hubReg offPWRCFG = 0xA0200000 ∧
  (∀ d r x, d < 4 → r < 8 → x < 32 → s.hubReg (offRSLOT d r x) = 0xFFFFFFFFFFFFFFFF) ∧
  (∀ cl, cl < 64 → s.hubReg (offPCLUS cl) = 0xBB98C00001) ∧
  (∀ n, n < 256 → s.hubReg (offVICFG n) = 0 ∧ s.hubReg (offPTROOT n) = 0)

/-- The memories keep their canonical form (log entry 5): whatever instruction or event a step runs, if every memory
of the state is in canonical form before, it is after. -/
def Obligations.StepKeepsMemory : Prop :=
  ∀ s t : State, s.memOk = true → step s = .next t → t.memOk = true
end

