-- ==== Sys2Proof/Laws/Maps.lean ====
section
/-! SUPPORT. Finite maps: what reading gives after a write. -/

namespace Sys2Proof.KV

variable {α : Type}

@[simp] theorem get_put_same (d : α) (m : KV α) (i : Nat) (x : α) : get d (put m i x) i = x := by
  induction m with
  | nil => simp [put, get]
  | cons p rest ih =>
    obtain ⟨k, v⟩ := p
    simp only [put]
    split
    · simp [get]
    · rename_i h
      split
      · simp [get]
      · simp [get, h, ih]

theorem get_put_ne (d : α) {m : KV α} {i j : Nat} {x : α} (h : j ≠ i) : get d (put m i x) j = get d m j := by
  induction m with
  | nil => simp [put, get, Ne.symm h]
  | cons p rest ih =>
    obtain ⟨k, v⟩ := p
    simp only [put]
    split
    · rename_i hk; subst hk; simp [get, Ne.symm h]
    · split
      · simp [get, Ne.symm h]
      · simp [get, ih]

theorem put_put (m : KV α) (i : Nat) (x y : α) : put (put m i x) i y = put m i y := by
  induction m with
  | nil => simp [put]
  | cons p rest ih =>
    obtain ⟨k, v⟩ := p
    simp only [put]
    split
    · simp [put]
    · rename_i h
      split
      · simp [put]
      · rename_i h2; simp [put, h, h2, ih]

theorem get_erase_same (d : α) (m : KV α) (i : Nat) : get d (erase m i) i = d := by
  induction m with
  | nil => rfl
  | cons p rest ih =>
    obtain ⟨k, v⟩ := p
    by_cases h : k = i
    · simpa [erase, h] using ih
    · simpa [erase, h, get] using ih

theorem get_erase_ne (d : α) {m : KV α} {i j : Nat} (h : j ≠ i) : get d (erase m i) j = get d m j := by
  induction m with
  | nil => rfl
  | cons p rest ih =>
    obtain ⟨k, v⟩ := p
    by_cases hk : k = i
    · subst hk; simpa [erase, get, Ne.symm h] using ih
    · simp only [erase, ne_eq, decide_not, List.filter_cons, hk, decide_false, Bool.not_false, if_true, get] at ih ⊢
      rw [ih]

end Sys2Proof.KV
end

