-- ==== Sys2Proof/Laws/State.lean ====
section
/-! SUPPORT. What each named update leaves of the state: one lemma for a field and an update, so that no later proof
unfolds a record. -/

namespace Sys2Proof.Machine

open Sys2Proof

/-! ### Updates of the state -/

@[simp] theorem State.setBank_agenda (s : State) (b : Nat) (B : Bank) : (s.setBank b B).agenda = s.agenda := rfl
@[simp] theorem State.setBank_cur (s : State) (b : Nat) (B : Bank) : (s.setBank b B).cur = s.cur := rfl
@[simp] theorem State.setBank_input (s : State) (b : Nat) (B : Bank) : (s.setBank b B).input = s.input := rfl
@[simp] theorem State.setBank_freeCtr (s : State) (b : Nat) (B : Bank) : (s.setBank b B).freeCtr = s.freeCtr := rfl
@[simp] theorem State.setBank_nextId (s : State) (b : Nat) (B : Bank) : (s.setBank b B).nextId = s.nextId := rfl
@[simp] theorem State.setBank_nextOrd (s : State) (b : Nat) (B : Bank) : (s.setBank b B).nextOrd = s.nextOrd := rfl
@[simp] theorem State.setBank_phase (s : State) (b : Nat) (B : Bank) : (s.setBank b B).phase = s.phase := rfl
@[simp] theorem State.setBank_time (s : State) (b : Nat) (B : Bank) : (s.setBank b B).time = s.time := rfl
@[simp] theorem State.setBank_hub (s : State) (b : Nat) (B : Bank) : (s.setBank b B).hub = s.hub := rfl
@[simp] theorem State.setBank_cores (s : State) (b : Nat) (B : Bank) : (s.setBank b B).cores = s.cores := rfl
@[simp] theorem State.setBank_mem (s : State) (b : Nat) (B : Bank) : (s.setBank b B).mem = s.mem := rfl
@[simp] theorem State.setBank_scr (s : State) (b : Nat) (B : Bank) : (s.setBank b B).scr = s.scr := rfl
@[simp] theorem State.setBank_writes (s : State) (b : Nat) (B : Bank) : (s.setBank b B).writes = s.writes := rfl
@[simp] theorem State.setBank_vc (s : State) (b : Nat) (B : Bank) : (s.setBank b B).vc = s.vc := rfl
@[simp] theorem State.setBank_tlb (s : State) (b : Nat) (B : Bank) : (s.setBank b B).tlb = s.tlb := rfl
@[simp] theorem State.setBank_walks (s : State) (b : Nat) (B : Bank) : (s.setBank b B).walks = s.walks := rfl
@[simp] theorem State.setBank_l2 (s : State) (b : Nat) (B : Bank) : (s.setBank b B).l2 = s.l2 := rfl
@[simp] theorem State.setBank_boot (s : State) (b : Nat) (B : Bank) : (s.setBank b B).boot = s.boot := rfl
@[simp] theorem State.setBank_fab (s : State) (b : Nat) (B : Bank) : (s.setBank b B).fab = s.fab := rfl
@[simp] theorem State.setBank_faults (s : State) (b : Nat) (B : Bank) : (s.setBank b B).faults = s.faults := rfl
@[simp] theorem State.setBank_parcels (s : State) (b : Nat) (B : Bank) : (s.setBank b B).parcels = s.parcels := rfl
@[simp] theorem State.setBank_host (s : State) (b : Nat) (B : Bank) : (s.setBank b B).host = s.host := rfl
@[simp] theorem State.setBank_chanter (s : State) (b : Nat) (B : Bank) : (s.setBank b B).chanter = s.chanter := rfl
@[simp] theorem State.setBank_svc (s : State) (b : Nat) (B : Bank) : (s.setBank b B).svc = s.svc := rfl
@[simp] theorem State.setBank_power (s : State) (b : Nat) (B : Bank) : (s.setBank b B).power = s.power := rfl

@[simp] theorem State.updBank_agenda (s : State) (b : Nat) (f : Bank → Bank) : (s.updBank b f).agenda = s.agenda := rfl
@[simp] theorem State.updBank_cur (s : State) (b : Nat) (f : Bank → Bank) : (s.updBank b f).cur = s.cur := rfl
@[simp] theorem State.updBank_input (s : State) (b : Nat) (f : Bank → Bank) : (s.updBank b f).input = s.input := rfl
@[simp] theorem State.updBank_freeCtr (s : State) (b : Nat) (f : Bank → Bank) : (s.updBank b f).freeCtr = s.freeCtr := rfl
@[simp] theorem State.updBank_nextId (s : State) (b : Nat) (f : Bank → Bank) : (s.updBank b f).nextId = s.nextId := rfl
@[simp] theorem State.updBank_nextOrd (s : State) (b : Nat) (f : Bank → Bank) : (s.updBank b f).nextOrd = s.nextOrd := rfl
@[simp] theorem State.updBank_phase (s : State) (b : Nat) (f : Bank → Bank) : (s.updBank b f).phase = s.phase := rfl
@[simp] theorem State.updBank_time (s : State) (b : Nat) (f : Bank → Bank) : (s.updBank b f).time = s.time := rfl
@[simp] theorem State.updBank_hub (s : State) (b : Nat) (f : Bank → Bank) : (s.updBank b f).hub = s.hub := rfl
@[simp] theorem State.updBank_cores (s : State) (b : Nat) (f : Bank → Bank) : (s.updBank b f).cores = s.cores := rfl
@[simp] theorem State.updBank_mem (s : State) (b : Nat) (f : Bank → Bank) : (s.updBank b f).mem = s.mem := rfl
@[simp] theorem State.updBank_scr (s : State) (b : Nat) (f : Bank → Bank) : (s.updBank b f).scr = s.scr := rfl
@[simp] theorem State.updBank_writes (s : State) (b : Nat) (f : Bank → Bank) : (s.updBank b f).writes = s.writes := rfl
@[simp] theorem State.updBank_vc (s : State) (b : Nat) (f : Bank → Bank) : (s.updBank b f).vc = s.vc := rfl
@[simp] theorem State.updBank_tlb (s : State) (b : Nat) (f : Bank → Bank) : (s.updBank b f).tlb = s.tlb := rfl
@[simp] theorem State.updBank_walks (s : State) (b : Nat) (f : Bank → Bank) : (s.updBank b f).walks = s.walks := rfl
@[simp] theorem State.updBank_l2 (s : State) (b : Nat) (f : Bank → Bank) : (s.updBank b f).l2 = s.l2 := rfl
@[simp] theorem State.updBank_boot (s : State) (b : Nat) (f : Bank → Bank) : (s.updBank b f).boot = s.boot := rfl
@[simp] theorem State.updBank_fab (s : State) (b : Nat) (f : Bank → Bank) : (s.updBank b f).fab = s.fab := rfl
@[simp] theorem State.updBank_faults (s : State) (b : Nat) (f : Bank → Bank) : (s.updBank b f).faults = s.faults := rfl
@[simp] theorem State.updBank_parcels (s : State) (b : Nat) (f : Bank → Bank) : (s.updBank b f).parcels = s.parcels := rfl
@[simp] theorem State.updBank_host (s : State) (b : Nat) (f : Bank → Bank) : (s.updBank b f).host = s.host := rfl
@[simp] theorem State.updBank_chanter (s : State) (b : Nat) (f : Bank → Bank) : (s.updBank b f).chanter = s.chanter := rfl
@[simp] theorem State.updBank_svc (s : State) (b : Nat) (f : Bank → Bank) : (s.updBank b f).svc = s.svc := rfl
@[simp] theorem State.updBank_power (s : State) (b : Nat) (f : Bank → Bank) : (s.updBank b f).power = s.power := rfl

@[simp] theorem State.onRegs_agenda (s : State) (b : Nat) (f : Regs → Regs) : (s.onRegs b f).agenda = s.agenda := rfl
@[simp] theorem State.onRegs_cur (s : State) (b : Nat) (f : Regs → Regs) : (s.onRegs b f).cur = s.cur := rfl
@[simp] theorem State.onRegs_input (s : State) (b : Nat) (f : Regs → Regs) : (s.onRegs b f).input = s.input := rfl
@[simp] theorem State.onRegs_freeCtr (s : State) (b : Nat) (f : Regs → Regs) : (s.onRegs b f).freeCtr = s.freeCtr := rfl
@[simp] theorem State.onRegs_nextId (s : State) (b : Nat) (f : Regs → Regs) : (s.onRegs b f).nextId = s.nextId := rfl
@[simp] theorem State.onRegs_nextOrd (s : State) (b : Nat) (f : Regs → Regs) : (s.onRegs b f).nextOrd = s.nextOrd := rfl
@[simp] theorem State.onRegs_phase (s : State) (b : Nat) (f : Regs → Regs) : (s.onRegs b f).phase = s.phase := rfl
@[simp] theorem State.onRegs_time (s : State) (b : Nat) (f : Regs → Regs) : (s.onRegs b f).time = s.time := rfl
@[simp] theorem State.onRegs_hub (s : State) (b : Nat) (f : Regs → Regs) : (s.onRegs b f).hub = s.hub := rfl
@[simp] theorem State.onRegs_cores (s : State) (b : Nat) (f : Regs → Regs) : (s.onRegs b f).cores = s.cores := rfl
@[simp] theorem State.onRegs_mem (s : State) (b : Nat) (f : Regs → Regs) : (s.onRegs b f).mem = s.mem := rfl
@[simp] theorem State.onRegs_scr (s : State) (b : Nat) (f : Regs → Regs) : (s.onRegs b f).scr = s.scr := rfl
@[simp] theorem State.onRegs_writes (s : State) (b : Nat) (f : Regs → Regs) : (s.onRegs b f).writes = s.writes := rfl
@[simp] theorem State.onRegs_vc (s : State) (b : Nat) (f : Regs → Regs) : (s.onRegs b f).vc = s.vc := rfl
@[simp] theorem State.onRegs_tlb (s : State) (b : Nat) (f : Regs → Regs) : (s.onRegs b f).tlb = s.tlb := rfl
@[simp] theorem State.onRegs_walks (s : State) (b : Nat) (f : Regs → Regs) : (s.onRegs b f).walks = s.walks := rfl
@[simp] theorem State.onRegs_l2 (s : State) (b : Nat) (f : Regs → Regs) : (s.onRegs b f).l2 = s.l2 := rfl
@[simp] theorem State.onRegs_boot (s : State) (b : Nat) (f : Regs → Regs) : (s.onRegs b f).boot = s.boot := rfl
@[simp] theorem State.onRegs_fab (s : State) (b : Nat) (f : Regs → Regs) : (s.onRegs b f).fab = s.fab := rfl
@[simp] theorem State.onRegs_faults (s : State) (b : Nat) (f : Regs → Regs) : (s.onRegs b f).faults = s.faults := rfl
@[simp] theorem State.onRegs_parcels (s : State) (b : Nat) (f : Regs → Regs) : (s.onRegs b f).parcels = s.parcels := rfl
@[simp] theorem State.onRegs_host (s : State) (b : Nat) (f : Regs → Regs) : (s.onRegs b f).host = s.host := rfl
@[simp] theorem State.onRegs_chanter (s : State) (b : Nat) (f : Regs → Regs) : (s.onRegs b f).chanter = s.chanter := rfl
@[simp] theorem State.onRegs_svc (s : State) (b : Nat) (f : Regs → Regs) : (s.onRegs b f).svc = s.svc := rfl
@[simp] theorem State.onRegs_power (s : State) (b : Nat) (f : Regs → Regs) : (s.onRegs b f).power = s.power := rfl

@[simp] theorem State.onQ_agenda (s : State) (b : Nat) (f : Queues → Queues) : (s.onQ b f).agenda = s.agenda := rfl
@[simp] theorem State.onQ_cur (s : State) (b : Nat) (f : Queues → Queues) : (s.onQ b f).cur = s.cur := rfl
@[simp] theorem State.onQ_input (s : State) (b : Nat) (f : Queues → Queues) : (s.onQ b f).input = s.input := rfl
@[simp] theorem State.onQ_freeCtr (s : State) (b : Nat) (f : Queues → Queues) : (s.onQ b f).freeCtr = s.freeCtr := rfl
@[simp] theorem State.onQ_nextId (s : State) (b : Nat) (f : Queues → Queues) : (s.onQ b f).nextId = s.nextId := rfl
@[simp] theorem State.onQ_nextOrd (s : State) (b : Nat) (f : Queues → Queues) : (s.onQ b f).nextOrd = s.nextOrd := rfl
@[simp] theorem State.onQ_phase (s : State) (b : Nat) (f : Queues → Queues) : (s.onQ b f).phase = s.phase := rfl
@[simp] theorem State.onQ_time (s : State) (b : Nat) (f : Queues → Queues) : (s.onQ b f).time = s.time := rfl
@[simp] theorem State.onQ_hub (s : State) (b : Nat) (f : Queues → Queues) : (s.onQ b f).hub = s.hub := rfl
@[simp] theorem State.onQ_cores (s : State) (b : Nat) (f : Queues → Queues) : (s.onQ b f).cores = s.cores := rfl
@[simp] theorem State.onQ_mem (s : State) (b : Nat) (f : Queues → Queues) : (s.onQ b f).mem = s.mem := rfl
@[simp] theorem State.onQ_scr (s : State) (b : Nat) (f : Queues → Queues) : (s.onQ b f).scr = s.scr := rfl
@[simp] theorem State.onQ_writes (s : State) (b : Nat) (f : Queues → Queues) : (s.onQ b f).writes = s.writes := rfl
@[simp] theorem State.onQ_vc (s : State) (b : Nat) (f : Queues → Queues) : (s.onQ b f).vc = s.vc := rfl
@[simp] theorem State.onQ_tlb (s : State) (b : Nat) (f : Queues → Queues) : (s.onQ b f).tlb = s.tlb := rfl
@[simp] theorem State.onQ_walks (s : State) (b : Nat) (f : Queues → Queues) : (s.onQ b f).walks = s.walks := rfl
@[simp] theorem State.onQ_l2 (s : State) (b : Nat) (f : Queues → Queues) : (s.onQ b f).l2 = s.l2 := rfl
@[simp] theorem State.onQ_boot (s : State) (b : Nat) (f : Queues → Queues) : (s.onQ b f).boot = s.boot := rfl
@[simp] theorem State.onQ_fab (s : State) (b : Nat) (f : Queues → Queues) : (s.onQ b f).fab = s.fab := rfl
@[simp] theorem State.onQ_faults (s : State) (b : Nat) (f : Queues → Queues) : (s.onQ b f).faults = s.faults := rfl
@[simp] theorem State.onQ_parcels (s : State) (b : Nat) (f : Queues → Queues) : (s.onQ b f).parcels = s.parcels := rfl
@[simp] theorem State.onQ_host (s : State) (b : Nat) (f : Queues → Queues) : (s.onQ b f).host = s.host := rfl
@[simp] theorem State.onQ_chanter (s : State) (b : Nat) (f : Queues → Queues) : (s.onQ b f).chanter = s.chanter := rfl
@[simp] theorem State.onQ_svc (s : State) (b : Nat) (f : Queues → Queues) : (s.onQ b f).svc = s.svc := rfl
@[simp] theorem State.onQ_power (s : State) (b : Nat) (f : Queues → Queues) : (s.onQ b f).power = s.power := rfl

@[simp] theorem State.updCore_agenda (s : State) (c : Nat) (f : Core → Core) : (s.updCore c f).agenda = s.agenda := rfl
@[simp] theorem State.updCore_cur (s : State) (c : Nat) (f : Core → Core) : (s.updCore c f).cur = s.cur := rfl
@[simp] theorem State.updCore_input (s : State) (c : Nat) (f : Core → Core) : (s.updCore c f).input = s.input := rfl
@[simp] theorem State.updCore_freeCtr (s : State) (c : Nat) (f : Core → Core) : (s.updCore c f).freeCtr = s.freeCtr := rfl
@[simp] theorem State.updCore_nextId (s : State) (c : Nat) (f : Core → Core) : (s.updCore c f).nextId = s.nextId := rfl
@[simp] theorem State.updCore_nextOrd (s : State) (c : Nat) (f : Core → Core) : (s.updCore c f).nextOrd = s.nextOrd := rfl
@[simp] theorem State.updCore_phase (s : State) (c : Nat) (f : Core → Core) : (s.updCore c f).phase = s.phase := rfl
@[simp] theorem State.updCore_time (s : State) (c : Nat) (f : Core → Core) : (s.updCore c f).time = s.time := rfl
@[simp] theorem State.updCore_hub (s : State) (c : Nat) (f : Core → Core) : (s.updCore c f).hub = s.hub := rfl
@[simp] theorem State.updCore_banks (s : State) (c : Nat) (f : Core → Core) : (s.updCore c f).banks = s.banks := rfl
@[simp] theorem State.updCore_mem (s : State) (c : Nat) (f : Core → Core) : (s.updCore c f).mem = s.mem := rfl
@[simp] theorem State.updCore_scr (s : State) (c : Nat) (f : Core → Core) : (s.updCore c f).scr = s.scr := rfl
@[simp] theorem State.updCore_writes (s : State) (c : Nat) (f : Core → Core) : (s.updCore c f).writes = s.writes := rfl
@[simp] theorem State.updCore_vc (s : State) (c : Nat) (f : Core → Core) : (s.updCore c f).vc = s.vc := rfl
@[simp] theorem State.updCore_tlb (s : State) (c : Nat) (f : Core → Core) : (s.updCore c f).tlb = s.tlb := rfl
@[simp] theorem State.updCore_walks (s : State) (c : Nat) (f : Core → Core) : (s.updCore c f).walks = s.walks := rfl
@[simp] theorem State.updCore_l2 (s : State) (c : Nat) (f : Core → Core) : (s.updCore c f).l2 = s.l2 := rfl
@[simp] theorem State.updCore_boot (s : State) (c : Nat) (f : Core → Core) : (s.updCore c f).boot = s.boot := rfl
@[simp] theorem State.updCore_fab (s : State) (c : Nat) (f : Core → Core) : (s.updCore c f).fab = s.fab := rfl
@[simp] theorem State.updCore_faults (s : State) (c : Nat) (f : Core → Core) : (s.updCore c f).faults = s.faults := rfl
@[simp] theorem State.updCore_parcels (s : State) (c : Nat) (f : Core → Core) : (s.updCore c f).parcels = s.parcels := rfl
@[simp] theorem State.updCore_host (s : State) (c : Nat) (f : Core → Core) : (s.updCore c f).host = s.host := rfl
@[simp] theorem State.updCore_chanter (s : State) (c : Nat) (f : Core → Core) : (s.updCore c f).chanter = s.chanter := rfl
@[simp] theorem State.updCore_svc (s : State) (c : Nat) (f : Core → Core) : (s.updCore c f).svc = s.svc := rfl
@[simp] theorem State.updCore_power (s : State) (c : Nat) (f : Core → Core) : (s.updCore c f).power = s.power := rfl

@[simp] theorem State.setHub_agenda (s : State) (off v : Nat) : (s.setHub off v).agenda = s.agenda := rfl
@[simp] theorem State.setHub_cur (s : State) (off v : Nat) : (s.setHub off v).cur = s.cur := rfl
@[simp] theorem State.setHub_input (s : State) (off v : Nat) : (s.setHub off v).input = s.input := rfl
@[simp] theorem State.setHub_freeCtr (s : State) (off v : Nat) : (s.setHub off v).freeCtr = s.freeCtr := rfl
@[simp] theorem State.setHub_nextId (s : State) (off v : Nat) : (s.setHub off v).nextId = s.nextId := rfl
@[simp] theorem State.setHub_nextOrd (s : State) (off v : Nat) : (s.setHub off v).nextOrd = s.nextOrd := rfl
@[simp] theorem State.setHub_phase (s : State) (off v : Nat) : (s.setHub off v).phase = s.phase := rfl
@[simp] theorem State.setHub_time (s : State) (off v : Nat) : (s.setHub off v).time = s.time := rfl
@[simp] theorem State.setHub_banks (s : State) (off v : Nat) : (s.setHub off v).banks = s.banks := rfl
@[simp] theorem State.setHub_cores (s : State) (off v : Nat) : (s.setHub off v).cores = s.cores := rfl
@[simp] theorem State.setHub_mem (s : State) (off v : Nat) : (s.setHub off v).mem = s.mem := rfl
@[simp] theorem State.setHub_scr (s : State) (off v : Nat) : (s.setHub off v).scr = s.scr := rfl
@[simp] theorem State.setHub_writes (s : State) (off v : Nat) : (s.setHub off v).writes = s.writes := rfl
@[simp] theorem State.setHub_vc (s : State) (off v : Nat) : (s.setHub off v).vc = s.vc := rfl
@[simp] theorem State.setHub_tlb (s : State) (off v : Nat) : (s.setHub off v).tlb = s.tlb := rfl
@[simp] theorem State.setHub_walks (s : State) (off v : Nat) : (s.setHub off v).walks = s.walks := rfl
@[simp] theorem State.setHub_l2 (s : State) (off v : Nat) : (s.setHub off v).l2 = s.l2 := rfl
@[simp] theorem State.setHub_boot (s : State) (off v : Nat) : (s.setHub off v).boot = s.boot := rfl
@[simp] theorem State.setHub_fab (s : State) (off v : Nat) : (s.setHub off v).fab = s.fab := rfl
@[simp] theorem State.setHub_faults (s : State) (off v : Nat) : (s.setHub off v).faults = s.faults := rfl
@[simp] theorem State.setHub_parcels (s : State) (off v : Nat) : (s.setHub off v).parcels = s.parcels := rfl
@[simp] theorem State.setHub_host (s : State) (off v : Nat) : (s.setHub off v).host = s.host := rfl
@[simp] theorem State.setHub_chanter (s : State) (off v : Nat) : (s.setHub off v).chanter = s.chanter := rfl
@[simp] theorem State.setHub_svc (s : State) (off v : Nat) : (s.setHub off v).svc = s.svc := rfl
@[simp] theorem State.setHub_power (s : State) (off v : Nat) : (s.setHub off v).power = s.power := rfl

@[simp] theorem State.tick_agenda (s : State) : (s.tick).agenda = s.agenda := rfl
@[simp] theorem State.tick_cur (s : State) : (s.tick).cur = s.cur := rfl
@[simp] theorem State.tick_input (s : State) : (s.tick).input = s.input := rfl
@[simp] theorem State.tick_nextId (s : State) : (s.tick).nextId = s.nextId := rfl
@[simp] theorem State.tick_nextOrd (s : State) : (s.tick).nextOrd = s.nextOrd := rfl
@[simp] theorem State.tick_phase (s : State) : (s.tick).phase = s.phase := rfl
@[simp] theorem State.tick_time (s : State) : (s.tick).time = s.time := rfl
@[simp] theorem State.tick_hub (s : State) : (s.tick).hub = s.hub := rfl
@[simp] theorem State.tick_banks (s : State) : (s.tick).banks = s.banks := rfl
@[simp] theorem State.tick_cores (s : State) : (s.tick).cores = s.cores := rfl
@[simp] theorem State.tick_mem (s : State) : (s.tick).mem = s.mem := rfl
@[simp] theorem State.tick_scr (s : State) : (s.tick).scr = s.scr := rfl
@[simp] theorem State.tick_writes (s : State) : (s.tick).writes = s.writes := rfl
@[simp] theorem State.tick_vc (s : State) : (s.tick).vc = s.vc := rfl
@[simp] theorem State.tick_tlb (s : State) : (s.tick).tlb = s.tlb := rfl
@[simp] theorem State.tick_walks (s : State) : (s.tick).walks = s.walks := rfl
@[simp] theorem State.tick_l2 (s : State) : (s.tick).l2 = s.l2 := rfl
@[simp] theorem State.tick_boot (s : State) : (s.tick).boot = s.boot := rfl
@[simp] theorem State.tick_fab (s : State) : (s.tick).fab = s.fab := rfl
@[simp] theorem State.tick_faults (s : State) : (s.tick).faults = s.faults := rfl
@[simp] theorem State.tick_parcels (s : State) : (s.tick).parcels = s.parcels := rfl
@[simp] theorem State.tick_host (s : State) : (s.tick).host = s.host := rfl
@[simp] theorem State.tick_chanter (s : State) : (s.tick).chanter = s.chanter := rfl
@[simp] theorem State.tick_svc (s : State) : (s.tick).svc = s.svc := rfl
@[simp] theorem State.tick_power (s : State) : (s.tick).power = s.power := rfl

@[simp] theorem State.issueWrite_agenda (s : State) (t : WriteTag) (a : Nat) (bs : List Byte) : (s.issueWrite t a bs).agenda = s.agenda := rfl
@[simp] theorem State.issueWrite_cur (s : State) (t : WriteTag) (a : Nat) (bs : List Byte) : (s.issueWrite t a bs).cur = s.cur := rfl
@[simp] theorem State.issueWrite_input (s : State) (t : WriteTag) (a : Nat) (bs : List Byte) : (s.issueWrite t a bs).input = s.input := rfl
@[simp] theorem State.issueWrite_freeCtr (s : State) (t : WriteTag) (a : Nat) (bs : List Byte) : (s.issueWrite t a bs).freeCtr = s.freeCtr := rfl
@[simp] theorem State.issueWrite_nextOrd (s : State) (t : WriteTag) (a : Nat) (bs : List Byte) : (s.issueWrite t a bs).nextOrd = s.nextOrd := rfl
@[simp] theorem State.issueWrite_phase (s : State) (t : WriteTag) (a : Nat) (bs : List Byte) : (s.issueWrite t a bs).phase = s.phase := rfl
@[simp] theorem State.issueWrite_time (s : State) (t : WriteTag) (a : Nat) (bs : List Byte) : (s.issueWrite t a bs).time = s.time := rfl
@[simp] theorem State.issueWrite_hub (s : State) (t : WriteTag) (a : Nat) (bs : List Byte) : (s.issueWrite t a bs).hub = s.hub := rfl
@[simp] theorem State.issueWrite_banks (s : State) (t : WriteTag) (a : Nat) (bs : List Byte) : (s.issueWrite t a bs).banks = s.banks := rfl
@[simp] theorem State.issueWrite_cores (s : State) (t : WriteTag) (a : Nat) (bs : List Byte) : (s.issueWrite t a bs).cores = s.cores := rfl
@[simp] theorem State.issueWrite_mem (s : State) (t : WriteTag) (a : Nat) (bs : List Byte) : (s.issueWrite t a bs).mem = s.mem := rfl
@[simp] theorem State.issueWrite_scr (s : State) (t : WriteTag) (a : Nat) (bs : List Byte) : (s.issueWrite t a bs).scr = s.scr := rfl
@[simp] theorem State.issueWrite_vc (s : State) (t : WriteTag) (a : Nat) (bs : List Byte) : (s.issueWrite t a bs).vc = s.vc := rfl
@[simp] theorem State.issueWrite_tlb (s : State) (t : WriteTag) (a : Nat) (bs : List Byte) : (s.issueWrite t a bs).tlb = s.tlb := rfl
@[simp] theorem State.issueWrite_walks (s : State) (t : WriteTag) (a : Nat) (bs : List Byte) : (s.issueWrite t a bs).walks = s.walks := rfl
@[simp] theorem State.issueWrite_l2 (s : State) (t : WriteTag) (a : Nat) (bs : List Byte) : (s.issueWrite t a bs).l2 = s.l2 := rfl
@[simp] theorem State.issueWrite_boot (s : State) (t : WriteTag) (a : Nat) (bs : List Byte) : (s.issueWrite t a bs).boot = s.boot := rfl
@[simp] theorem State.issueWrite_fab (s : State) (t : WriteTag) (a : Nat) (bs : List Byte) : (s.issueWrite t a bs).fab = s.fab := rfl
@[simp] theorem State.issueWrite_faults (s : State) (t : WriteTag) (a : Nat) (bs : List Byte) : (s.issueWrite t a bs).faults = s.faults := rfl
@[simp] theorem State.issueWrite_parcels (s : State) (t : WriteTag) (a : Nat) (bs : List Byte) : (s.issueWrite t a bs).parcels = s.parcels := rfl
@[simp] theorem State.issueWrite_host (s : State) (t : WriteTag) (a : Nat) (bs : List Byte) : (s.issueWrite t a bs).host = s.host := rfl
@[simp] theorem State.issueWrite_chanter (s : State) (t : WriteTag) (a : Nat) (bs : List Byte) : (s.issueWrite t a bs).chanter = s.chanter := rfl
@[simp] theorem State.issueWrite_svc (s : State) (t : WriteTag) (a : Nat) (bs : List Byte) : (s.issueWrite t a bs).svc = s.svc := rfl
@[simp] theorem State.issueWrite_power (s : State) (t : WriteTag) (a : Nat) (bs : List Byte) : (s.issueWrite t a bs).power = s.power := rfl

@[simp] theorem State.putWrite_agenda (s : State) (w : Write) : (s.putWrite w).agenda = s.agenda := rfl
@[simp] theorem State.putWrite_cur (s : State) (w : Write) : (s.putWrite w).cur = s.cur := rfl
@[simp] theorem State.putWrite_input (s : State) (w : Write) : (s.putWrite w).input = s.input := rfl
@[simp] theorem State.putWrite_freeCtr (s : State) (w : Write) : (s.putWrite w).freeCtr = s.freeCtr := rfl
@[simp] theorem State.putWrite_nextId (s : State) (w : Write) : (s.putWrite w).nextId = s.nextId := rfl
@[simp] theorem State.putWrite_nextOrd (s : State) (w : Write) : (s.putWrite w).nextOrd = s.nextOrd := rfl
@[simp] theorem State.putWrite_phase (s : State) (w : Write) : (s.putWrite w).phase = s.phase := rfl
@[simp] theorem State.putWrite_time (s : State) (w : Write) : (s.putWrite w).time = s.time := rfl
@[simp] theorem State.putWrite_hub (s : State) (w : Write) : (s.putWrite w).hub = s.hub := rfl
@[simp] theorem State.putWrite_banks (s : State) (w : Write) : (s.putWrite w).banks = s.banks := rfl
@[simp] theorem State.putWrite_cores (s : State) (w : Write) : (s.putWrite w).cores = s.cores := rfl
@[simp] theorem State.putWrite_mem (s : State) (w : Write) : (s.putWrite w).mem = s.mem := rfl
@[simp] theorem State.putWrite_scr (s : State) (w : Write) : (s.putWrite w).scr = s.scr := rfl
@[simp] theorem State.putWrite_vc (s : State) (w : Write) : (s.putWrite w).vc = s.vc := rfl
@[simp] theorem State.putWrite_tlb (s : State) (w : Write) : (s.putWrite w).tlb = s.tlb := rfl
@[simp] theorem State.putWrite_walks (s : State) (w : Write) : (s.putWrite w).walks = s.walks := rfl
@[simp] theorem State.putWrite_l2 (s : State) (w : Write) : (s.putWrite w).l2 = s.l2 := rfl
@[simp] theorem State.putWrite_boot (s : State) (w : Write) : (s.putWrite w).boot = s.boot := rfl
@[simp] theorem State.putWrite_fab (s : State) (w : Write) : (s.putWrite w).fab = s.fab := rfl
@[simp] theorem State.putWrite_faults (s : State) (w : Write) : (s.putWrite w).faults = s.faults := rfl
@[simp] theorem State.putWrite_parcels (s : State) (w : Write) : (s.putWrite w).parcels = s.parcels := rfl
@[simp] theorem State.putWrite_host (s : State) (w : Write) : (s.putWrite w).host = s.host := rfl
@[simp] theorem State.putWrite_chanter (s : State) (w : Write) : (s.putWrite w).chanter = s.chanter := rfl
@[simp] theorem State.putWrite_svc (s : State) (w : Write) : (s.putWrite w).svc = s.svc := rfl
@[simp] theorem State.putWrite_power (s : State) (w : Write) : (s.putWrite w).power = s.power := rfl

@[simp] theorem State.pokeBytes_agenda (s : State) (a : Nat) (bs : List Byte) : (s.pokeBytes a bs).agenda = s.agenda := rfl
@[simp] theorem State.pokeBytes_cur (s : State) (a : Nat) (bs : List Byte) : (s.pokeBytes a bs).cur = s.cur := rfl
@[simp] theorem State.pokeBytes_input (s : State) (a : Nat) (bs : List Byte) : (s.pokeBytes a bs).input = s.input := rfl
@[simp] theorem State.pokeBytes_freeCtr (s : State) (a : Nat) (bs : List Byte) : (s.pokeBytes a bs).freeCtr = s.freeCtr := rfl
@[simp] theorem State.pokeBytes_nextId (s : State) (a : Nat) (bs : List Byte) : (s.pokeBytes a bs).nextId = s.nextId := rfl
@[simp] theorem State.pokeBytes_nextOrd (s : State) (a : Nat) (bs : List Byte) : (s.pokeBytes a bs).nextOrd = s.nextOrd := rfl
@[simp] theorem State.pokeBytes_phase (s : State) (a : Nat) (bs : List Byte) : (s.pokeBytes a bs).phase = s.phase := rfl
@[simp] theorem State.pokeBytes_time (s : State) (a : Nat) (bs : List Byte) : (s.pokeBytes a bs).time = s.time := rfl
@[simp] theorem State.pokeBytes_hub (s : State) (a : Nat) (bs : List Byte) : (s.pokeBytes a bs).hub = s.hub := rfl
@[simp] theorem State.pokeBytes_banks (s : State) (a : Nat) (bs : List Byte) : (s.pokeBytes a bs).banks = s.banks := rfl
@[simp] theorem State.pokeBytes_cores (s : State) (a : Nat) (bs : List Byte) : (s.pokeBytes a bs).cores = s.cores := rfl
@[simp] theorem State.pokeBytes_scr (s : State) (a : Nat) (bs : List Byte) : (s.pokeBytes a bs).scr = s.scr := rfl
@[simp] theorem State.pokeBytes_writes (s : State) (a : Nat) (bs : List Byte) : (s.pokeBytes a bs).writes = s.writes := rfl
@[simp] theorem State.pokeBytes_vc (s : State) (a : Nat) (bs : List Byte) : (s.pokeBytes a bs).vc = s.vc := rfl
@[simp] theorem State.pokeBytes_tlb (s : State) (a : Nat) (bs : List Byte) : (s.pokeBytes a bs).tlb = s.tlb := rfl
@[simp] theorem State.pokeBytes_walks (s : State) (a : Nat) (bs : List Byte) : (s.pokeBytes a bs).walks = s.walks := rfl
@[simp] theorem State.pokeBytes_l2 (s : State) (a : Nat) (bs : List Byte) : (s.pokeBytes a bs).l2 = s.l2 := rfl
@[simp] theorem State.pokeBytes_boot (s : State) (a : Nat) (bs : List Byte) : (s.pokeBytes a bs).boot = s.boot := rfl
@[simp] theorem State.pokeBytes_fab (s : State) (a : Nat) (bs : List Byte) : (s.pokeBytes a bs).fab = s.fab := rfl
@[simp] theorem State.pokeBytes_faults (s : State) (a : Nat) (bs : List Byte) : (s.pokeBytes a bs).faults = s.faults := rfl
@[simp] theorem State.pokeBytes_parcels (s : State) (a : Nat) (bs : List Byte) : (s.pokeBytes a bs).parcels = s.parcels := rfl
@[simp] theorem State.pokeBytes_host (s : State) (a : Nat) (bs : List Byte) : (s.pokeBytes a bs).host = s.host := rfl
@[simp] theorem State.pokeBytes_chanter (s : State) (a : Nat) (bs : List Byte) : (s.pokeBytes a bs).chanter = s.chanter := rfl
@[simp] theorem State.pokeBytes_svc (s : State) (a : Nat) (bs : List Byte) : (s.pokeBytes a bs).svc = s.svc := rfl
@[simp] theorem State.pokeBytes_power (s : State) (a : Nat) (bs : List Byte) : (s.pokeBytes a bs).power = s.power := rfl

@[simp] theorem State.setInst_agenda (s : State) (key : Nat) (x : Inst) : (s.setInst key x).agenda = s.agenda := rfl
@[simp] theorem State.setInst_cur (s : State) (key : Nat) (x : Inst) : (s.setInst key x).cur = s.cur := rfl
@[simp] theorem State.setInst_input (s : State) (key : Nat) (x : Inst) : (s.setInst key x).input = s.input := rfl
@[simp] theorem State.setInst_freeCtr (s : State) (key : Nat) (x : Inst) : (s.setInst key x).freeCtr = s.freeCtr := rfl
@[simp] theorem State.setInst_nextId (s : State) (key : Nat) (x : Inst) : (s.setInst key x).nextId = s.nextId := rfl
@[simp] theorem State.setInst_nextOrd (s : State) (key : Nat) (x : Inst) : (s.setInst key x).nextOrd = s.nextOrd := rfl
@[simp] theorem State.setInst_phase (s : State) (key : Nat) (x : Inst) : (s.setInst key x).phase = s.phase := rfl
@[simp] theorem State.setInst_time (s : State) (key : Nat) (x : Inst) : (s.setInst key x).time = s.time := rfl
@[simp] theorem State.setInst_hub (s : State) (key : Nat) (x : Inst) : (s.setInst key x).hub = s.hub := rfl
@[simp] theorem State.setInst_banks (s : State) (key : Nat) (x : Inst) : (s.setInst key x).banks = s.banks := rfl
@[simp] theorem State.setInst_cores (s : State) (key : Nat) (x : Inst) : (s.setInst key x).cores = s.cores := rfl
@[simp] theorem State.setInst_mem (s : State) (key : Nat) (x : Inst) : (s.setInst key x).mem = s.mem := rfl
@[simp] theorem State.setInst_scr (s : State) (key : Nat) (x : Inst) : (s.setInst key x).scr = s.scr := rfl
@[simp] theorem State.setInst_writes (s : State) (key : Nat) (x : Inst) : (s.setInst key x).writes = s.writes := rfl
@[simp] theorem State.setInst_vc (s : State) (key : Nat) (x : Inst) : (s.setInst key x).vc = s.vc := rfl
@[simp] theorem State.setInst_tlb (s : State) (key : Nat) (x : Inst) : (s.setInst key x).tlb = s.tlb := rfl
@[simp] theorem State.setInst_walks (s : State) (key : Nat) (x : Inst) : (s.setInst key x).walks = s.walks := rfl
@[simp] theorem State.setInst_l2 (s : State) (key : Nat) (x : Inst) : (s.setInst key x).l2 = s.l2 := rfl
@[simp] theorem State.setInst_boot (s : State) (key : Nat) (x : Inst) : (s.setInst key x).boot = s.boot := rfl
@[simp] theorem State.setInst_fab (s : State) (key : Nat) (x : Inst) : (s.setInst key x).fab = s.fab := rfl
@[simp] theorem State.setInst_faults (s : State) (key : Nat) (x : Inst) : (s.setInst key x).faults = s.faults := rfl
@[simp] theorem State.setInst_parcels (s : State) (key : Nat) (x : Inst) : (s.setInst key x).parcels = s.parcels := rfl
@[simp] theorem State.setInst_host (s : State) (key : Nat) (x : Inst) : (s.setInst key x).host = s.host := rfl
@[simp] theorem State.setInst_chanter (s : State) (key : Nat) (x : Inst) : (s.setInst key x).chanter = s.chanter := rfl
@[simp] theorem State.setInst_power (s : State) (key : Nat) (x : Inst) : (s.setInst key x).power = s.power := rfl

/-! ### Updates of a bank -/

@[simp] theorem Bank.onRegs_status (B : Bank) (f : Regs → Regs) : (B.onRegs f).status = B.status := rfl
@[simp] theorem Bank.onRegs_place (B : Bank) (f : Regs → Regs) : (B.onRegs f).place = B.place := rfl
@[simp] theorem Bank.onRegs_text (B : Bank) (f : Regs → Regs) : (B.onRegs f).text = B.text := rfl
@[simp] theorem Bank.onRegs_words (B : Bank) (f : Regs → Regs) : (B.onRegs f).words = B.words := rfl
@[simp] theorem Bank.onRegs_wc (B : Bank) (f : Regs → Regs) : (B.onRegs f).wc = B.wc := rfl
@[simp] theorem Bank.onRegs_wv (B : Bank) (f : Regs → Regs) : (B.onRegs f).wv = B.wv := rfl
@[simp] theorem Bank.onRegs_wm (B : Bank) (f : Regs → Regs) : (B.onRegs f).wm = B.wm := rfl
@[simp] theorem Bank.onRegs_wx (B : Bank) (f : Regs → Regs) : (B.onRegs f).wx = B.wx := rfl
@[simp] theorem Bank.onRegs_again (B : Bank) (f : Regs → Regs) : (B.onRegs f).again = B.again := rfl
@[simp] theorem Bank.onRegs_q (B : Bank) (f : Regs → Regs) : (B.onRegs f).q = B.q := rfl
@[simp] theorem Bank.onRegs_csr (B : Bank) (f : Regs → Regs) : (B.onRegs f).csr = B.csr := rfl
@[simp] theorem Bank.onRegs_mat (B : Bank) (f : Regs → Regs) : (B.onRegs f).mat = B.mat := rfl
@[simp] theorem Bank.onRegs_xfer (B : Bank) (f : Regs → Regs) : (B.onRegs f).xfer = B.xfer := rfl
@[simp] theorem Bank.onRegs_vec (B : Bank) (f : Regs → Regs) : (B.onRegs f).vec = B.vec := rfl
@[simp] theorem Bank.onRegs_out (B : Bank) (f : Regs → Regs) : (B.onRegs f).out = B.out := rfl
@[simp] theorem Bank.onRegs_trap (B : Bank) (f : Regs → Regs) : (B.onRegs f).trap = B.trap := rfl
@[simp] theorem Bank.onRegs_n (B : Bank) (f : Regs → Regs) : (B.onRegs f).n = B.n := rfl
@[simp] theorem Bank.onRegs_now (B : Bank) (f : Regs → Regs) : (B.onRegs f).now = B.now := rfl
@[simp] theorem Bank.onRegs_cnt (B : Bank) (f : Regs → Regs) : (B.onRegs f).cnt = B.cnt := rfl

@[simp] theorem Bank.csrPut_status (B : Bank) (n : Nat) (x : Word) : (B.csrPut n x).status = B.status := rfl
@[simp] theorem Bank.csrPut_place (B : Bank) (n : Nat) (x : Word) : (B.csrPut n x).place = B.place := rfl
@[simp] theorem Bank.csrPut_text (B : Bank) (n : Nat) (x : Word) : (B.csrPut n x).text = B.text := rfl
@[simp] theorem Bank.csrPut_words (B : Bank) (n : Nat) (x : Word) : (B.csrPut n x).words = B.words := rfl
@[simp] theorem Bank.csrPut_wc (B : Bank) (n : Nat) (x : Word) : (B.csrPut n x).wc = B.wc := rfl
@[simp] theorem Bank.csrPut_wv (B : Bank) (n : Nat) (x : Word) : (B.csrPut n x).wv = B.wv := rfl
@[simp] theorem Bank.csrPut_wm (B : Bank) (n : Nat) (x : Word) : (B.csrPut n x).wm = B.wm := rfl
@[simp] theorem Bank.csrPut_wx (B : Bank) (n : Nat) (x : Word) : (B.csrPut n x).wx = B.wx := rfl
@[simp] theorem Bank.csrPut_again (B : Bank) (n : Nat) (x : Word) : (B.csrPut n x).again = B.again := rfl
@[simp] theorem Bank.csrPut_r (B : Bank) (n : Nat) (x : Word) : (B.csrPut n x).r = B.r := rfl
@[simp] theorem Bank.csrPut_q (B : Bank) (n : Nat) (x : Word) : (B.csrPut n x).q = B.q := rfl
@[simp] theorem Bank.csrPut_mat (B : Bank) (n : Nat) (x : Word) : (B.csrPut n x).mat = B.mat := rfl
@[simp] theorem Bank.csrPut_xfer (B : Bank) (n : Nat) (x : Word) : (B.csrPut n x).xfer = B.xfer := rfl
@[simp] theorem Bank.csrPut_vec (B : Bank) (n : Nat) (x : Word) : (B.csrPut n x).vec = B.vec := rfl
@[simp] theorem Bank.csrPut_out (B : Bank) (n : Nat) (x : Word) : (B.csrPut n x).out = B.out := rfl
@[simp] theorem Bank.csrPut_trap (B : Bank) (n : Nat) (x : Word) : (B.csrPut n x).trap = B.trap := rfl
@[simp] theorem Bank.csrPut_n (B : Bank) (n : Nat) (x : Word) : (B.csrPut n x).n = B.n := rfl
@[simp] theorem Bank.csrPut_now (B : Bank) (n : Nat) (x : Word) : (B.csrPut n x).now = B.now := rfl
@[simp] theorem Bank.csrPut_cnt (B : Bank) (n : Nat) (x : Word) : (B.csrPut n x).cnt = B.cnt := rfl

@[simp] theorem Bank.raisePrecise_status (B : Bank) (e : Strand) (c : Nat) (x : Word) : (B.raisePrecise e c x).status = B.status := rfl
@[simp] theorem Bank.raisePrecise_place (B : Bank) (e : Strand) (c : Nat) (x : Word) : (B.raisePrecise e c x).place = B.place := rfl
@[simp] theorem Bank.raisePrecise_text (B : Bank) (e : Strand) (c : Nat) (x : Word) : (B.raisePrecise e c x).text = B.text := rfl
@[simp] theorem Bank.raisePrecise_words (B : Bank) (e : Strand) (c : Nat) (x : Word) : (B.raisePrecise e c x).words = B.words := rfl
@[simp] theorem Bank.raisePrecise_wc (B : Bank) (e : Strand) (c : Nat) (x : Word) : (B.raisePrecise e c x).wc = B.wc := rfl
@[simp] theorem Bank.raisePrecise_wv (B : Bank) (e : Strand) (c : Nat) (x : Word) : (B.raisePrecise e c x).wv = B.wv := rfl
@[simp] theorem Bank.raisePrecise_wm (B : Bank) (e : Strand) (c : Nat) (x : Word) : (B.raisePrecise e c x).wm = B.wm := rfl
@[simp] theorem Bank.raisePrecise_wx (B : Bank) (e : Strand) (c : Nat) (x : Word) : (B.raisePrecise e c x).wx = B.wx := rfl
@[simp] theorem Bank.raisePrecise_again (B : Bank) (e : Strand) (c : Nat) (x : Word) : (B.raisePrecise e c x).again = B.again := rfl
@[simp] theorem Bank.raisePrecise_r (B : Bank) (e : Strand) (c : Nat) (x : Word) : (B.raisePrecise e c x).r = B.r := rfl
@[simp] theorem Bank.raisePrecise_q (B : Bank) (e : Strand) (c : Nat) (x : Word) : (B.raisePrecise e c x).q = B.q := rfl
@[simp] theorem Bank.raisePrecise_csr (B : Bank) (e : Strand) (c : Nat) (x : Word) : (B.raisePrecise e c x).csr = B.csr := rfl
@[simp] theorem Bank.raisePrecise_mat (B : Bank) (e : Strand) (c : Nat) (x : Word) : (B.raisePrecise e c x).mat = B.mat := rfl
@[simp] theorem Bank.raisePrecise_xfer (B : Bank) (e : Strand) (c : Nat) (x : Word) : (B.raisePrecise e c x).xfer = B.xfer := rfl
@[simp] theorem Bank.raisePrecise_vec (B : Bank) (e : Strand) (c : Nat) (x : Word) : (B.raisePrecise e c x).vec = B.vec := rfl
@[simp] theorem Bank.raisePrecise_out (B : Bank) (e : Strand) (c : Nat) (x : Word) : (B.raisePrecise e c x).out = B.out := rfl
@[simp] theorem Bank.raisePrecise_n (B : Bank) (e : Strand) (c : Nat) (x : Word) : (B.raisePrecise e c x).n = B.n := rfl
@[simp] theorem Bank.raisePrecise_now (B : Bank) (e : Strand) (c : Nat) (x : Word) : (B.raisePrecise e c x).now = B.now := rfl
@[simp] theorem Bank.raisePrecise_cnt (B : Bank) (e : Strand) (c : Nat) (x : Word) : (B.raisePrecise e c x).cnt = B.cnt := rfl

@[simp] theorem Bank.raiseDeferred_status (B : Bank) (c : Nat) (x : Word) : (B.raiseDeferred c x).status = B.status := rfl
@[simp] theorem Bank.raiseDeferred_place (B : Bank) (c : Nat) (x : Word) : (B.raiseDeferred c x).place = B.place := rfl
@[simp] theorem Bank.raiseDeferred_text (B : Bank) (c : Nat) (x : Word) : (B.raiseDeferred c x).text = B.text := rfl
@[simp] theorem Bank.raiseDeferred_words (B : Bank) (c : Nat) (x : Word) : (B.raiseDeferred c x).words = B.words := rfl
@[simp] theorem Bank.raiseDeferred_wc (B : Bank) (c : Nat) (x : Word) : (B.raiseDeferred c x).wc = B.wc := rfl
@[simp] theorem Bank.raiseDeferred_wv (B : Bank) (c : Nat) (x : Word) : (B.raiseDeferred c x).wv = B.wv := rfl
@[simp] theorem Bank.raiseDeferred_wm (B : Bank) (c : Nat) (x : Word) : (B.raiseDeferred c x).wm = B.wm := rfl
@[simp] theorem Bank.raiseDeferred_wx (B : Bank) (c : Nat) (x : Word) : (B.raiseDeferred c x).wx = B.wx := rfl
@[simp] theorem Bank.raiseDeferred_again (B : Bank) (c : Nat) (x : Word) : (B.raiseDeferred c x).again = B.again := rfl
@[simp] theorem Bank.raiseDeferred_r (B : Bank) (c : Nat) (x : Word) : (B.raiseDeferred c x).r = B.r := rfl
@[simp] theorem Bank.raiseDeferred_q (B : Bank) (c : Nat) (x : Word) : (B.raiseDeferred c x).q = B.q := rfl
@[simp] theorem Bank.raiseDeferred_csr (B : Bank) (c : Nat) (x : Word) : (B.raiseDeferred c x).csr = B.csr := rfl
@[simp] theorem Bank.raiseDeferred_mat (B : Bank) (c : Nat) (x : Word) : (B.raiseDeferred c x).mat = B.mat := rfl
@[simp] theorem Bank.raiseDeferred_xfer (B : Bank) (c : Nat) (x : Word) : (B.raiseDeferred c x).xfer = B.xfer := rfl
@[simp] theorem Bank.raiseDeferred_vec (B : Bank) (c : Nat) (x : Word) : (B.raiseDeferred c x).vec = B.vec := rfl
@[simp] theorem Bank.raiseDeferred_out (B : Bank) (c : Nat) (x : Word) : (B.raiseDeferred c x).out = B.out := rfl
@[simp] theorem Bank.raiseDeferred_n (B : Bank) (c : Nat) (x : Word) : (B.raiseDeferred c x).n = B.n := rfl
@[simp] theorem Bank.raiseDeferred_now (B : Bank) (c : Nat) (x : Word) : (B.raiseDeferred c x).now = B.now := rfl
@[simp] theorem Bank.raiseDeferred_cnt (B : Bank) (c : Nat) (x : Word) : (B.raiseDeferred c x).cnt = B.cnt := rfl

@[simp] theorem Bank.onOut_status (B : Bank) (f : Outstanding → Outstanding) : (B.onOut f).status = B.status := rfl
@[simp] theorem Bank.onOut_place (B : Bank) (f : Outstanding → Outstanding) : (B.onOut f).place = B.place := rfl
@[simp] theorem Bank.onOut_text (B : Bank) (f : Outstanding → Outstanding) : (B.onOut f).text = B.text := rfl
@[simp] theorem Bank.onOut_words (B : Bank) (f : Outstanding → Outstanding) : (B.onOut f).words = B.words := rfl
@[simp] theorem Bank.onOut_wc (B : Bank) (f : Outstanding → Outstanding) : (B.onOut f).wc = B.wc := rfl
@[simp] theorem Bank.onOut_wv (B : Bank) (f : Outstanding → Outstanding) : (B.onOut f).wv = B.wv := rfl
@[simp] theorem Bank.onOut_wm (B : Bank) (f : Outstanding → Outstanding) : (B.onOut f).wm = B.wm := rfl
@[simp] theorem Bank.onOut_wx (B : Bank) (f : Outstanding → Outstanding) : (B.onOut f).wx = B.wx := rfl
@[simp] theorem Bank.onOut_again (B : Bank) (f : Outstanding → Outstanding) : (B.onOut f).again = B.again := rfl
@[simp] theorem Bank.onOut_r (B : Bank) (f : Outstanding → Outstanding) : (B.onOut f).r = B.r := rfl
@[simp] theorem Bank.onOut_q (B : Bank) (f : Outstanding → Outstanding) : (B.onOut f).q = B.q := rfl
@[simp] theorem Bank.onOut_csr (B : Bank) (f : Outstanding → Outstanding) : (B.onOut f).csr = B.csr := rfl
@[simp] theorem Bank.onOut_mat (B : Bank) (f : Outstanding → Outstanding) : (B.onOut f).mat = B.mat := rfl
@[simp] theorem Bank.onOut_xfer (B : Bank) (f : Outstanding → Outstanding) : (B.onOut f).xfer = B.xfer := rfl
@[simp] theorem Bank.onOut_vec (B : Bank) (f : Outstanding → Outstanding) : (B.onOut f).vec = B.vec := rfl
@[simp] theorem Bank.onOut_trap (B : Bank) (f : Outstanding → Outstanding) : (B.onOut f).trap = B.trap := rfl
@[simp] theorem Bank.onOut_n (B : Bank) (f : Outstanding → Outstanding) : (B.onOut f).n = B.n := rfl
@[simp] theorem Bank.onOut_now (B : Bank) (f : Outstanding → Outstanding) : (B.onOut f).now = B.now := rfl
@[simp] theorem Bank.onOut_cnt (B : Bank) (f : Outstanding → Outstanding) : (B.onOut f).cnt = B.cnt := rfl

@[simp] theorem Bank.onTrap_status (B : Bank) (f : TrapState → TrapState) : (B.onTrap f).status = B.status := rfl
@[simp] theorem Bank.onTrap_place (B : Bank) (f : TrapState → TrapState) : (B.onTrap f).place = B.place := rfl
@[simp] theorem Bank.onTrap_text (B : Bank) (f : TrapState → TrapState) : (B.onTrap f).text = B.text := rfl
@[simp] theorem Bank.onTrap_words (B : Bank) (f : TrapState → TrapState) : (B.onTrap f).words = B.words := rfl
@[simp] theorem Bank.onTrap_wc (B : Bank) (f : TrapState → TrapState) : (B.onTrap f).wc = B.wc := rfl
@[simp] theorem Bank.onTrap_wv (B : Bank) (f : TrapState → TrapState) : (B.onTrap f).wv = B.wv := rfl
@[simp] theorem Bank.onTrap_wm (B : Bank) (f : TrapState → TrapState) : (B.onTrap f).wm = B.wm := rfl
@[simp] theorem Bank.onTrap_wx (B : Bank) (f : TrapState → TrapState) : (B.onTrap f).wx = B.wx := rfl
@[simp] theorem Bank.onTrap_again (B : Bank) (f : TrapState → TrapState) : (B.onTrap f).again = B.again := rfl
@[simp] theorem Bank.onTrap_r (B : Bank) (f : TrapState → TrapState) : (B.onTrap f).r = B.r := rfl
@[simp] theorem Bank.onTrap_q (B : Bank) (f : TrapState → TrapState) : (B.onTrap f).q = B.q := rfl
@[simp] theorem Bank.onTrap_csr (B : Bank) (f : TrapState → TrapState) : (B.onTrap f).csr = B.csr := rfl
@[simp] theorem Bank.onTrap_mat (B : Bank) (f : TrapState → TrapState) : (B.onTrap f).mat = B.mat := rfl
@[simp] theorem Bank.onTrap_xfer (B : Bank) (f : TrapState → TrapState) : (B.onTrap f).xfer = B.xfer := rfl
@[simp] theorem Bank.onTrap_vec (B : Bank) (f : TrapState → TrapState) : (B.onTrap f).vec = B.vec := rfl
@[simp] theorem Bank.onTrap_out (B : Bank) (f : TrapState → TrapState) : (B.onTrap f).out = B.out := rfl
@[simp] theorem Bank.onTrap_n (B : Bank) (f : TrapState → TrapState) : (B.onTrap f).n = B.n := rfl
@[simp] theorem Bank.onTrap_now (B : Bank) (f : TrapState → TrapState) : (B.onTrap f).now = B.now := rfl
@[simp] theorem Bank.onTrap_cnt (B : Bank) (f : TrapState → TrapState) : (B.onTrap f).cnt = B.cnt := rfl

@[simp] theorem Bank.onNow_status (B : Bank) (f : AcNow → AcNow) : (B.onNow f).status = B.status := rfl
@[simp] theorem Bank.onNow_place (B : Bank) (f : AcNow → AcNow) : (B.onNow f).place = B.place := rfl
@[simp] theorem Bank.onNow_text (B : Bank) (f : AcNow → AcNow) : (B.onNow f).text = B.text := rfl
@[simp] theorem Bank.onNow_words (B : Bank) (f : AcNow → AcNow) : (B.onNow f).words = B.words := rfl
@[simp] theorem Bank.onNow_wc (B : Bank) (f : AcNow → AcNow) : (B.onNow f).wc = B.wc := rfl
@[simp] theorem Bank.onNow_wv (B : Bank) (f : AcNow → AcNow) : (B.onNow f).wv = B.wv := rfl
@[simp] theorem Bank.onNow_wm (B : Bank) (f : AcNow → AcNow) : (B.onNow f).wm = B.wm := rfl
@[simp] theorem Bank.onNow_wx (B : Bank) (f : AcNow → AcNow) : (B.onNow f).wx = B.wx := rfl
@[simp] theorem Bank.onNow_again (B : Bank) (f : AcNow → AcNow) : (B.onNow f).again = B.again := rfl
@[simp] theorem Bank.onNow_r (B : Bank) (f : AcNow → AcNow) : (B.onNow f).r = B.r := rfl
@[simp] theorem Bank.onNow_q (B : Bank) (f : AcNow → AcNow) : (B.onNow f).q = B.q := rfl
@[simp] theorem Bank.onNow_csr (B : Bank) (f : AcNow → AcNow) : (B.onNow f).csr = B.csr := rfl
@[simp] theorem Bank.onNow_mat (B : Bank) (f : AcNow → AcNow) : (B.onNow f).mat = B.mat := rfl
@[simp] theorem Bank.onNow_xfer (B : Bank) (f : AcNow → AcNow) : (B.onNow f).xfer = B.xfer := rfl
@[simp] theorem Bank.onNow_vec (B : Bank) (f : AcNow → AcNow) : (B.onNow f).vec = B.vec := rfl
@[simp] theorem Bank.onNow_out (B : Bank) (f : AcNow → AcNow) : (B.onNow f).out = B.out := rfl
@[simp] theorem Bank.onNow_trap (B : Bank) (f : AcNow → AcNow) : (B.onNow f).trap = B.trap := rfl
@[simp] theorem Bank.onNow_n (B : Bank) (f : AcNow → AcNow) : (B.onNow f).n = B.n := rfl
@[simp] theorem Bank.onNow_cnt (B : Bank) (f : AcNow → AcNow) : (B.onNow f).cnt = B.cnt := rfl

@[simp] theorem Bank.beginNow_status (B : Bank) (e : Strand) : (B.beginNow e).status = B.status := rfl
@[simp] theorem Bank.beginNow_place (B : Bank) (e : Strand) : (B.beginNow e).place = B.place := rfl
@[simp] theorem Bank.beginNow_text (B : Bank) (e : Strand) : (B.beginNow e).text = B.text := rfl
@[simp] theorem Bank.beginNow_words (B : Bank) (e : Strand) : (B.beginNow e).words = B.words := rfl
@[simp] theorem Bank.beginNow_wc (B : Bank) (e : Strand) : (B.beginNow e).wc = B.wc := rfl
@[simp] theorem Bank.beginNow_wv (B : Bank) (e : Strand) : (B.beginNow e).wv = B.wv := rfl
@[simp] theorem Bank.beginNow_wm (B : Bank) (e : Strand) : (B.beginNow e).wm = B.wm := rfl
@[simp] theorem Bank.beginNow_wx (B : Bank) (e : Strand) : (B.beginNow e).wx = B.wx := rfl
@[simp] theorem Bank.beginNow_again (B : Bank) (e : Strand) : (B.beginNow e).again = B.again := rfl
@[simp] theorem Bank.beginNow_r (B : Bank) (e : Strand) : (B.beginNow e).r = B.r := rfl
@[simp] theorem Bank.beginNow_q (B : Bank) (e : Strand) : (B.beginNow e).q = B.q := rfl
@[simp] theorem Bank.beginNow_csr (B : Bank) (e : Strand) : (B.beginNow e).csr = B.csr := rfl
@[simp] theorem Bank.beginNow_mat (B : Bank) (e : Strand) : (B.beginNow e).mat = B.mat := rfl
@[simp] theorem Bank.beginNow_xfer (B : Bank) (e : Strand) : (B.beginNow e).xfer = B.xfer := rfl
@[simp] theorem Bank.beginNow_vec (B : Bank) (e : Strand) : (B.beginNow e).vec = B.vec := rfl
@[simp] theorem Bank.beginNow_out (B : Bank) (e : Strand) : (B.beginNow e).out = B.out := rfl
@[simp] theorem Bank.beginNow_trap (B : Bank) (e : Strand) : (B.beginNow e).trap = B.trap := rfl
@[simp] theorem Bank.beginNow_n (B : Bank) (e : Strand) : (B.beginNow e).n = B.n := rfl
@[simp] theorem Bank.beginNow_cnt (B : Bank) (e : Strand) : (B.beginNow e).cnt = B.cnt := rfl

@[simp] theorem Bank.pushPath_status (B : Bank) (i : Nat) : (B.pushPath i).status = B.status := rfl
@[simp] theorem Bank.pushPath_place (B : Bank) (i : Nat) : (B.pushPath i).place = B.place := rfl
@[simp] theorem Bank.pushPath_text (B : Bank) (i : Nat) : (B.pushPath i).text = B.text := rfl
@[simp] theorem Bank.pushPath_words (B : Bank) (i : Nat) : (B.pushPath i).words = B.words := rfl
@[simp] theorem Bank.pushPath_wc (B : Bank) (i : Nat) : (B.pushPath i).wc = B.wc := rfl
@[simp] theorem Bank.pushPath_again (B : Bank) (i : Nat) : (B.pushPath i).again = B.again := rfl
@[simp] theorem Bank.pushPath_r (B : Bank) (i : Nat) : (B.pushPath i).r = B.r := rfl
@[simp] theorem Bank.pushPath_q (B : Bank) (i : Nat) : (B.pushPath i).q = B.q := rfl
@[simp] theorem Bank.pushPath_csr (B : Bank) (i : Nat) : (B.pushPath i).csr = B.csr := rfl
@[simp] theorem Bank.pushPath_mat (B : Bank) (i : Nat) : (B.pushPath i).mat = B.mat := rfl
@[simp] theorem Bank.pushPath_xfer (B : Bank) (i : Nat) : (B.pushPath i).xfer = B.xfer := rfl
@[simp] theorem Bank.pushPath_vec (B : Bank) (i : Nat) : (B.pushPath i).vec = B.vec := rfl
@[simp] theorem Bank.pushPath_out (B : Bank) (i : Nat) : (B.pushPath i).out = B.out := rfl
@[simp] theorem Bank.pushPath_trap (B : Bank) (i : Nat) : (B.pushPath i).trap = B.trap := rfl
@[simp] theorem Bank.pushPath_n (B : Bank) (i : Nat) : (B.pushPath i).n = B.n := rfl
@[simp] theorem Bank.pushPath_cnt (B : Bank) (i : Nat) : (B.pushPath i).cnt = B.cnt := rfl

@[simp] theorem Bank.moved_status (B : Bank) : (B.moved).status = B.status := rfl
@[simp] theorem Bank.moved_place (B : Bank) : (B.moved).place = B.place := rfl
@[simp] theorem Bank.moved_text (B : Bank) : (B.moved).text = B.text := rfl
@[simp] theorem Bank.moved_words (B : Bank) : (B.moved).words = B.words := rfl
@[simp] theorem Bank.moved_again (B : Bank) : (B.moved).again = B.again := rfl
@[simp] theorem Bank.moved_r (B : Bank) : (B.moved).r = B.r := rfl
@[simp] theorem Bank.moved_q (B : Bank) : (B.moved).q = B.q := rfl
@[simp] theorem Bank.moved_csr (B : Bank) : (B.moved).csr = B.csr := rfl
@[simp] theorem Bank.moved_mat (B : Bank) : (B.moved).mat = B.mat := rfl
@[simp] theorem Bank.moved_xfer (B : Bank) : (B.moved).xfer = B.xfer := rfl
@[simp] theorem Bank.moved_vec (B : Bank) : (B.moved).vec = B.vec := rfl
@[simp] theorem Bank.moved_out (B : Bank) : (B.moved).out = B.out := rfl
@[simp] theorem Bank.moved_trap (B : Bank) : (B.moved).trap = B.trap := rfl
@[simp] theorem Bank.moved_n (B : Bank) : (B.moved).n = B.n := rfl
@[simp] theorem Bank.moved_now (B : Bank) : (B.moved).now = B.now := rfl
@[simp] theorem Bank.moved_cnt (B : Bank) : (B.moved).cnt = B.cnt := rfl

@[simp] theorem Bank.setWalker_status (B : Bank) (e : Strand) (w : Walker) : (B.setWalker e w).status = B.status := by cases e <;> rfl
@[simp] theorem Bank.setWalker_place (B : Bank) (e : Strand) (w : Walker) : (B.setWalker e w).place = B.place := by cases e <;> rfl
@[simp] theorem Bank.setWalker_text (B : Bank) (e : Strand) (w : Walker) : (B.setWalker e w).text = B.text := by cases e <;> rfl
@[simp] theorem Bank.setWalker_words (B : Bank) (e : Strand) (w : Walker) : (B.setWalker e w).words = B.words := by cases e <;> rfl
@[simp] theorem Bank.setWalker_again (B : Bank) (e : Strand) (w : Walker) : (B.setWalker e w).again = B.again := by cases e <;> rfl
@[simp] theorem Bank.setWalker_r (B : Bank) (e : Strand) (w : Walker) : (B.setWalker e w).r = B.r := by cases e <;> rfl
@[simp] theorem Bank.setWalker_q (B : Bank) (e : Strand) (w : Walker) : (B.setWalker e w).q = B.q := by cases e <;> rfl
@[simp] theorem Bank.setWalker_csr (B : Bank) (e : Strand) (w : Walker) : (B.setWalker e w).csr = B.csr := by cases e <;> rfl
@[simp] theorem Bank.setWalker_mat (B : Bank) (e : Strand) (w : Walker) : (B.setWalker e w).mat = B.mat := by cases e <;> rfl
@[simp] theorem Bank.setWalker_xfer (B : Bank) (e : Strand) (w : Walker) : (B.setWalker e w).xfer = B.xfer := by cases e <;> rfl
@[simp] theorem Bank.setWalker_vec (B : Bank) (e : Strand) (w : Walker) : (B.setWalker e w).vec = B.vec := by cases e <;> rfl
@[simp] theorem Bank.setWalker_out (B : Bank) (e : Strand) (w : Walker) : (B.setWalker e w).out = B.out := by cases e <;> rfl
@[simp] theorem Bank.setWalker_trap (B : Bank) (e : Strand) (w : Walker) : (B.setWalker e w).trap = B.trap := by cases e <;> rfl
@[simp] theorem Bank.setWalker_n (B : Bank) (e : Strand) (w : Walker) : (B.setWalker e w).n = B.n := by cases e <;> rfl
@[simp] theorem Bank.setWalker_now (B : Bank) (e : Strand) (w : Walker) : (B.setWalker e w).now = B.now := by cases e <;> rfl
@[simp] theorem Bank.setWalker_cnt (B : Bank) (e : Strand) (w : Walker) : (B.setWalker e w).cnt = B.cnt := by cases e <;> rfl

@[simp] theorem Bank.passTo_status (B : Bank) (e : Strand) (t : Nat) : (B.passTo e t).status = B.status := by cases e <;> rfl
@[simp] theorem Bank.passTo_place (B : Bank) (e : Strand) (t : Nat) : (B.passTo e t).place = B.place := by cases e <;> rfl
@[simp] theorem Bank.passTo_text (B : Bank) (e : Strand) (t : Nat) : (B.passTo e t).text = B.text := by cases e <;> rfl
@[simp] theorem Bank.passTo_words (B : Bank) (e : Strand) (t : Nat) : (B.passTo e t).words = B.words := by cases e <;> rfl
@[simp] theorem Bank.passTo_again (B : Bank) (e : Strand) (t : Nat) : (B.passTo e t).again = B.again := by cases e <;> rfl
@[simp] theorem Bank.passTo_r (B : Bank) (e : Strand) (t : Nat) : (B.passTo e t).r = B.r := by cases e <;> rfl
@[simp] theorem Bank.passTo_q (B : Bank) (e : Strand) (t : Nat) : (B.passTo e t).q = B.q := by cases e <;> rfl
@[simp] theorem Bank.passTo_csr (B : Bank) (e : Strand) (t : Nat) : (B.passTo e t).csr = B.csr := by cases e <;> rfl
@[simp] theorem Bank.passTo_mat (B : Bank) (e : Strand) (t : Nat) : (B.passTo e t).mat = B.mat := by cases e <;> rfl
@[simp] theorem Bank.passTo_xfer (B : Bank) (e : Strand) (t : Nat) : (B.passTo e t).xfer = B.xfer := by cases e <;> rfl
@[simp] theorem Bank.passTo_vec (B : Bank) (e : Strand) (t : Nat) : (B.passTo e t).vec = B.vec := by cases e <;> rfl
@[simp] theorem Bank.passTo_out (B : Bank) (e : Strand) (t : Nat) : (B.passTo e t).out = B.out := by cases e <;> rfl
@[simp] theorem Bank.passTo_trap (B : Bank) (e : Strand) (t : Nat) : (B.passTo e t).trap = B.trap := by cases e <;> rfl
@[simp] theorem Bank.passTo_cnt (B : Bank) (e : Strand) (t : Nat) : (B.passTo e t).cnt = B.cnt := by cases e <;> rfl

@[simp] theorem Bank.glideTo_status (B : Bank) (e : Strand) (t : Nat) : (B.glideTo e t).status = B.status := by cases e <;> rfl
@[simp] theorem Bank.glideTo_place (B : Bank) (e : Strand) (t : Nat) : (B.glideTo e t).place = B.place := by cases e <;> rfl
@[simp] theorem Bank.glideTo_text (B : Bank) (e : Strand) (t : Nat) : (B.glideTo e t).text = B.text := by cases e <;> rfl
@[simp] theorem Bank.glideTo_words (B : Bank) (e : Strand) (t : Nat) : (B.glideTo e t).words = B.words := by cases e <;> rfl
@[simp] theorem Bank.glideTo_again (B : Bank) (e : Strand) (t : Nat) : (B.glideTo e t).again = B.again := by cases e <;> rfl
@[simp] theorem Bank.glideTo_r (B : Bank) (e : Strand) (t : Nat) : (B.glideTo e t).r = B.r := by cases e <;> rfl
@[simp] theorem Bank.glideTo_q (B : Bank) (e : Strand) (t : Nat) : (B.glideTo e t).q = B.q := by cases e <;> rfl
@[simp] theorem Bank.glideTo_csr (B : Bank) (e : Strand) (t : Nat) : (B.glideTo e t).csr = B.csr := by cases e <;> rfl
@[simp] theorem Bank.glideTo_mat (B : Bank) (e : Strand) (t : Nat) : (B.glideTo e t).mat = B.mat := by cases e <;> rfl
@[simp] theorem Bank.glideTo_xfer (B : Bank) (e : Strand) (t : Nat) : (B.glideTo e t).xfer = B.xfer := by cases e <;> rfl
@[simp] theorem Bank.glideTo_vec (B : Bank) (e : Strand) (t : Nat) : (B.glideTo e t).vec = B.vec := by cases e <;> rfl
@[simp] theorem Bank.glideTo_out (B : Bank) (e : Strand) (t : Nat) : (B.glideTo e t).out = B.out := by cases e <;> rfl
@[simp] theorem Bank.glideTo_trap (B : Bank) (e : Strand) (t : Nat) : (B.glideTo e t).trap = B.trap := by cases e <;> rfl
@[simp] theorem Bank.glideTo_now (B : Bank) (e : Strand) (t : Nat) : (B.glideTo e t).now = B.now.pass := by cases e <;> rfl
@[simp] theorem Bank.glideTo_cnt (B : Bank) (e : Strand) (t : Nat) : (B.glideTo e t).cnt = B.cnt := by cases e <;> rfl

@[simp] theorem Bank.glide_status (B : Bank) (e : Strand) : (B.glide e).status = B.status := by cases e <;> rfl
@[simp] theorem Bank.glide_place (B : Bank) (e : Strand) : (B.glide e).place = B.place := by cases e <;> rfl
@[simp] theorem Bank.glide_text (B : Bank) (e : Strand) : (B.glide e).text = B.text := by cases e <;> rfl
@[simp] theorem Bank.glide_words (B : Bank) (e : Strand) : (B.glide e).words = B.words := by cases e <;> rfl
@[simp] theorem Bank.glide_again (B : Bank) (e : Strand) : (B.glide e).again = B.again := by cases e <;> rfl
@[simp] theorem Bank.glide_r (B : Bank) (e : Strand) : (B.glide e).r = B.r := by cases e <;> rfl
@[simp] theorem Bank.glide_q (B : Bank) (e : Strand) : (B.glide e).q = B.q := by cases e <;> rfl
@[simp] theorem Bank.glide_csr (B : Bank) (e : Strand) : (B.glide e).csr = B.csr := by cases e <;> rfl
@[simp] theorem Bank.glide_mat (B : Bank) (e : Strand) : (B.glide e).mat = B.mat := by cases e <;> rfl
@[simp] theorem Bank.glide_xfer (B : Bank) (e : Strand) : (B.glide e).xfer = B.xfer := by cases e <;> rfl
@[simp] theorem Bank.glide_vec (B : Bank) (e : Strand) : (B.glide e).vec = B.vec := by cases e <;> rfl
@[simp] theorem Bank.glide_out (B : Bank) (e : Strand) : (B.glide e).out = B.out := by cases e <;> rfl
@[simp] theorem Bank.glide_trap (B : Bank) (e : Strand) : (B.glide e).trap = B.trap := by cases e <;> rfl
@[simp] theorem Bank.glide_now (B : Bank) (e : Strand) : (B.glide e).now = B.now.pass := by cases e <;> rfl
@[simp] theorem Bank.glide_cnt (B : Bank) (e : Strand) : (B.glide e).cnt = B.cnt := by cases e <;> rfl

@[simp] theorem Bank.pass_status (B : Bank) (e : Strand) : (B.pass e).status = B.status := by cases e <;> rfl
@[simp] theorem Bank.pass_place (B : Bank) (e : Strand) : (B.pass e).place = B.place := by cases e <;> rfl
@[simp] theorem Bank.pass_text (B : Bank) (e : Strand) : (B.pass e).text = B.text := by cases e <;> rfl
@[simp] theorem Bank.pass_words (B : Bank) (e : Strand) : (B.pass e).words = B.words := by cases e <;> rfl
@[simp] theorem Bank.pass_again (B : Bank) (e : Strand) : (B.pass e).again = B.again := by cases e <;> rfl
@[simp] theorem Bank.pass_r (B : Bank) (e : Strand) : (B.pass e).r = B.r := by cases e <;> rfl
@[simp] theorem Bank.pass_q (B : Bank) (e : Strand) : (B.pass e).q = B.q := by cases e <;> rfl
@[simp] theorem Bank.pass_csr (B : Bank) (e : Strand) : (B.pass e).csr = B.csr := by cases e <;> rfl
@[simp] theorem Bank.pass_mat (B : Bank) (e : Strand) : (B.pass e).mat = B.mat := by cases e <;> rfl
@[simp] theorem Bank.pass_xfer (B : Bank) (e : Strand) : (B.pass e).xfer = B.xfer := by cases e <;> rfl
@[simp] theorem Bank.pass_vec (B : Bank) (e : Strand) : (B.pass e).vec = B.vec := by cases e <;> rfl
@[simp] theorem Bank.pass_out (B : Bank) (e : Strand) : (B.pass e).out = B.out := by cases e <;> rfl
@[simp] theorem Bank.pass_trap (B : Bank) (e : Strand) : (B.pass e).trap = B.trap := by cases e <;> rfl
@[simp] theorem Bank.pass_cnt (B : Bank) (e : Strand) : (B.pass e).cnt = B.cnt := by cases e <;> rfl

@[simp] theorem Bank.stand_status (B : Bank) (e : Strand) (k : Stall) : (B.stand e k).status = B.status := by cases e <;> rfl
@[simp] theorem Bank.stand_place (B : Bank) (e : Strand) (k : Stall) : (B.stand e k).place = B.place := by cases e <;> rfl
@[simp] theorem Bank.stand_text (B : Bank) (e : Strand) (k : Stall) : (B.stand e k).text = B.text := by cases e <;> rfl
@[simp] theorem Bank.stand_words (B : Bank) (e : Strand) (k : Stall) : (B.stand e k).words = B.words := by cases e <;> rfl
@[simp] theorem Bank.stand_again (B : Bank) (e : Strand) (k : Stall) : (B.stand e k).again = B.again := by cases e <;> rfl
@[simp] theorem Bank.stand_r (B : Bank) (e : Strand) (k : Stall) : (B.stand e k).r = B.r := by cases e <;> rfl
@[simp] theorem Bank.stand_q (B : Bank) (e : Strand) (k : Stall) : (B.stand e k).q = B.q := by cases e <;> rfl
@[simp] theorem Bank.stand_csr (B : Bank) (e : Strand) (k : Stall) : (B.stand e k).csr = B.csr := by cases e <;> rfl
@[simp] theorem Bank.stand_mat (B : Bank) (e : Strand) (k : Stall) : (B.stand e k).mat = B.mat := by cases e <;> rfl
@[simp] theorem Bank.stand_xfer (B : Bank) (e : Strand) (k : Stall) : (B.stand e k).xfer = B.xfer := by cases e <;> rfl
@[simp] theorem Bank.stand_vec (B : Bank) (e : Strand) (k : Stall) : (B.stand e k).vec = B.vec := by cases e <;> rfl
@[simp] theorem Bank.stand_out (B : Bank) (e : Strand) (k : Stall) : (B.stand e k).out = B.out := by cases e <;> rfl
@[simp] theorem Bank.stand_trap (B : Bank) (e : Strand) (k : Stall) : (B.stand e k).trap = B.trap := by cases e <;> rfl
@[simp] theorem Bank.stand_n (B : Bank) (e : Strand) (k : Stall) : (B.stand e k).n = B.n := by cases e <;> rfl
@[simp] theorem Bank.stand_now (B : Bank) (e : Strand) (k : Stall) : (B.stand e k).now = B.now := by cases e <;> rfl
@[simp] theorem Bank.stand_cnt (B : Bank) (e : Strand) (k : Stall) : (B.stand e k).cnt = B.cnt := by cases e <;> rfl

/-! ### Banks and cores of the state -/

@[simp] theorem State.bank_setBank_same (s : State) (b : Nat) (B : Bank) : (s.setBank b B).bank b = B := by
  simp [State.bank, State.setBank, KV.get_put_same]
@[simp] theorem State.bank_setBank_ne (s : State) {b c : Nat} (B : Bank) (h : c ≠ b) :
    (s.setBank b B).bank c = s.bank c := by
  simp [State.bank, State.setBank, KV.get_put_ne _ h]
@[simp] theorem State.bank_updBank_same (s : State) (b : Nat) (f : Bank → Bank) :
    (s.updBank b f).bank b = f (s.bank b) := by simp [State.updBank]
@[simp] theorem State.bank_updBank_ne (s : State) {b c : Nat} (f : Bank → Bank) (h : c ≠ b) :
    (s.updBank b f).bank c = s.bank c := by simp [State.updBank, h]
@[simp] theorem State.bank_onRegs_same (s : State) (b : Nat) (f : Regs → Regs) :
    (s.onRegs b f).bank b = (s.bank b).onRegs f := by simp [State.onRegs]
@[simp] theorem State.bank_onRegs_ne (s : State) {b c : Nat} (f : Regs → Regs) (h : c ≠ b) :
    (s.onRegs b f).bank c = s.bank c := by simp [State.onRegs, h]
@[simp] theorem State.bank_onQ_same (s : State) (b : Nat) (f : Queues → Queues) :
    (s.onQ b f).bank b = { s.bank b with q := f (s.bank b).q } := by simp [State.onQ]
@[simp] theorem State.bank_onQ_ne (s : State) {b c : Nat} (f : Queues → Queues) (h : c ≠ b) :
    (s.onQ b f).bank c = s.bank c := by simp [State.onQ, h]
@[simp] theorem State.updBank_updBank (s : State) (b : Nat) (f g : Bank → Bank) :
    (s.updBank b f).updBank b g = s.updBank b (fun B => g (f B)) := by
  simp [State.updBank, State.setBank, State.bank, KV.get_put_same, KV.put_put]
theorem State.onRegs_updBank (s : State) (b : Nat) (f : Regs → Regs) (g : Bank → Bank) :
    (s.onRegs b f).updBank b g = s.updBank b (fun B => g (B.onRegs f)) := by simp [State.onRegs]
@[simp] theorem State.core_updCore_same (s : State) (c : Nat) (f : Core → Core) :
    (s.updCore c f).core c = f (s.core c) := by simp [State.core, State.updCore, KV.get_put_same]
@[simp] theorem State.core_updCore_ne (s : State) {c d : Nat} (f : Core → Core) (h : d ≠ c) :
    (s.updCore c f).core d = s.core d := by simp [State.core, State.updCore, KV.get_put_ne _ h]
@[simp] theorem State.hubReg_setHub_same (s : State) (o v : Nat) : (s.setHub o v).hubReg o = v := by
  simp [State.hubReg, State.setHub, KV.get_put_same]
@[simp] theorem State.hubReg_setHub_ne (s : State) {o p : Nat} (v : Nat) (h : p ≠ o) :
    (s.setHub o v).hubReg p = s.hubReg p := by simp [State.hubReg, State.setHub, KV.get_put_ne _ h]
@[simp] theorem State.hubReg_updBank (s : State) (b : Nat) (f : Bank → Bank) (o : Nat) :
    (s.updBank b f).hubReg o = s.hubReg o := rfl

/-! ### Walks -/

@[simp] theorem Bank.onRegs_r (B : Bank) (f : Regs → Regs) : (B.onRegs f).r = f B.r := rfl
@[simp] theorem Bank.onOut_out (B : Bank) (f : Outstanding → Outstanding) : (B.onOut f).out = f B.out := rfl
@[simp] theorem Bank.walker_c (B : Bank) : B.walker .c = B.wc := rfl
@[simp] theorem Bank.walker_v (B : Bank) : B.walker .v = B.wv := rfl
@[simp] theorem Bank.walker_m (B : Bank) : B.walker .m = B.wm := rfl
@[simp] theorem Bank.walker_x (B : Bank) : B.walker .x = B.wx := rfl
@[simp] theorem Bank.walker_setWalker_same (B : Bank) (e : Strand) (w : Walker) : (B.setWalker e w).walker e = w := by
  cases e <;> rfl
@[simp] theorem Bank.walker_setWalker_ne (B : Bank) {e f : Strand} (w : Walker) (h : f ≠ e) :
    (B.setWalker e w).walker f = B.walker f := by cases e <;> cases f <;> first | rfl | exact absurd rfl h
@[simp] theorem Bank.walker_moved_pc (B : Bank) (e : Strand) : (B.moved.walker e).pc = (B.walker e).pc := by
  cases e <;> rfl
@[simp] theorem Bank.walker_moved_walk (B : Bank) (e : Strand) : (B.moved.walker e).walk = (B.walker e).walk := by
  cases e <;> rfl
@[simp] theorem Bank.walker_moved_path (B : Bank) (e : Strand) : (B.moved.walker e).path = (B.walker e).path := by
  cases e <;> rfl
@[simp] theorem Bank.passTo_pc (B : Bank) (e : Strand) (t : Nat) : ((B.passTo e t).walker e).pc = t := by
  cases e <;> rfl
@[simp] theorem Bank.passTo_walk (B : Bank) (e : Strand) (t : Nat) : ((B.passTo e t).walker e).walk =
    if B.trap.handler then (B.walker e).walk else (B.walker e).walk + 1 := by cases e <;> rfl
@[simp] theorem Bank.passTo_path (B : Bank) (e f : Strand) (t : Nat) :
    ((B.passTo e t).walker f).path = (B.walker f).path := by cases e <;> cases f <;> rfl
@[simp] theorem Bank.passTo_pc_ne (B : Bank) {e f : Strand} (t : Nat) (h : f ≠ e) :
    ((B.passTo e t).walker f).pc = (B.walker f).pc := by cases e <;> cases f <;> first | rfl | exact absurd rfl h
@[simp] theorem Bank.passTo_walk_ne (B : Bank) {e f : Strand} (t : Nat) (h : f ≠ e) :
    ((B.passTo e t).walker f).walk = (B.walker f).walk := by cases e <;> cases f <;> first | rfl | exact absurd rfl h
@[simp] theorem Bank.glideTo_pc (B : Bank) (e : Strand) (t : Nat) : ((B.glideTo e t).walker e).pc = t := by
  cases e <;> rfl
@[simp] theorem Bank.glideTo_walk (B : Bank) (e : Strand) (t : Nat) : ((B.glideTo e t).walker e).walk =
    if B.trap.handler then (B.walker e).walk else (B.walker e).walk + 1 := by cases e <;> rfl
@[simp] theorem Bank.glideTo_path (B : Bank) (e f : Strand) (t : Nat) :
    ((B.glideTo e t).walker f).path = (B.walker f).path := by cases e <;> cases f <;> rfl
@[simp] theorem Bank.glideTo_pc_ne (B : Bank) {e f : Strand} (t : Nat) (h : f ≠ e) :
    ((B.glideTo e t).walker f).pc = (B.walker f).pc := by cases e <;> cases f <;> first | rfl | exact absurd rfl h
@[simp] theorem Bank.glideTo_walk_ne (B : Bank) {e f : Strand} (t : Nat) (h : f ≠ e) :
    ((B.glideTo e t).walker f).walk = (B.walker f).walk := by cases e <;> cases f <;> first | rfl | exact absurd rfl h
theorem Bank.glide_eq (B : Bank) (e : Strand) : B.glide e = B.glideTo e ((B.walker e).pc + 1) := rfl
@[simp] theorem Bank.passTo_now (B : Bank) (e : Strand) (t : Nat) : (B.passTo e t).now = B.now.pass.issue e := by
  cases e <;> rfl
@[simp] theorem Bank.pass_now (B : Bank) (e : Strand) : (B.pass e).now = B.now.pass.issue e := by cases e <;> rfl
@[simp] theorem Bank.onNow_now (B : Bank) (f : AcNow → AcNow) : (B.onNow f).now = f B.now := rfl
@[simp] theorem Bank.onTrap_trap (B : Bank) (f : TrapState → TrapState) : (B.onTrap f).trap = f B.trap := rfl
theorem Bank.pass_eq (B : Bank) (e : Strand) : B.pass e = B.passTo e ((B.walker e).pc + 1) := rfl

/-! ### Scalars, predicates, flags -/

@[simp] theorem Regs.readS_zero (r : Regs) : r.readS 0 = 0 := rfl
@[simp] theorem Regs.binding_zero (r : Regs) : r.binding 0 = 0 := rfl
@[simp] theorem Regs.readP_zero (r : Regs) : r.readP 0 = true := rfl
@[simp] theorem Regs.writeBound_zero (r : Regs) (x : Word) (k : Nat) : r.writeBound 0 x k = r := rfl
@[simp] theorem Regs.writeS_zero (r : Regs) (x : Word) : r.writeS 0 x = r := rfl
@[simp] theorem Regs.writeP_zero (r : Regs) (x : Bool) : r.writeP 0 x = r := rfl
theorem Regs.readS_writeBound (r : Regs) (d n : Nat) (x : Word) (k : Nat) :
    (r.writeBound d x k).readS n = if n = d ∧ d ≠ 0 then x else r.readS n := by
  unfold Regs.writeBound Regs.readS
  by_cases hd : d = 0
  · simp [hd]
  · by_cases h : n = d
    · subst h; simp [hd, KV.get_put_same]
    · simp [hd, h, KV.get_put_ne _ h]
theorem Regs.binding_writeBound (r : Regs) (d n : Nat) (x : Word) (k : Nat) :
    (r.writeBound d x k).binding n = if n = d ∧ d ≠ 0 then k else r.binding n := by
  unfold Regs.writeBound Regs.binding
  by_cases hd : d = 0
  · simp [hd]
  · by_cases h : n = d
    · subst h; simp [hd, KV.get_put_same]
    · simp [hd, h, KV.get_put_ne _ h]
theorem Regs.readS_writeS (r : Regs) (d n : Nat) (x : Word) :
    (r.writeS d x).readS n = if n = d ∧ d ≠ 0 then x else r.readS n := r.readS_writeBound d n x 0
theorem Regs.binding_writeS (r : Regs) (d n : Nat) (x : Word) :
    (r.writeS d x).binding n = if n = d ∧ d ≠ 0 then 0 else r.binding n := r.binding_writeBound d n x 0
@[simp] theorem Regs.readF_writeF_same (r : Regs) (k : Nat) (x : BitVec 20) : (r.writeF k x).readF k = x := by
  simp [Regs.readF, Regs.writeF, KV.get_put_same]
@[simp] theorem Regs.readF_writeF_ne (r : Regs) {k n : Nat} (x : BitVec 20) (h : n ≠ k) :
    (r.writeF k x).readF n = r.readF n := by simp [Regs.readF, Regs.writeF, KV.get_put_ne _ h]
theorem Regs.writeBound_apart (r : Regs) (d : Nat) (x : Word) (k : Nat) :
    { r.writeBound d x k with s := [], bind := [] } = { r with s := [], bind := [] } := by
  unfold Regs.writeBound; split <;> rfl
theorem Regs.readP_writeP (r : Regs) (k n : Nat) (x : Bool) (hn : n < 16) :
    (r.writeP k x).readP n = if n = k ∧ k ≠ 0 then x else r.readP n := by
  unfold Regs.writeP Regs.readP
  by_cases hk : k = 0
  · simp [hk]
  · by_cases h0 : n = 0
    · subst h0; simp [Ne.symm hk]
    · have e : (BitVec.ofNat 16 (2 ^ k)).getLsbD n = decide (k = n) := by
        rw [BitVec.getLsbD_ofNat, Nat.testBit_two_pow, decide_eq_true hn, Bool.true_and]
      by_cases h : n = k
      · subst h
        cases x <;> simp only [hk, e, if_false, if_true, BitVec.getLsbD_or, BitVec.getLsbD_and, BitVec.getLsbD_not,
          decide_true, Bool.not_true, Bool.and_false, Bool.or_true, ne_eq, not_false_eq_true, and_self,
          Bool.false_eq_true]
      · cases x <;> simp only [hk, h, Ne.symm h, h0, hn, e, if_false, if_true, false_and, BitVec.getLsbD_or,
          BitVec.getLsbD_and, BitVec.getLsbD_not, decide_false, Bool.or_false, decide_true, Bool.not_false,
          Bool.and_true, Bool.false_eq_true]
theorem Regs.writeP_apart (r : Regs) (k : Nat) (x : Bool) : { r.writeP k x with p := 0 } = { r with p := 0 } := by
  unfold Regs.writeP; split <;> rfl

/-! ### An update by the hardware of bits of a system register -/

@[simp] theorem Bank.csrUpdate_status (B : Bank) (n : Nat) (m x : Word) : (B.csrUpdate n m x).status = B.status := rfl
@[simp] theorem Bank.csrUpdate_place (B : Bank) (n : Nat) (m x : Word) : (B.csrUpdate n m x).place = B.place := rfl
@[simp] theorem Bank.csrUpdate_text (B : Bank) (n : Nat) (m x : Word) : (B.csrUpdate n m x).text = B.text := rfl
@[simp] theorem Bank.csrUpdate_words (B : Bank) (n : Nat) (m x : Word) : (B.csrUpdate n m x).words = B.words := rfl
@[simp] theorem Bank.csrUpdate_wc (B : Bank) (n : Nat) (m x : Word) : (B.csrUpdate n m x).wc = B.wc := rfl
@[simp] theorem Bank.csrUpdate_wv (B : Bank) (n : Nat) (m x : Word) : (B.csrUpdate n m x).wv = B.wv := rfl
@[simp] theorem Bank.csrUpdate_wm (B : Bank) (n : Nat) (m x : Word) : (B.csrUpdate n m x).wm = B.wm := rfl
@[simp] theorem Bank.csrUpdate_wx (B : Bank) (n : Nat) (m x : Word) : (B.csrUpdate n m x).wx = B.wx := rfl
@[simp] theorem Bank.csrUpdate_again (B : Bank) (n : Nat) (m x : Word) : (B.csrUpdate n m x).again = B.again := rfl
@[simp] theorem Bank.csrUpdate_r (B : Bank) (n : Nat) (m x : Word) : (B.csrUpdate n m x).r = B.r := rfl
@[simp] theorem Bank.csrUpdate_q (B : Bank) (n : Nat) (m x : Word) : (B.csrUpdate n m x).q = B.q := rfl
@[simp] theorem Bank.csrUpdate_mat (B : Bank) (n : Nat) (m x : Word) : (B.csrUpdate n m x).mat = B.mat := rfl
@[simp] theorem Bank.csrUpdate_xfer (B : Bank) (n : Nat) (m x : Word) : (B.csrUpdate n m x).xfer = B.xfer := rfl
@[simp] theorem Bank.csrUpdate_vec (B : Bank) (n : Nat) (m x : Word) : (B.csrUpdate n m x).vec = B.vec := rfl
@[simp] theorem Bank.csrUpdate_out (B : Bank) (n : Nat) (m x : Word) : (B.csrUpdate n m x).out = B.out := rfl
@[simp] theorem Bank.csrUpdate_trap (B : Bank) (n : Nat) (m x : Word) : (B.csrUpdate n m x).trap = B.trap := rfl
@[simp] theorem Bank.csrUpdate_n (B : Bank) (n : Nat) (m x : Word) : (B.csrUpdate n m x).n = B.n := rfl
@[simp] theorem Bank.csrUpdate_cnt (B : Bank) (n : Nat) (m x : Word) : (B.csrUpdate n m x).cnt = B.cnt := rfl
@[simp] theorem Bank.csrUpdate_csr (B : Bank) (n : Nat) (m x : Word) :
    (B.csrUpdate n m x).csr = KV.put B.csr n ((B.csrGet n &&& ~~~ m) ||| (x &&& m)) := rfl
@[simp] theorem AcNow.pass_passed (n : AcNow) : n.pass.passed = true := rfl
@[simp] theorem AcNow.pass_issued (n : AcNow) : n.pass.issued = n.issued := rfl
@[simp] theorem AcNow.pass_begun (n : AcNow) : n.pass.begun = n.begun := rfl
@[simp] theorem AcNow.pass_flagOld (n : AcNow) : n.pass.flagOld = n.flagOld := rfl
@[simp] theorem AcNow.pass_flagInc (n : AcNow) : n.pass.flagInc = n.flagInc := rfl
@[simp] theorem AcNow.pass_raised (n : AcNow) : n.pass.raised = n.raised := rfl
@[simp] theorem AcNow.pass_decided (n : AcNow) : n.pass.decided = n.decided := rfl
@[simp] theorem AcNow.pass_pushed (n : AcNow) : n.pass.pushed = n.pushed := rfl
@[simp] theorem AcNow.pass_popped (n : AcNow) : n.pass.popped = n.popped := rfl
@[simp] theorem AcNow.pass_filled (n : AcNow) : n.pass.filled = n.filled := rfl
@[simp] theorem AcNow.pass_barked (n : AcNow) : n.pass.barked = n.barked := rfl
@[simp] theorem AcNow.pass_hard (n : AcNow) : n.pass.hard = n.hard := rfl
@[simp] theorem AcNow.pass_slipOld (n : AcNow) : n.pass.slipOld = n.slipOld := rfl

/-! ### Updates of the hub's agents -/

@[simp] theorem State.putGroup_agenda (s : State) (g : Group) : (s.putGroup g).agenda = s.agenda := rfl
@[simp] theorem State.putGroup_cur (s : State) (g : Group) : (s.putGroup g).cur = s.cur := rfl
@[simp] theorem State.putGroup_input (s : State) (g : Group) : (s.putGroup g).input = s.input := rfl
@[simp] theorem State.putGroup_freeCtr (s : State) (g : Group) : (s.putGroup g).freeCtr = s.freeCtr := rfl
@[simp] theorem State.putGroup_nextId (s : State) (g : Group) : (s.putGroup g).nextId = s.nextId := rfl
@[simp] theorem State.putGroup_nextOrd (s : State) (g : Group) : (s.putGroup g).nextOrd = s.nextOrd := rfl
@[simp] theorem State.putGroup_phase (s : State) (g : Group) : (s.putGroup g).phase = s.phase := rfl
@[simp] theorem State.putGroup_time (s : State) (g : Group) : (s.putGroup g).time = s.time := rfl
@[simp] theorem State.putGroup_hub (s : State) (g : Group) : (s.putGroup g).hub = s.hub := rfl
@[simp] theorem State.putGroup_banks (s : State) (g : Group) : (s.putGroup g).banks = s.banks := rfl
@[simp] theorem State.putGroup_cores (s : State) (g : Group) : (s.putGroup g).cores = s.cores := rfl
@[simp] theorem State.putGroup_mem (s : State) (g : Group) : (s.putGroup g).mem = s.mem := rfl
@[simp] theorem State.putGroup_scr (s : State) (g : Group) : (s.putGroup g).scr = s.scr := rfl
@[simp] theorem State.putGroup_writes (s : State) (g : Group) : (s.putGroup g).writes = s.writes := rfl
@[simp] theorem State.putGroup_vc (s : State) (g : Group) : (s.putGroup g).vc = s.vc := rfl
@[simp] theorem State.putGroup_tlb (s : State) (g : Group) : (s.putGroup g).tlb = s.tlb := rfl
@[simp] theorem State.putGroup_walks (s : State) (g : Group) : (s.putGroup g).walks = s.walks := rfl
@[simp] theorem State.putGroup_l2 (s : State) (g : Group) : (s.putGroup g).l2 = s.l2 := rfl
@[simp] theorem State.putGroup_boot (s : State) (g : Group) : (s.putGroup g).boot = s.boot := rfl
@[simp] theorem State.putGroup_fab (s : State) (g : Group) : (s.putGroup g).fab = s.fab := rfl
@[simp] theorem State.putGroup_faults (s : State) (g : Group) : (s.putGroup g).faults = s.faults := rfl
@[simp] theorem State.putGroup_parcels (s : State) (g : Group) : (s.putGroup g).parcels = s.parcels := rfl
@[simp] theorem State.putGroup_host (s : State) (g : Group) : (s.putGroup g).host = s.host := rfl
@[simp] theorem State.putGroup_svc (s : State) (g : Group) : (s.putGroup g).svc = s.svc := rfl
@[simp] theorem State.putGroup_power (s : State) (g : Group) : (s.putGroup g).power = s.power := rfl

@[simp] theorem State.dropGroup_agenda (s : State) (id : Nat) : (s.dropGroup id).agenda = s.agenda := rfl
@[simp] theorem State.dropGroup_cur (s : State) (id : Nat) : (s.dropGroup id).cur = s.cur := rfl
@[simp] theorem State.dropGroup_input (s : State) (id : Nat) : (s.dropGroup id).input = s.input := rfl
@[simp] theorem State.dropGroup_freeCtr (s : State) (id : Nat) : (s.dropGroup id).freeCtr = s.freeCtr := rfl
@[simp] theorem State.dropGroup_nextId (s : State) (id : Nat) : (s.dropGroup id).nextId = s.nextId := rfl
@[simp] theorem State.dropGroup_nextOrd (s : State) (id : Nat) : (s.dropGroup id).nextOrd = s.nextOrd := rfl
@[simp] theorem State.dropGroup_phase (s : State) (id : Nat) : (s.dropGroup id).phase = s.phase := rfl
@[simp] theorem State.dropGroup_time (s : State) (id : Nat) : (s.dropGroup id).time = s.time := rfl
@[simp] theorem State.dropGroup_hub (s : State) (id : Nat) : (s.dropGroup id).hub = s.hub := rfl
@[simp] theorem State.dropGroup_banks (s : State) (id : Nat) : (s.dropGroup id).banks = s.banks := rfl
@[simp] theorem State.dropGroup_cores (s : State) (id : Nat) : (s.dropGroup id).cores = s.cores := rfl
@[simp] theorem State.dropGroup_mem (s : State) (id : Nat) : (s.dropGroup id).mem = s.mem := rfl
@[simp] theorem State.dropGroup_scr (s : State) (id : Nat) : (s.dropGroup id).scr = s.scr := rfl
@[simp] theorem State.dropGroup_writes (s : State) (id : Nat) : (s.dropGroup id).writes = s.writes := rfl
@[simp] theorem State.dropGroup_vc (s : State) (id : Nat) : (s.dropGroup id).vc = s.vc := rfl
@[simp] theorem State.dropGroup_tlb (s : State) (id : Nat) : (s.dropGroup id).tlb = s.tlb := rfl
@[simp] theorem State.dropGroup_walks (s : State) (id : Nat) : (s.dropGroup id).walks = s.walks := rfl
@[simp] theorem State.dropGroup_l2 (s : State) (id : Nat) : (s.dropGroup id).l2 = s.l2 := rfl
@[simp] theorem State.dropGroup_boot (s : State) (id : Nat) : (s.dropGroup id).boot = s.boot := rfl
@[simp] theorem State.dropGroup_fab (s : State) (id : Nat) : (s.dropGroup id).fab = s.fab := rfl
@[simp] theorem State.dropGroup_faults (s : State) (id : Nat) : (s.dropGroup id).faults = s.faults := rfl
@[simp] theorem State.dropGroup_parcels (s : State) (id : Nat) : (s.dropGroup id).parcels = s.parcels := rfl
@[simp] theorem State.dropGroup_host (s : State) (id : Nat) : (s.dropGroup id).host = s.host := rfl
@[simp] theorem State.dropGroup_svc (s : State) (id : Nat) : (s.dropGroup id).svc = s.svc := rfl
@[simp] theorem State.dropGroup_power (s : State) (id : Nat) : (s.dropGroup id).power = s.power := rfl

@[simp] theorem State.putDelivery_agenda (s : State) (d : Delivery) : (s.putDelivery d).agenda = s.agenda := rfl
@[simp] theorem State.putDelivery_cur (s : State) (d : Delivery) : (s.putDelivery d).cur = s.cur := rfl
@[simp] theorem State.putDelivery_input (s : State) (d : Delivery) : (s.putDelivery d).input = s.input := rfl
@[simp] theorem State.putDelivery_freeCtr (s : State) (d : Delivery) : (s.putDelivery d).freeCtr = s.freeCtr := rfl
@[simp] theorem State.putDelivery_nextId (s : State) (d : Delivery) : (s.putDelivery d).nextId = s.nextId := rfl
@[simp] theorem State.putDelivery_nextOrd (s : State) (d : Delivery) : (s.putDelivery d).nextOrd = s.nextOrd := rfl
@[simp] theorem State.putDelivery_phase (s : State) (d : Delivery) : (s.putDelivery d).phase = s.phase := rfl
@[simp] theorem State.putDelivery_time (s : State) (d : Delivery) : (s.putDelivery d).time = s.time := rfl
@[simp] theorem State.putDelivery_hub (s : State) (d : Delivery) : (s.putDelivery d).hub = s.hub := rfl
@[simp] theorem State.putDelivery_banks (s : State) (d : Delivery) : (s.putDelivery d).banks = s.banks := rfl
@[simp] theorem State.putDelivery_cores (s : State) (d : Delivery) : (s.putDelivery d).cores = s.cores := rfl
@[simp] theorem State.putDelivery_mem (s : State) (d : Delivery) : (s.putDelivery d).mem = s.mem := rfl
@[simp] theorem State.putDelivery_scr (s : State) (d : Delivery) : (s.putDelivery d).scr = s.scr := rfl
@[simp] theorem State.putDelivery_writes (s : State) (d : Delivery) : (s.putDelivery d).writes = s.writes := rfl
@[simp] theorem State.putDelivery_vc (s : State) (d : Delivery) : (s.putDelivery d).vc = s.vc := rfl
@[simp] theorem State.putDelivery_tlb (s : State) (d : Delivery) : (s.putDelivery d).tlb = s.tlb := rfl
@[simp] theorem State.putDelivery_walks (s : State) (d : Delivery) : (s.putDelivery d).walks = s.walks := rfl
@[simp] theorem State.putDelivery_l2 (s : State) (d : Delivery) : (s.putDelivery d).l2 = s.l2 := rfl
@[simp] theorem State.putDelivery_boot (s : State) (d : Delivery) : (s.putDelivery d).boot = s.boot := rfl
@[simp] theorem State.putDelivery_fab (s : State) (d : Delivery) : (s.putDelivery d).fab = s.fab := rfl
@[simp] theorem State.putDelivery_faults (s : State) (d : Delivery) : (s.putDelivery d).faults = s.faults := rfl
@[simp] theorem State.putDelivery_host (s : State) (d : Delivery) : (s.putDelivery d).host = s.host := rfl
@[simp] theorem State.putDelivery_chanter (s : State) (d : Delivery) : (s.putDelivery d).chanter = s.chanter := rfl
@[simp] theorem State.putDelivery_svc (s : State) (d : Delivery) : (s.putDelivery d).svc = s.svc := rfl
@[simp] theorem State.putDelivery_power (s : State) (d : Delivery) : (s.putDelivery d).power = s.power := rfl

@[simp] theorem State.updIfc_agenda (s : State) (n : Nat) (f : Vi → Vi) : (s.updIfc n f).agenda = s.agenda := rfl
@[simp] theorem State.updIfc_cur (s : State) (n : Nat) (f : Vi → Vi) : (s.updIfc n f).cur = s.cur := rfl
@[simp] theorem State.updIfc_input (s : State) (n : Nat) (f : Vi → Vi) : (s.updIfc n f).input = s.input := rfl
@[simp] theorem State.updIfc_freeCtr (s : State) (n : Nat) (f : Vi → Vi) : (s.updIfc n f).freeCtr = s.freeCtr := rfl
@[simp] theorem State.updIfc_nextId (s : State) (n : Nat) (f : Vi → Vi) : (s.updIfc n f).nextId = s.nextId := rfl
@[simp] theorem State.updIfc_nextOrd (s : State) (n : Nat) (f : Vi → Vi) : (s.updIfc n f).nextOrd = s.nextOrd := rfl
@[simp] theorem State.updIfc_phase (s : State) (n : Nat) (f : Vi → Vi) : (s.updIfc n f).phase = s.phase := rfl
@[simp] theorem State.updIfc_time (s : State) (n : Nat) (f : Vi → Vi) : (s.updIfc n f).time = s.time := rfl
@[simp] theorem State.updIfc_hub (s : State) (n : Nat) (f : Vi → Vi) : (s.updIfc n f).hub = s.hub := rfl
@[simp] theorem State.updIfc_banks (s : State) (n : Nat) (f : Vi → Vi) : (s.updIfc n f).banks = s.banks := rfl
@[simp] theorem State.updIfc_cores (s : State) (n : Nat) (f : Vi → Vi) : (s.updIfc n f).cores = s.cores := rfl
@[simp] theorem State.updIfc_mem (s : State) (n : Nat) (f : Vi → Vi) : (s.updIfc n f).mem = s.mem := rfl
@[simp] theorem State.updIfc_scr (s : State) (n : Nat) (f : Vi → Vi) : (s.updIfc n f).scr = s.scr := rfl
@[simp] theorem State.updIfc_writes (s : State) (n : Nat) (f : Vi → Vi) : (s.updIfc n f).writes = s.writes := rfl
@[simp] theorem State.updIfc_vc (s : State) (n : Nat) (f : Vi → Vi) : (s.updIfc n f).vc = s.vc := rfl
@[simp] theorem State.updIfc_tlb (s : State) (n : Nat) (f : Vi → Vi) : (s.updIfc n f).tlb = s.tlb := rfl
@[simp] theorem State.updIfc_walks (s : State) (n : Nat) (f : Vi → Vi) : (s.updIfc n f).walks = s.walks := rfl
@[simp] theorem State.updIfc_l2 (s : State) (n : Nat) (f : Vi → Vi) : (s.updIfc n f).l2 = s.l2 := rfl
@[simp] theorem State.updIfc_boot (s : State) (n : Nat) (f : Vi → Vi) : (s.updIfc n f).boot = s.boot := rfl
@[simp] theorem State.updIfc_fab (s : State) (n : Nat) (f : Vi → Vi) : (s.updIfc n f).fab = s.fab := rfl
@[simp] theorem State.updIfc_faults (s : State) (n : Nat) (f : Vi → Vi) : (s.updIfc n f).faults = s.faults := rfl
@[simp] theorem State.updIfc_parcels (s : State) (n : Nat) (f : Vi → Vi) : (s.updIfc n f).parcels = s.parcels := rfl
@[simp] theorem State.updIfc_chanter (s : State) (n : Nat) (f : Vi → Vi) : (s.updIfc n f).chanter = s.chanter := rfl
@[simp] theorem State.updIfc_svc (s : State) (n : Nat) (f : Vi → Vi) : (s.updIfc n f).svc = s.svc := rfl
@[simp] theorem State.updIfc_power (s : State) (n : Nat) (f : Vi → Vi) : (s.updIfc n f).power = s.power := rfl

@[simp] theorem State.setModes_agenda (s : State) (n v : Nat) : (s.setModes n v).agenda = s.agenda := rfl
@[simp] theorem State.setModes_cur (s : State) (n v : Nat) : (s.setModes n v).cur = s.cur := rfl
@[simp] theorem State.setModes_input (s : State) (n v : Nat) : (s.setModes n v).input = s.input := rfl
@[simp] theorem State.setModes_freeCtr (s : State) (n v : Nat) : (s.setModes n v).freeCtr = s.freeCtr := rfl
@[simp] theorem State.setModes_nextId (s : State) (n v : Nat) : (s.setModes n v).nextId = s.nextId := rfl
@[simp] theorem State.setModes_nextOrd (s : State) (n v : Nat) : (s.setModes n v).nextOrd = s.nextOrd := rfl
@[simp] theorem State.setModes_phase (s : State) (n v : Nat) : (s.setModes n v).phase = s.phase := rfl
@[simp] theorem State.setModes_time (s : State) (n v : Nat) : (s.setModes n v).time = s.time := rfl
@[simp] theorem State.setModes_banks (s : State) (n v : Nat) : (s.setModes n v).banks = s.banks := rfl
@[simp] theorem State.setModes_cores (s : State) (n v : Nat) : (s.setModes n v).cores = s.cores := rfl
@[simp] theorem State.setModes_scr (s : State) (n v : Nat) : (s.setModes n v).scr = s.scr := rfl
@[simp] theorem State.setModes_writes (s : State) (n v : Nat) : (s.setModes n v).writes = s.writes := rfl
@[simp] theorem State.setModes_vc (s : State) (n v : Nat) : (s.setModes n v).vc = s.vc := rfl
@[simp] theorem State.setModes_tlb (s : State) (n v : Nat) : (s.setModes n v).tlb = s.tlb := rfl
@[simp] theorem State.setModes_walks (s : State) (n v : Nat) : (s.setModes n v).walks = s.walks := rfl
@[simp] theorem State.setModes_l2 (s : State) (n v : Nat) : (s.setModes n v).l2 = s.l2 := rfl
@[simp] theorem State.setModes_boot (s : State) (n v : Nat) : (s.setModes n v).boot = s.boot := rfl
@[simp] theorem State.setModes_fab (s : State) (n v : Nat) : (s.setModes n v).fab = s.fab := rfl
@[simp] theorem State.setModes_faults (s : State) (n v : Nat) : (s.setModes n v).faults = s.faults := rfl
@[simp] theorem State.setModes_parcels (s : State) (n v : Nat) : (s.setModes n v).parcels = s.parcels := rfl
@[simp] theorem State.setModes_host (s : State) (n v : Nat) : (s.setModes n v).host = s.host := rfl
@[simp] theorem State.setModes_chanter (s : State) (n v : Nat) : (s.setModes n v).chanter = s.chanter := rfl
@[simp] theorem State.setModes_svc (s : State) (n v : Nat) : (s.setModes n v).svc = s.svc := rfl
@[simp] theorem State.setModes_power (s : State) (n v : Nat) : (s.setModes n v).power = s.power := rfl

end Sys2Proof.Machine
end

