-- ==== Sys2Proof/Laws/Control.lean ====
section
/-! SUPPORT. Control words: what a word comes to in a strand that is ready for it, in a strand that it does not
concern, and what writing one scalar or one predicate leaves. -/

namespace Sys2Proof.Machine

open Sys2Proof Host

/-- A ready control word runs its body. -/
theorem ctlRes_ready {s : State} {rs : List Nat} {i : Instr} {body : Nat → State → Res} (h : CtlReady s rs)
    (hl : i.legal = true) : ctlRes i rs body s.cur.bank s = body s.cur.bank s := by
  have := h.free; unfold State.here at this
  simp [ctlRes, h.task, hl, this]

theorem ctlRes_sys {s : State} {rs : List Nat} {i : Instr} {body : Nat → State → Res} (h : SysReady s rs)
    (hl : i.legal = true) (hr : sysRefuses i = false) : ctlRes i rs body s.cur.bank s = body s.cur.bank s := by
  have := h.free; unfold State.here at this
  simp [ctlRes, h.system, hr, hl, this]

theorem ctlWord_ready {s : State} {rs : List Nat} {i : Instr} {body : Nat → State → Res} (h : CtlReady s rs)
    (hl : i.legal = true) : ctlWord i rs body s = .next (finish s.cur.bank .c s (body s.cur.bank s)) := by
  simp [ctlWord, ctlStep, h.strand, ctlRes_ready h hl]

/-- A strand that a control word does not concern passes it. -/
theorem ctlWord_other {s : State} {rs : List Nat} {i : Instr} {body : Nat → State → Res} (h : s.cur.strand ≠ .c) :
    ctlWord i rs body s = .next (s.updBank s.cur.bank (·.glide s.cur.strand)) := by
  simp [ctlWord, ctlStep, h, skip]

/-- A word that the rules of issue refuse traps. -/
theorem ctlWord_illegal {s : State} {rs : List Nat} {i : Instr} {body : Nat → State → Res}
    (h : s.cur.strand = .c) (hl : i.legal = false) :
    ctlWord i rs body s = .next (s.updBank s.cur.bank (·.raisePrecise .c cIllegal (wordVal i))) := by
  simp [ctlWord, ctlStep, h, ctlRes, hl, finish]

/-- A word with a pending register stalls. -/
theorem ctlWord_pending {s : State} {rs : List Nat} {i : Instr} {body : Nat → State → Res}
    (h : s.cur.strand = .c) (ht : isSys s.cur.bank = false) (hl : i.legal = true)
    (hp : s.here.anyPending rs = true) :
    ctlWord i rs body s = .next (s.updBank s.cur.bank (·.stand .c (.pending rs))) := by
  unfold State.here at hp
  simp [ctlWord, ctlStep, h, ctlRes, hl, ht, hp, finish]

theorem OnlyBank.updBank (b : Nat) (s : State) (f : Bank → Bank) : OnlyBank b s (s.updBank b f) :=
  ⟨rfl, fun _ h => State.bank_updBank_ne s f h⟩

theorem Bank.rest_pass (B : Bank) (e : Strand) (t : Nat) : (B.passTo e t).rest = B.rest := by
  cases e <;> rfl

theorem Advanced.passTo (b : Nat) (e : Strand) (s : State) (t : Nat) (f : Bank → Bank)
    (hw : ∀ e, (f (s.bank b)).walker e = (s.bank b).walker e) (hh : (f (s.bank b)).trap = (s.bank b).trap) :
    Advanced b e t s (s.updBank b (fun B => (f B).passTo e t)) := by
  refine ⟨by simp, by simp [hw, hh], fun k hk => ?_⟩
  simp [hw, hk]

/-- Writing one scalar and passing is all that a scalar word does. -/
theorem wroteScalar (s : State) (d : BitVec 6) (x : Word) :
    WroteScalar s ((s.onRegs s.cur.bank (·.writeS d.toNat x)).updBank s.cur.bank (·.pass .c)) d.toNat x := by
  rw [State.onRegs_updBank]
  refine ⟨OnlyBank.updBank _ _ _, ?_, ?_, ?_, ?_, ?_, ?_⟩
  · simp only [State.bank_updBank_same, Bank.pass_eq]; rfl
  · exact Advanced.passTo _ _ _ _ (fun B => B.onRegs _) (fun e => by cases e <;> rfl) rfl
  · simp only [State.bank_updBank_same, Bank.pass_r, Bank.onRegs_r]
    exact Regs.writeBound_apart _ _ _ _
  · simp only [State.bank_updBank_same, Bank.pass_r, Bank.onRegs_r, Regs.readS_writeS]
    by_cases h : d.toNat = 0
    · simp [h]
    · simp [h]
  · simp only [State.bank_updBank_same, Bank.pass_r, Bank.onRegs_r, Regs.binding_writeS]
    by_cases h : d.toNat = 0
    · simp [h]
    · simp [h]
  · intro n hn
    simp [Regs.readS_writeS, Regs.binding_writeS, hn]

/-- Writing one predicate and passing is all that a predicate word does. -/
theorem wrotePredicate (s : State) (p : BitVec 4) (x : Bool) :
    WrotePredicate s ((s.onRegs s.cur.bank (·.writeP p.toNat x)).updBank s.cur.bank (·.pass .c)) p.toNat x := by
  rw [State.onRegs_updBank]
  refine ⟨OnlyBank.updBank _ _ _, ?_, ?_, ?_, ?_, ?_⟩
  · simp only [State.bank_updBank_same, Bank.pass_eq]; rfl
  · exact Advanced.passTo _ _ _ _ (fun B => B.onRegs _) (fun e => by cases e <;> rfl) rfl
  · simp only [State.bank_updBank_same, Bank.pass_r, Bank.onRegs_r]
    exact Regs.writeP_apart _ _ _
  · simp only [State.bank_updBank_same, Bank.pass_r, Bank.onRegs_r]
    rw [Regs.readP_writeP _ _ _ _ p.isLt]
    by_cases h : p.toNat = 0
    · simp [h]
    · simp [h]
  · intro n hn hne
    simp only [State.bank_updBank_same, Bank.pass_r, Bank.onRegs_r]
    rw [Regs.readP_writeP _ _ _ _ hn]; simp [hne]

/-- A ready word that writes one scalar. -/
theorem givesScalar {s : State} {rs : List Nat} {i : Instr} {d : BitVec 6} {f : Regs → Word} (h : CtlReady s rs)
    (hl : i.legal = true) (hx : exec i s = ctlWord i rs (scalarBody d f) s) :
    GivesScalar i s d (f s.here.r) :=
  ⟨_, hx.trans (ctlWord_ready h hl), wroteScalar s d _⟩

/-- A ready word that writes one predicate. -/
theorem givesPredicate {s : State} {rs : List Nat} {i : Instr} {p : BitVec 4} {f : Regs → Bool} (h : CtlReady s rs)
    (hl : i.legal = true) (hx : exec i s = ctlWord i rs (predBody p f) s) :
    GivesPredicate i s p (f s.here.r) :=
  ⟨_, hx.trans (ctlWord_ready h hl), wrotePredicate s p _⟩

/-- A word that traps at issue in the control strand. -/
theorem traps_of {s : State} {rs : List Nat} {i : Instr} {body : Nat → State → Res} {c : Nat} {x : Word}
    (h : CtlReady s rs) (hl : i.legal = true) (hx : exec i s = ctlWord i rs body s)
    (hb : body s.cur.bank s = .trap c x) : Traps i s .c c x := by
  unfold Traps; rw [hx, ctlWord_ready h hl, hb]; rfl

end Sys2Proof.Machine
end

