-- ==== Sys2Proof/Laws/Decode.lean ====
section
/-! SUPPORT. The decoder, one tag and one opcode at a time: what it reads from a word of each opcode, and the facts
about fields of which round trips are made. -/

namespace Sys2Proof

/-- Decoding an instruction's word, in numbers. -/
theorem decodeWord_encode {i : Instr} (h : encodeNat i < 2 ^ 32) :
    decodeWord (encode i) = decodeNat (encodeNat i) := by
  simp only [decodeWord, encode, BitVec.toNat_ofNat, Nat.mod_eq_of_lt h]

/-- A field of a word holds a value whose bits stand there. -/
theorem fieldAt_eq {n w lo : Nat} {x : BitVec n} (h : w / 2 ^ lo % 2 ^ n = x.toNat) : fieldAt n w lo = x := by
  apply BitVec.eq_of_toNat_eq; simpa [fieldAt] using h

theorem decodeNat_ctl {w : Nat} (h : tagOf w = 0) : decodeNat w = decodeCtl w := by
  unfold decodeNat; rw [h]; rfl
theorem decodeNat_mem {w : Nat} (h : tagOf w = 1) : decodeNat w = decodeMem w := by
  unfold decodeNat; rw [h]; rfl
theorem decodeNat_vec {w : Nat} (h : tagOf w = 2) : decodeNat w = decodeVec w := by
  unfold decodeNat; rw [h]; rfl
theorem decodeNat_mat {w : Nat} (h : tagOf w = 3) : decodeNat w = decodeMat w := by
  unfold decodeNat; rw [h]; rfl
theorem decodeNat_xfr {w : Nat} (h : tagOf w = 4) : decodeNat w = decodeXfr w := by
  unfold decodeNat; rw [h]; rfl
theorem decodeNat_hdr {w : Nat} (h : tagOf w = 5) : decodeNat w = decodeHdr w := by
  unfold decodeNat; rw [h]; rfl
theorem decodeNat_pfx {w : Nat} (h : tagOf w = 6) : decodeNat w = decodePfx w := by
  unfold decodeNat; rw [h]; rfl

theorem decodeCtl_0 {w : Nat} (h : bitsOf w 28 24 = 0) : decodeCtl w =
    if bitsOf w 11 0 = 25 then some (.clz (fieldAt 6 w 18) (fieldAt 6 w 12))
    else if bitsOf w 11 0 = 26 then some (.ctz (fieldAt 6 w 18) (fieldAt 6 w 12))
    else if bitsOf w 11 0 = 27 then some (.popc (fieldAt 6 w 18) (fieldAt 6 w 12))
    else if bitsOf w 11 0 = 28 then some (.bswap (fieldAt 6 w 18) (fieldAt 6 w 12))
    else if bitsOf w 5 0 = 0 then some (.add (fieldAt 6 w 18) (fieldAt 6 w 12) (fieldAt 6 w 6))
    else if bitsOf w 5 0 = 1 then some (.sub (fieldAt 6 w 18) (fieldAt 6 w 12) (fieldAt 6 w 6))
    else if bitsOf w 5 0 = 2 then some (.and (fieldAt 6 w 18) (fieldAt 6 w 12) (fieldAt 6 w 6))
    else if bitsOf w 5 0 = 3 then some (.or (fieldAt 6 w 18) (fieldAt 6 w 12) (fieldAt 6 w 6))
    else if bitsOf w 5 0 = 4 then some (.xor (fieldAt 6 w 18) (fieldAt 6 w 12) (fieldAt 6 w 6))
    else if bitsOf w 5 0 = 5 then some (.andn (fieldAt 6 w 18) (fieldAt 6 w 12) (fieldAt 6 w 6))
    else if bitsOf w 5 0 = 6 then some (.orn (fieldAt 6 w 18) (fieldAt 6 w 12) (fieldAt 6 w 6))
    else if bitsOf w 5 0 = 7 then some (.sll (fieldAt 6 w 18) (fieldAt 6 w 12) (fieldAt 6 w 6))
    else if bitsOf w 5 0 = 8 then some (.srl (fieldAt 6 w 18) (fieldAt 6 w 12) (fieldAt 6 w 6))
    else if bitsOf w 5 0 = 9 then some (.sra (fieldAt 6 w 18) (fieldAt 6 w 12) (fieldAt 6 w 6))
    else if bitsOf w 5 0 = 10 then some (.rol (fieldAt 6 w 18) (fieldAt 6 w 12) (fieldAt 6 w 6))
    else if bitsOf w 5 0 = 11 then some (.ror (fieldAt 6 w 18) (fieldAt 6 w 12) (fieldAt 6 w 6))
    else if bitsOf w 5 0 = 12 then some (.mul (fieldAt 6 w 18) (fieldAt 6 w 12) (fieldAt 6 w 6))
    else if bitsOf w 5 0 = 13 then some (.mulh (fieldAt 6 w 18) (fieldAt 6 w 12) (fieldAt 6 w 6))
    else if bitsOf w 5 0 = 14 then some (.mulhu (fieldAt 6 w 18) (fieldAt 6 w 12) (fieldAt 6 w 6))
    else if bitsOf w 5 0 = 15 then some (.div (fieldAt 6 w 18) (fieldAt 6 w 12) (fieldAt 6 w 6))
    else if bitsOf w 5 0 = 16 then some (.divu (fieldAt 6 w 18) (fieldAt 6 w 12) (fieldAt 6 w 6))
    else if bitsOf w 5 0 = 17 then some (.rem (fieldAt 6 w 18) (fieldAt 6 w 12) (fieldAt 6 w 6))
    else if bitsOf w 5 0 = 18 then some (.remu (fieldAt 6 w 18) (fieldAt 6 w 12) (fieldAt 6 w 6))
    else if bitsOf w 5 0 = 19 then some (.min (fieldAt 6 w 18) (fieldAt 6 w 12) (fieldAt 6 w 6))
    else if bitsOf w 5 0 = 20 then some (.max (fieldAt 6 w 18) (fieldAt 6 w 12) (fieldAt 6 w 6))
    else if bitsOf w 5 0 = 21 then some (.minu (fieldAt 6 w 18) (fieldAt 6 w 12) (fieldAt 6 w 6))
    else if bitsOf w 5 0 = 22 then some (.maxu (fieldAt 6 w 18) (fieldAt 6 w 12) (fieldAt 6 w 6))
    else if bitsOf w 5 0 = 23 then some (.adds (fieldAt 6 w 18) (fieldAt 6 w 12) (fieldAt 6 w 6))
    else if bitsOf w 5 0 = 24 then some (.subs (fieldAt 6 w 18) (fieldAt 6 w 12) (fieldAt 6 w 6))
    else none := by
  unfold decodeCtl; rw [h]; rfl
theorem decodeCtl_1 {w : Nat} (h : bitsOf w 28 24 = 1) : decodeCtl w =
    some (.addi (fieldAt 6 w 18) (fieldAt 6 w 12) (fieldAt 12 w 0)) := by
  unfold decodeCtl; rw [h]; rfl
theorem decodeCtl_2 {w : Nat} (h : bitsOf w 28 24 = 2) : decodeCtl w =
    some (.andi (fieldAt 6 w 18) (fieldAt 6 w 12) (fieldAt 12 w 0)) := by
  unfold decodeCtl; rw [h]; rfl
theorem decodeCtl_3 {w : Nat} (h : bitsOf w 28 24 = 3) : decodeCtl w =
    some (.ori (fieldAt 6 w 18) (fieldAt 6 w 12) (fieldAt 12 w 0)) := by
  unfold decodeCtl; rw [h]; rfl
theorem decodeCtl_4 {w : Nat} (h : bitsOf w 28 24 = 4) : decodeCtl w =
    some (.xori (fieldAt 6 w 18) (fieldAt 6 w 12) (fieldAt 12 w 0)) := by
  unfold decodeCtl; rw [h]; rfl
theorem decodeCtl_5 {w : Nat} (h : bitsOf w 28 24 = 5) : decodeCtl w =
    if bitsOf w 7 6 = 0 then some (.shi (fieldAt 6 w 18) (fieldAt 6 w 12) (fieldAt 4 w 8) (fieldAt 6 w 0))
    else none := by
  unfold decodeCtl; rw [h]; rfl
theorem decodeCtl_6 {w : Nat} (h : bitsOf w 28 24 = 6) : decodeCtl w =
    some (.movw (fieldAt 6 w 18) (fieldAt 2 w 16) (fieldAt 16 w 0)) := by
  unfold decodeCtl; rw [h]; rfl
theorem decodeCtl_7 {w : Nat} (h : bitsOf w 28 24 = 7) : decodeCtl w =
    some (.movk (fieldAt 6 w 18) (fieldAt 2 w 16) (fieldAt 16 w 0)) := by
  unfold decodeCtl; rw [h]; rfl
theorem decodeCtl_8 {w : Nat} (h : bitsOf w 28 24 = 8) : decodeCtl w =
    some (.cmp (fieldAt 4 w 20) (fieldAt 6 w 14) (fieldAt 6 w 8) (fieldAt 4 w 4) (fieldAt 4 w 0)) := by
  unfold decodeCtl; rw [h]; rfl
theorem decodeCtl_9 {w : Nat} (h : bitsOf w 28 24 = 9) : decodeCtl w =
    some (.cmpi (fieldAt 4 w 20) (fieldAt 6 w 14) (fieldAt 4 w 10) (fieldAt 10 w 0)) := by
  unfold decodeCtl; rw [h]; rfl
theorem decodeCtl_10 {w : Nat} (h : bitsOf w 28 24 = 10) : decodeCtl w =
    some (.plog (fieldAt 4 w 20) (fieldAt 6 w 14) (fieldAt 6 w 8) (fieldAt 4 w 4) (fieldAt 4 w 0)) := by
  unfold decodeCtl; rw [h]; rfl
theorem decodeCtl_11 {w : Nat} (h : bitsOf w 28 24 = 11) : decodeCtl w =
    if bitsOf w 5 5 = 0 then some (.sel (fieldAt 6 w 18) (fieldAt 6 w 12) (fieldAt 6 w 6) (fieldAt 1 w 4) (fieldAt 4 w 0))
    else none := by
  unfold decodeCtl; rw [h]; rfl
theorem decodeCtl_12 {w : Nat} (h : bitsOf w 28 24 = 12) : decodeCtl w =
    some (.br (fieldAt 4 w 20) (fieldAt 1 w 19) (fieldAt 19 w 0)) := by
  unfold decodeCtl; rw [h]; rfl
theorem decodeCtl_13 {w : Nat} (h : bitsOf w 28 24 = 13) : decodeCtl w =
    some (.jal (fieldAt 4 w 20) (fieldAt 1 w 19) (fieldAt 19 w 0)) := by
  unfold decodeCtl; rw [h]; rfl
theorem decodeCtl_14 {w : Nat} (h : bitsOf w 28 24 = 14) : decodeCtl w =
    some (.jalr (fieldAt 6 w 18) (fieldAt 6 w 12) (fieldAt 12 w 0)) := by
  unfold decodeCtl; rw [h]; rfl
theorem decodeCtl_15 {w : Nat} (h : bitsOf w 28 24 = 15) : decodeCtl w =
    if bitsOf w 11 0 = 0 ∧ bitsOf w 23 18 = 0 then some (.qmovCq (fieldAt 6 w 12))
    else if bitsOf w 17 0 = 1 then some (.qmovVq (fieldAt 6 w 18))
    else if bitsOf w 11 0 = 2 ∧ bitsOf w 23 18 = 0 then some (.qmovXq (fieldAt 6 w 12))
    else if bitsOf w 5 0 = 3 ∧ bitsOf w 23 18 = 0 then some (.qmovMq (fieldAt 6 w 12) (fieldAt 6 w 6))
    else none := by
  unfold decodeCtl; rw [h]; rfl
theorem decodeCtl_16 {w : Nat} (h : bitsOf w 28 24 = 16) : decodeCtl w =
    if bitsOf w 2 0 = 0 then some (.engreq (fieldAt 6 w 18) (fieldAt 6 w 12) (fieldAt 6 w 6) (fieldAt 3 w 3))
    else none := by
  unfold decodeCtl; rw [h]; rfl
theorem decodeCtl_17 {w : Nat} (h : bitsOf w 28 24 = 17) : decodeCtl w =
    if bitsOf w 5 0 = 2 ∧ bitsOf w 23 12 = 0 then some (.engctlUnhold (fieldAt 6 w 6))
    else if bitsOf w 11 0 = 0 then some (.engctlQuery (fieldAt 6 w 18) (fieldAt 6 w 12))
    else if bitsOf w 11 0 = 1 then some (.engctlAbandon (fieldAt 6 w 18) (fieldAt 6 w 12))
    else none := by
  unfold decodeCtl; rw [h]; rfl
theorem decodeCtl_18 {w : Nat} (h : bitsOf w 28 24 = 18) : decodeCtl w =
    if bitsOf w 23 0 = 8 then some (.pwrRel)
    else if bitsOf w 17 3 = 0 then some (.pwrAcq (fieldAt 6 w 18) (fieldAt 3 w 0))
    else none := by
  unfold decodeCtl; rw [h]; rfl
theorem decodeCtl_19 {w : Nat} (h : bitsOf w 28 24 = 19) : decodeCtl w =
    if bitsOf w 23 4 = 2 then some (.flagInc (fieldAt 4 w 0))
    else if bitsOf w 17 4 = 0 then some (.flagRd (fieldAt 6 w 18) (fieldAt 4 w 0))
    else if bitsOf w 11 4 = 1 ∧ bitsOf w 23 18 = 0 then some (.flagWr (fieldAt 6 w 12) (fieldAt 4 w 0))
    else if bitsOf w 11 4 = 3 ∧ bitsOf w 23 18 = 0 then some (.flagAdd (fieldAt 6 w 12) (fieldAt 4 w 0))
    else none := by
  unfold decodeCtl; rw [h]; rfl
theorem decodeCtl_20 {w : Nat} (h : bitsOf w 28 24 = 20) : decodeCtl w =
    if bitsOf w 3 3 = 0 ∧ bitsOf w 23 8 = 0 then some (.bar (fieldAt 4 w 4) (fieldAt 3 w 0))
    else if bitsOf w 3 3 = 1 ∧ bitsOf w 17 8 = 0 then some (.barSplit (fieldAt 6 w 18) (fieldAt 4 w 4) (fieldAt 3 w 0))
    else none := by
  unfold decodeCtl; rw [h]; rfl
theorem decodeCtl_21 {w : Nat} (h : bitsOf w 28 24 = 21) : decodeCtl w =
    if bitsOf w 23 5 = 0 then some (.fence (fieldAt 3 w 2) (fieldAt 2 w 0))
    else none := by
  unfold decodeCtl; rw [h]; rfl
theorem decodeCtl_22 {w : Nat} (h : bitsOf w 28 24 = 22) : decodeCtl w =
    if bitsOf w 5 0 = 0 then some (.launch (fieldAt 6 w 18) (fieldAt 6 w 12) (fieldAt 6 w 6))
    else none := by
  unfold decodeCtl; rw [h]; rfl
theorem decodeCtl_23 {w : Nat} (h : bitsOf w 28 24 = 23) : decodeCtl w =
    if bitsOf w 23 0 = 0 then some (.yield)
    else if bitsOf w 23 0 = 262144 then some (.trapfence)
    else if bitsOf w 23 0 = 786432 then some (.tret)
    else if bitsOf w 23 0 = 1310720 then some (.exit)
    else if bitsOf w 23 6 = 16384 then some (.intr (fieldAt 6 w 0))
    else if bitsOf w 23 18 = 2 then some (.trap (fieldAt 6 w 12) (fieldAt 12 w 0))
    else none := by
  unfold decodeCtl; rw [h]; rfl
theorem decodeCtl_24 {w : Nat} (h : bitsOf w 28 24 = 24) : decodeCtl w =
    some (.csr (fieldAt 6 w 18) (fieldAt 6 w 12) (fieldAt 12 w 0)) := by
  unfold decodeCtl; rw [h]; rfl
theorem decodeCtl_25 {w : Nat} (h : bitsOf w 28 24 = 25) : decodeCtl w =
    if bitsOf w 11 0 = 0 then some (.cntRd (fieldAt 6 w 18) (fieldAt 6 w 12))
    else if bitsOf w 11 0 = 1 then some (.cntSnap (fieldAt 6 w 18) (fieldAt 6 w 12))
    else if bitsOf w 11 0 = 2 then some (.cntRdGrp (fieldAt 6 w 18) (fieldAt 6 w 12))
    else if bitsOf w 11 0 = 3 then some (.cntSnapGrp (fieldAt 6 w 18) (fieldAt 6 w 12))
    else if bitsOf w 11 0 = 4 then some (.cntOvf (fieldAt 6 w 18) (fieldAt 6 w 12))
    else if bitsOf w 11 0 = 5 then some (.cntOvfSnap (fieldAt 6 w 18) (fieldAt 6 w 12))
    else none := by
  unfold decodeCtl; rw [h]; rfl
theorem decodeCtl_26 {w : Nat} (h : bitsOf w 28 24 = 26) : decodeCtl w =
    if bitsOf w 17 0 = 0 then some (.rand (fieldAt 6 w 18))
    else if bitsOf w 11 0 = 1 then some (.randBelow (fieldAt 6 w 18) (fieldAt 6 w 12))
    else none := by
  unfold decodeCtl; rw [h]; rfl
theorem decodeCtl_27 {w : Nat} (h : bitsOf w 28 24 = 27) : decodeCtl w =
    if bitsOf w 11 0 = 2 then some (.runbind (fieldAt 6 w 18) (fieldAt 6 w 12))
    else if bitsOf w 5 0 = 0 then some (.rbind (fieldAt 6 w 18) (fieldAt 6 w 12) (fieldAt 6 w 6))
    else if bitsOf w 5 0 = 1 then some (.radd (fieldAt 6 w 18) (fieldAt 6 w 12) (fieldAt 6 w 6))
    else none := by
  unfold decodeCtl; rw [h]; rfl
theorem decodeCtl_28 {w : Nat} (h : bitsOf w 28 24 = 28) : decodeCtl w =
    some (.madd (fieldAt 6 w 18) (fieldAt 6 w 12) (fieldAt 6 w 6) (fieldAt 6 w 0)) := by
  unfold decodeCtl; rw [h]; rfl
theorem decodeCtl_29 {w : Nat} (h : bitsOf w 28 24 = 29) : decodeCtl w =
    some (.bitf (fieldAt 6 w 18) (fieldAt 6 w 12) (fieldAt 6 w 6) (fieldAt 6 w 0)) := by
  unfold decodeCtl; rw [h]; rfl
theorem decodeMem_0 {w : Nat} (h : bitsOf w 28 24 = 0) : decodeMem w =
    some (.ld (fieldAt 6 w 18) (fieldAt 6 w 12) (fieldAt 2 w 10) (fieldAt 10 w 0)) := by
  unfold decodeMem; rw [h]; rfl
theorem decodeMem_1 {w : Nat} (h : bitsOf w 28 24 = 1) : decodeMem w =
    some (.ldz (fieldAt 6 w 18) (fieldAt 6 w 12) (fieldAt 2 w 10) (fieldAt 10 w 0)) := by
  unfold decodeMem; rw [h]; rfl
theorem decodeMem_2 {w : Nat} (h : bitsOf w 28 24 = 2) : decodeMem w =
    some (.st (fieldAt 6 w 18) (fieldAt 6 w 12) (fieldAt 2 w 10) (fieldAt 10 w 0)) := by
  unfold decodeMem; rw [h]; rfl
theorem decodeMem_3 {w : Nat} (h : bitsOf w 28 24 = 3) : decodeMem w =
    some (.ldq (fieldAt 3 w 21) (fieldAt 1 w 20) (fieldAt 2 w 18) (fieldAt 6 w 12) (fieldAt 12 w 0)) := by
  unfold decodeMem; rw [h]; rfl
theorem decodeMem_4 {w : Nat} (h : bitsOf w 28 24 = 4) : decodeMem w =
    some (.stq (fieldAt 3 w 21) (fieldAt 1 w 20) (fieldAt 2 w 18) (fieldAt 6 w 12) (fieldAt 12 w 0)) := by
  unfold decodeMem; rw [h]; rfl
theorem decodeMem_5 {w : Nat} (h : bitsOf w 28 24 = 5) : decodeMem w =
    some (.amo (fieldAt 6 w 18) (fieldAt 6 w 12) (fieldAt 6 w 6) (fieldAt 4 w 2) (fieldAt 2 w 0)) := by
  unfold decodeMem; rw [h]; rfl
theorem decodeMem_6 {w : Nat} (h : bitsOf w 28 24 = 6) : decodeMem w =
    some (.cas (fieldAt 6 w 18) (fieldAt 6 w 12) (fieldAt 6 w 6) (fieldAt 4 w 2) (fieldAt 2 w 0)) := by
  unfold decodeMem; rw [h]; rfl
theorem decodeMem_7 {w : Nat} (h : bitsOf w 28 24 = 7) : decodeMem w =
    if bitsOf w 11 2 = 0 then some (.scopLd (fieldAt 6 w 18) (fieldAt 6 w 12) (fieldAt 2 w 0))
    else if bitsOf w 5 2 = 1 ∧ bitsOf w 23 18 = 0 then some (.scopSt (fieldAt 6 w 12) (fieldAt 6 w 6) (fieldAt 2 w 0))
    else some (.scopRmw (fieldAt 6 w 18) (fieldAt 6 w 12) (fieldAt 6 w 6) (fieldAt 4 w 2) (fieldAt 2 w 0)) := by
  unfold decodeMem; rw [h]; rfl
theorem decodeMem_8 {w : Nat} (h : bitsOf w 28 24 = 8) : decodeMem w =
    if bitsOf w 11 10 = 3 then some (.ldref (fieldAt 6 w 18) (fieldAt 6 w 12) (fieldAt 10 w 0))
    else none := by
  unfold decodeMem; rw [h]; rfl
theorem decodeMem_9 {w : Nat} (h : bitsOf w 28 24 = 9) : decodeMem w =
    if bitsOf w 11 10 = 3 then some (.stref (fieldAt 6 w 18) (fieldAt 6 w 12) (fieldAt 10 w 0))
    else none := by
  unfold decodeMem; rw [h]; rfl
theorem decodeMem_10 {w : Nat} (h : bitsOf w 28 24 = 10) : decodeMem w =
    if bitsOf w 5 4 = 0 then some (.pmake (fieldAt 6 w 18) (fieldAt 6 w 12) (fieldAt 6 w 6) (fieldAt 4 w 0))
    else none := by
  unfold decodeMem; rw [h]; rfl
theorem decodeMem_11 {w : Nat} (h : bitsOf w 28 24 = 11) : decodeMem w =
    if bitsOf w 0 0 = 0 then some (.post (fieldAt 6 w 18) (fieldAt 3 w 15) (fieldAt 3 w 12) (fieldAt 3 w 9) (fieldAt 4 w 5) (fieldAt 4 w 1))
    else none := by
  unfold decodeMem; rw [h]; rfl
theorem decodeMem_12 {w : Nat} (h : bitsOf w 28 24 = 12) : decodeMem w =
    if bitsOf w 11 4 = 0 ∧ bitsOf w 23 21 = 0 then some (.pclaim (fieldAt 3 w 18) (fieldAt 6 w 12) (fieldAt 4 w 0))
    else none := by
  unfold decodeMem; rw [h]; rfl
theorem decodeMem_13 {w : Nat} (h : bitsOf w 28 24 = 13) : decodeMem w =
    if bitsOf w 5 0 = 1 ∧ bitsOf w 23 9 = 0 then some (.pctlFree (fieldAt 3 w 6))
    else if bitsOf w 5 0 = 0 ∧ bitsOf w 17 9 = 0 then some (.pctlQuery (fieldAt 6 w 18) (fieldAt 3 w 6))
    else if bitsOf w 5 0 = 2 ∧ bitsOf w 11 9 = 0 ∧ bitsOf w 23 18 = 0 then some (.pctlSet (fieldAt 6 w 12) (fieldAt 3 w 6))
    else if bitsOf w 5 0 = 3 ∧ bitsOf w 17 9 = 0 then some (.pctlGet (fieldAt 6 w 18) (fieldAt 3 w 6))
    else none := by
  unfold decodeMem; rw [h]; rfl
theorem decodeMem_14 {w : Nat} (h : bitsOf w 28 24 = 14) : decodeMem w =
    if bitsOf w 11 3 = 0 ∧ bitsOf w 23 18 = 0 then some (.mpush (fieldAt 6 w 12) (fieldAt 3 w 0))
    else none := by
  unfold decodeMem; rw [h]; rfl
theorem decodeMem_15 {w : Nat} (h : bitsOf w 28 24 = 15) : decodeMem w =
    if bitsOf w 23 18 = 0 then some (.pfetch (fieldAt 6 w 12) (fieldAt 2 w 10) (fieldAt 10 w 0))
    else none := by
  unfold decodeMem; rw [h]; rfl
theorem decodeMem_16 {w : Nat} (h : bitsOf w 28 24 = 16) : decodeMem w =
    if bitsOf w 23 18 = 0 then some (.cacheDrop (fieldAt 6 w 12) (fieldAt 2 w 10) (fieldAt 10 w 0))
    else if bitsOf w 23 18 = 1 then some (.cacheDemote (fieldAt 6 w 12) (fieldAt 2 w 10) (fieldAt 10 w 0))
    else none := by
  unfold decodeMem; rw [h]; rfl
theorem decodeMem_17 {w : Nat} (h : bitsOf w 28 24 = 17) : decodeMem w =
    if bitsOf w 23 0 = 1 then some (.tktWait)
    else if bitsOf w 17 0 = 0 then some (.tktCnt (fieldAt 6 w 18))
    else if bitsOf w 11 0 = 2 then some (.tktRd (fieldAt 6 w 18) (fieldAt 6 w 12))
    else none := by
  unfold decodeMem; rw [h]; rfl
theorem decodeMem_18 {w : Nat} (h : bitsOf w 28 24 = 18) : decodeMem w =
    if bitsOf w 5 0 = 1 ∧ bitsOf w 11 9 = 0 ∧ bitsOf w 23 18 = 0 then some (.grantSet (fieldAt 6 w 12) (fieldAt 3 w 6))
    else if bitsOf w 5 0 = 2 ∧ bitsOf w 17 9 = 0 then some (.grantGet (fieldAt 6 w 18) (fieldAt 3 w 6))
    else if bitsOf w 5 0 = 0 then some (.grantMint (fieldAt 6 w 18) (fieldAt 6 w 12) (fieldAt 6 w 6))
    else none := by
  unfold decodeMem; rw [h]; rfl
theorem decodeMem_19 {w : Nat} (h : bitsOf w 28 24 = 19) : decodeMem w =
    if bitsOf w 23 0 = 2 then some (.tlbopAll)
    else if bitsOf w 17 0 = 1 then some (.tlbopTen (fieldAt 6 w 18))
    else if bitsOf w 5 0 = 0 then some (.tlbopRng (fieldAt 6 w 18) (fieldAt 6 w 12) (fieldAt 6 w 6))
    else none := by
  unfold decodeMem; rw [h]; rfl
theorem decodeMem_20 {w : Nat} (h : bitsOf w 28 24 = 20) : decodeMem w =
    if bitsOf w 5 0 = 0 then some (.dirtySnap (fieldAt 6 w 18) (fieldAt 6 w 12) (fieldAt 6 w 6))
    else if bitsOf w 5 0 = 1 then some (.dirtyRd (fieldAt 6 w 18) (fieldAt 6 w 12) (fieldAt 6 w 6))
    else none := by
  unfold decodeMem; rw [h]; rfl
theorem decodeVec_0 {w : Nat} (h : bitsOf w 28 24 = 0) : decodeVec w =
    some (.vadd (fieldAt 6 w 18) (fieldAt 6 w 12) (fieldAt 6 w 6) (fieldAt 3 w 3) (fieldAt 3 w 0)) := by
  unfold decodeVec; rw [h]; rfl
theorem decodeVec_1 {w : Nat} (h : bitsOf w 28 24 = 1) : decodeVec w =
    some (.vsub (fieldAt 6 w 18) (fieldAt 6 w 12) (fieldAt 6 w 6) (fieldAt 3 w 3) (fieldAt 3 w 0)) := by
  unfold decodeVec; rw [h]; rfl
theorem decodeVec_2 {w : Nat} (h : bitsOf w 28 24 = 2) : decodeVec w =
    some (.vmul (fieldAt 6 w 18) (fieldAt 6 w 12) (fieldAt 6 w 6) (fieldAt 3 w 3) (fieldAt 3 w 0)) := by
  unfold decodeVec; rw [h]; rfl
theorem decodeVec_3 {w : Nat} (h : bitsOf w 28 24 = 3) : decodeVec w =
    some (.vfma (fieldAt 6 w 18) (fieldAt 6 w 12) (fieldAt 6 w 6) (fieldAt 3 w 3) (fieldAt 3 w 0)) := by
  unfold decodeVec; rw [h]; rfl
theorem decodeVec_4 {w : Nat} (h : bitsOf w 28 24 = 4) : decodeVec w =
    some (.vmin (fieldAt 6 w 18) (fieldAt 6 w 12) (fieldAt 6 w 6) (fieldAt 3 w 3) (fieldAt 3 w 0)) := by
  unfold decodeVec; rw [h]; rfl
theorem decodeVec_5 {w : Nat} (h : bitsOf w 28 24 = 5) : decodeVec w =
    some (.vmax (fieldAt 6 w 18) (fieldAt 6 w 12) (fieldAt 6 w 6) (fieldAt 3 w 3) (fieldAt 3 w 0)) := by
  unfold decodeVec; rw [h]; rfl
theorem decodeVec_6 {w : Nat} (h : bitsOf w 28 24 = 6) : decodeVec w =
    if bitsOf w 11 6 = 0 then some (.vun (fieldAt 6 w 18) (fieldAt 6 w 12) (fieldAt 3 w 3) (fieldAt 3 w 0))
    else none := by
  unfold decodeVec; rw [h]; rfl
theorem decodeVec_7 {w : Nat} (h : bitsOf w 28 24 = 7) : decodeVec w =
    some (.vcmp (fieldAt 6 w 18) (fieldAt 6 w 12) (fieldAt 6 w 6) (fieldAt 3 w 3) (fieldAt 3 w 0)) := by
  unfold decodeVec; rw [h]; rfl
theorem decodeVec_8 {w : Nat} (h : bitsOf w 28 24 = 8) : decodeVec w =
    if bitsOf w 2 0 = 0 then some (.vsel (fieldAt 6 w 18) (fieldAt 6 w 12) (fieldAt 6 w 6) (fieldAt 3 w 3))
    else none := by
  unfold decodeVec; rw [h]; rfl
theorem decodeVec_9 {w : Nat} (h : bitsOf w 28 24 = 9) : decodeVec w =
    some (.vlog (fieldAt 6 w 18) (fieldAt 6 w 12) (fieldAt 6 w 6) (fieldAt 3 w 3) (fieldAt 3 w 0)) := by
  unfold decodeVec; rw [h]; rfl
theorem decodeVec_10 {w : Nat} (h : bitsOf w 28 24 = 10) : decodeVec w =
    some (.vshf (fieldAt 6 w 18) (fieldAt 6 w 12) (fieldAt 6 w 6) (fieldAt 3 w 3) (fieldAt 3 w 0)) := by
  unfold decodeVec; rw [h]; rfl
theorem decodeVec_11 {w : Nat} (h : bitsOf w 28 24 = 11) : decodeVec w =
    some (.vcvt (fieldAt 6 w 18) (fieldAt 6 w 12) (fieldAt 6 w 6) (fieldAt 3 w 3) (fieldAt 3 w 0)) := by
  unfold decodeVec; rw [h]; rfl
theorem decodeVec_12 {w : Nat} (h : bitsOf w 28 24 = 12) : decodeVec w =
    some (.vscale (fieldAt 6 w 18) (fieldAt 6 w 12) (fieldAt 6 w 6) (fieldAt 3 w 3) (fieldAt 3 w 0)) := by
  unfold decodeVec; rw [h]; rfl
theorem decodeVec_13 {w : Nat} (h : bitsOf w 28 24 = 13) : decodeVec w =
    if bitsOf w 11 6 = 0 then some (.vred (fieldAt 6 w 18) (fieldAt 6 w 12) (fieldAt 3 w 3) (fieldAt 3 w 0))
    else none := by
  unfold decodeVec; rw [h]; rfl
theorem decodeVec_14 {w : Nat} (h : bitsOf w 28 24 = 14) : decodeVec w =
    if bitsOf w 11 6 = 0 then some (.vscan (fieldAt 6 w 18) (fieldAt 6 w 12) (fieldAt 3 w 3) (fieldAt 3 w 0))
    else none := by
  unfold decodeVec; rw [h]; rfl
theorem decodeVec_15 {w : Nat} (h : bitsOf w 28 24 = 15) : decodeVec w =
    some (.vperm (fieldAt 6 w 18) (fieldAt 6 w 12) (fieldAt 6 w 6) (fieldAt 3 w 3) (fieldAt 3 w 0)) := by
  unfold decodeVec; rw [h]; rfl
theorem decodeVec_16 {w : Nat} (h : bitsOf w 28 24 = 16) : decodeVec w =
    some (.vslide (fieldAt 6 w 18) (fieldAt 6 w 12) (fieldAt 6 w 6) (fieldAt 3 w 3) (fieldAt 3 w 0)) := by
  unfold decodeVec; rw [h]; rfl
theorem decodeVec_17 {w : Nat} (h : bitsOf w 28 24 = 17) : decodeVec w =
    some (.vbcast (fieldAt 6 w 18) (fieldAt 6 w 12) (fieldAt 6 w 6) (fieldAt 3 w 3) (fieldAt 3 w 0)) := by
  unfold decodeVec; rw [h]; rfl
theorem decodeVec_18 {w : Nat} (h : bitsOf w 28 24 = 18) : decodeVec w =
    if bitsOf w 2 0 = 0 ∧ bitsOf w 11 6 = 0 then some (.vmov (fieldAt 6 w 18) (fieldAt 6 w 12) (fieldAt 3 w 3))
    else none := by
  unfold decodeVec; rw [h]; rfl
theorem decodeVec_19 {w : Nat} (h : bitsOf w 28 24 = 19) : decodeVec w =
    if bitsOf w 11 0 = 4 then some (.vmskLd (fieldAt 6 w 18) (fieldAt 6 w 12))
    else if bitsOf w 11 0 = 5 then some (.vmskSt (fieldAt 6 w 18) (fieldAt 6 w 12))
    else if bitsOf w 11 0 = 6 then some (.vmskPop (fieldAt 6 w 18) (fieldAt 6 w 12))
    else if bitsOf w 5 2 = 0 then some (.vmskLogic (fieldAt 6 w 18) (fieldAt 6 w 12) (fieldAt 6 w 6) (fieldAt 2 w 0))
    else none := by
  unfold decodeVec; rw [h]; rfl
theorem decodeVec_20 {w : Nat} (h : bitsOf w 28 24 = 20) : decodeVec w =
    some (.vsh (fieldAt 6 w 18) (fieldAt 6 w 12) (fieldAt 6 w 6) (fieldAt 3 w 3) (fieldAt 3 w 0)) := by
  unfold decodeVec; rw [h]; rfl
theorem decodeVec_21 {w : Nat} (h : bitsOf w 28 24 = 21) : decodeVec w =
    if bitsOf w 5 0 = 0 then some (.vtag (fieldAt 6 w 18) (fieldAt 6 w 12) (fieldAt 6 w 6))
    else none := by
  unfold decodeVec; rw [h]; rfl
theorem decodeVec_22 {w : Nat} (h : bitsOf w 28 24 = 22) : decodeVec w =
    if bitsOf w 11 8 = 0 then some (.vacc (fieldAt 6 w 18) (fieldAt 6 w 12) (fieldAt 1 w 7) (fieldAt 1 w 6) (fieldAt 3 w 3) (fieldAt 3 w 0))
    else none := by
  unfold decodeVec; rw [h]; rfl
theorem decodeVec_23 {w : Nat} (h : bitsOf w 28 24 = 23) : decodeVec w =
    if bitsOf w 23 18 = 0 then some (.vhist (fieldAt 6 w 12) (fieldAt 6 w 6) (fieldAt 3 w 3) (fieldAt 3 w 0))
    else none := by
  unfold decodeVec; rw [h]; rfl
theorem decodeVec_24 {w : Nat} (h : bitsOf w 28 24 = 24) : decodeVec w =
    if bitsOf w 11 6 = 0 then some (.vfn (fieldAt 6 w 18) (fieldAt 6 w 12) (fieldAt 3 w 3) (fieldAt 3 w 0))
    else none := by
  unfold decodeVec; rw [h]; rfl
theorem decodeVec_25 {w : Nat} (h : bitsOf w 28 24 = 25) : decodeVec w =
    if bitsOf w 17 12 = 0 then some (.viota (fieldAt 6 w 18) (fieldAt 6 w 6) (fieldAt 3 w 3) (fieldAt 3 w 0))
    else none := by
  unfold decodeVec; rw [h]; rfl
theorem decodeVec_26 {w : Nat} (h : bitsOf w 28 24 = 26) : decodeVec w =
    if bitsOf w 2 0 = 0 then some (.vclamp (fieldAt 6 w 18) (fieldAt 6 w 12) (fieldAt 6 w 6) (fieldAt 3 w 3))
    else none := by
  unfold decodeVec; rw [h]; rfl
theorem decodeVec_27 {w : Nat} (h : bitsOf w 28 24 = 27) : decodeVec w =
    some (.vtrn (fieldAt 6 w 18) (fieldAt 6 w 12) (fieldAt 6 w 6) (fieldAt 3 w 3) (fieldAt 3 w 0)) := by
  unfold decodeVec; rw [h]; rfl
theorem decodeMat_0 {w : Nat} (h : bitsOf w 28 24 = 0) : decodeMat w =
    if bitsOf w 5 3 = 0 then some (.mma (fieldAt 6 w 18) (fieldAt 6 w 12) (fieldAt 6 w 6) (fieldAt 1 w 2) (fieldAt 1 w 1) (fieldAt 1 w 0))
    else none := by
  unfold decodeMat; rw [h]; rfl
theorem decodeMat_1 {w : Nat} (h : bitsOf w 28 24 = 1) : decodeMat w =
    if bitsOf w 17 0 = 0 then some (.mzero (fieldAt 6 w 18))
    else if bitsOf w 17 0 = 1 then some (.mzeroT (fieldAt 6 w 18))
    else none := by
  unfold decodeMat; rw [h]; rfl
theorem decodeMat_2 {w : Nat} (h : bitsOf w 28 24 = 2) : decodeMat w =
    if bitsOf w 17 10 = 0 then some (.manch (fieldAt 6 w 18) (fieldAt 10 w 0))
    else none := by
  unfold decodeMat; rw [h]; rfl
theorem decodeMat_3 {w : Nat} (h : bitsOf w 28 24 = 3) : decodeMat w =
    if bitsOf w 1 0 = 0 then some (.mshape (fieldAt 7 w 17) (fieldAt 7 w 10) (fieldAt 8 w 2))
    else none := by
  unfold decodeMat; rw [h]; rfl
theorem decodeMat_4 {w : Nat} (h : bitsOf w 28 24 = 4) : decodeMat w =
    if bitsOf w 11 0 = 0 then some (.mfmt (fieldAt 6 w 18) (fieldAt 6 w 12))
    else none := by
  unfold decodeMat; rw [h]; rfl
theorem decodeMat_5 {w : Nat} (h : bitsOf w 28 24 = 5) : decodeMat w =
    if bitsOf w 5 2 = 0 ∧ bitsOf w 11 9 = 0 then some (.mldt (fieldAt 6 w 18) (fieldAt 6 w 12) (fieldAt 3 w 6) (fieldAt 2 w 0))
    else none := by
  unfold decodeMat; rw [h]; rfl
theorem decodeMat_6 {w : Nat} (h : bitsOf w 28 24 = 6) : decodeMat w =
    if bitsOf w 5 4 = 0 ∧ bitsOf w 11 7 = 0 ∧ bitsOf w 23 23 = 0 then some (.msta (fieldAt 1 w 22) (fieldAt 4 w 18) (fieldAt 6 w 12) (fieldAt 1 w 6) (fieldAt 1 w 3) (fieldAt 3 w 0))
    else none := by
  unfold decodeMat; rw [h]; rfl
theorem decodeMat_7 {w : Nat} (h : bitsOf w 28 24 = 7) : decodeMat w =
    if bitsOf w 17 2 = 0 ∧ bitsOf w 23 23 = 0 then some (.mchk (fieldAt 1 w 22) (fieldAt 4 w 18) (fieldAt 1 w 1) (fieldAt 1 w 0))
    else none := by
  unfold decodeMat; rw [h]; rfl
theorem decodeMat_8 {w : Nat} (h : bitsOf w 28 24 = 8) : decodeMat w =
    if bitsOf w 11 0 = 0 then some (.mmov (fieldAt 6 w 18) (fieldAt 6 w 12))
    else if bitsOf w 5 4 = 1 ∧ bitsOf w 11 7 = 0 then some (.mmovFmt (fieldAt 6 w 18) (fieldAt 6 w 12) (fieldAt 1 w 6) (fieldAt 1 w 3) (fieldAt 3 w 0))
    else none := by
  unfold decodeMat; rw [h]; rfl
theorem decodeMat_9 {w : Nat} (h : bitsOf w 28 24 = 9) : decodeMat w =
    if bitsOf w 17 0 = 0 ∧ bitsOf w 23 19 = 0 then some (.mscl (fieldAt 1 w 18))
    else if bitsOf w 17 0 = 1 ∧ bitsOf w 23 19 = 0 then some (.msclOne (fieldAt 1 w 18))
    else none := by
  unfold decodeMat; rw [h]; rfl
theorem decodeXfr_0 {w : Nat} (h : bitsOf w 28 24 = 0) : decodeXfr w =
    if bitsOf w 17 3 = 0 then some (.xset (fieldAt 6 w 18) (fieldAt 3 w 0))
    else none := by
  unfold decodeXfr; rw [h]; rfl
theorem decodeXfr_1 {w : Nat} (h : bitsOf w 28 24 = 1) : decodeXfr w =
    if bitsOf w 11 0 = 0 ∧ bitsOf w 17 14 = 0 ∧ bitsOf w 23 23 = 0 then some (.xgo (fieldAt 1 w 22) (fieldAt 4 w 18) (fieldAt 2 w 12))
    else none := by
  unfold decodeXfr; rw [h]; rfl
theorem decodeXfr_2 {w : Nat} (h : bitsOf w 28 24 = 2) : decodeXfr w =
    if bitsOf w 23 0 = 0 then some (.xclr)
    else if bitsOf w 23 0 = 1 then some (.xclrDrop)
    else none := by
  unfold decodeXfr; rw [h]; rfl

end Sys2Proof
end

