-- ==== Sys2Proof/Laws/Memory.lean ====
section
/-! SUPPORT. The memory lists: a read after a write, and the canonical form that every operation keeps. -/

namespace Sys2Proof.Machine

open Sys2Proof

/-! ### Reads after writes -/

theorem Memory.read_write_ne (m : Memory) {a c : Nat} (b : Byte) (h : c ≠ a) : (m.write a b).read c = m.read c := by
  induction m with
  | nil =>
    unfold Memory.write; split
    · rfl
    · simp [Memory.read, Ne.symm h]
  | cons p rest ih =>
    obtain ⟨k, v⟩ := p
    simp only [Memory.write]
    split
    · rename_i hk; subst hk
      split
      · simp [Memory.read, Ne.symm h]
      · simp [Memory.read, Ne.symm h]
    · split
      · split
        · rfl
        · simp [Memory.read, Ne.symm h]
      · simp only [Memory.read, ih]

theorem Memory.wfFrom_tail {lo : Option Nat} {k : Nat} {v : Byte} {rest : Memory}
    (h : Memory.wfFrom lo ((k, v) :: rest) = true) : Memory.wfFrom (some k) rest = true := by
  simp only [Memory.wfFrom, Bool.and_eq_true] at h; exact h.2

theorem Memory.read_below {m : Memory} {lo a : Nat} (h : Memory.wfFrom (some lo) m = true) (ha : a ≤ lo) :
    m.read a = Memory.unlisted := by
  induction m generalizing lo with
  | nil => rfl
  | cons p rest ih =>
    obtain ⟨k, v⟩ := p
    simp only [Memory.wfFrom, Bool.and_eq_true, decide_eq_true_eq] at h
    have : k ≠ a := by omega
    simp only [Memory.read, this, if_false]
    exact ih h.2 (by omega)

theorem Memory.read_write_same {m : Memory} {lo : Option Nat} (h : Memory.wfFrom lo m = true) (a : Nat) (b : Byte) :
    (m.write a b).read a = b := by
  induction m generalizing lo with
  | nil =>
    unfold Memory.write; split
    · rename_i hb; simp [Memory.read, hb]
    · simp [Memory.read]
  | cons p rest ih =>
    obtain ⟨k, v⟩ := p
    have ht := Memory.wfFrom_tail h
    simp only [Memory.write]
    split
    · rename_i hk; subst hk
      split
      · rename_i hb; rw [hb]; exact Memory.read_below ht (Nat.le_refl _)
      · simp [Memory.read]
    · rename_i hk
      split
      · rename_i hlt
        split
        · rename_i hb; simp only [Memory.read, hk, if_false]; rw [hb]
          exact Memory.read_below ht (by omega)
        · simp [Memory.read]
      · simp only [Memory.read, hk, if_false]; exact ih ht

/-! ### The canonical form -/

theorem Memory.wfFrom_weaken {m : Memory} {lo lo' : Nat} (h : Memory.wfFrom (some lo') m = true) (hl : lo ≤ lo') :
    Memory.wfFrom (some lo) m = true := by
  cases m with
  | nil => rfl
  | cons p rest =>
    obtain ⟨k, v⟩ := p
    simp only [Memory.wfFrom, Bool.and_eq_true, decide_eq_true_eq] at h ⊢
    exact ⟨⟨by omega, h.1.2⟩, h.2⟩

theorem Memory.wfFrom_none {m : Memory} {lo : Nat} (h : Memory.wfFrom (some lo) m = true) :
    Memory.wfFrom none m = true := by
  cases m with
  | nil => rfl
  | cons p rest =>
    obtain ⟨k, v⟩ := p
    simp only [Memory.wfFrom, Bool.and_eq_true] at h ⊢
    exact ⟨⟨trivial, h.1.2⟩, h.2⟩

theorem Memory.wfFrom_write {m : Memory} {lo : Option Nat} (h : Memory.wfFrom lo m = true) {a : Nat} (b : Byte)
    (ha : ∀ l, lo = some l → l < a) : Memory.wfFrom lo (m.write a b) = true := by
  induction m generalizing lo with
  | nil =>
    unfold Memory.write; split
    · rfl
    · rename_i hb
      cases lo with
      | none => simp [Memory.wfFrom, hb]
      | some l => simp [Memory.wfFrom, hb, ha l rfl]
  | cons p rest ih =>
    obtain ⟨k, v⟩ := p
    have ht := Memory.wfFrom_tail h
    simp only [Memory.write]
    split
    · rename_i hk; subst hk
      split
      · cases lo with
        | none => exact Memory.wfFrom_none ht
        | some l => exact Memory.wfFrom_weaken ht (Nat.le_of_lt (ha l rfl))
      · rename_i hb
        cases lo with
        | none => simp [Memory.wfFrom, hb, ht]
        | some l => simp [Memory.wfFrom, hb, ht, ha l rfl]
    · rename_i hk
      split
      · rename_i hlt
        split
        · exact h
        · rename_i hb
          simp only [Memory.wfFrom, Bool.and_eq_true, decide_eq_true_eq] at h ⊢
          refine ⟨⟨?_, hb⟩, ⟨hlt, h.1.2⟩, h.2⟩
          cases lo with
          | none => rfl
          | some l => simpa using ha l rfl
      · rename_i hlt
        have := ih ht (fun l hl => by cases hl; omega)
        simp only [Memory.wfFrom, Bool.and_eq_true, decide_eq_true_eq] at h ⊢
        exact ⟨h.1, this⟩

/-- Writing a byte keeps the canonical form. -/
theorem Memory.wf_write {m : Memory} (h : m.wf = true) (a : Nat) (b : Byte) : (m.write a b).wf = true :=
  Memory.wfFrom_write h b (fun _ hl => by cases hl)

/-- Writing bytes keeps the canonical form. -/
theorem Memory.wf_writeN {m : Memory} (h : m.wf = true) (a : Nat) (bs : List Byte) : (m.writeN a bs).wf = true := by
  induction bs generalizing m a with
  | nil => exact h
  | cons b rest ih => exact ih (Memory.wf_write h a b) (a + 1)

/-- Dropping entries keeps the canonical form. -/
theorem Memory.wfFrom_filter {m : Memory} {lo : Option Nat} (h : Memory.wfFrom lo m = true) (p : Host.Cell → Bool) :
    Memory.wfFrom lo (m.filter p) = true := by
  induction m generalizing lo with
  | nil => rfl
  | cons c rest ih =>
    obtain ⟨k, v⟩ := c
    have ht := ih (Memory.wfFrom_tail h)
    by_cases hp : p (k, v) = true
    · rw [List.filter_cons_of_pos hp]
      simp only [Memory.wfFrom, Bool.and_eq_true] at h ⊢
      exact ⟨h.1, ht⟩
    · rw [List.filter_cons_of_neg hp]
      cases lo with
      | none => exact Memory.wfFrom_none ht
      | some l =>
        simp only [Memory.wfFrom, Bool.and_eq_true, decide_eq_true_eq] at h
        exact Memory.wfFrom_weaken ht (Nat.le_of_lt h.1.1)

theorem Memory.wf_filter {m : Memory} (h : m.wf = true) (p : Host.Cell → Bool) : Memory.wf (m.filter p) = true :=
  Memory.wfFrom_filter h p

/-- The byte at an address outside a run of written bytes is unchanged. -/
theorem Memory.read_writeN_out (m : Memory) (a c : Nat) (bs : List Byte) (h : c < a ∨ a + bs.length ≤ c) :
    (m.writeN a bs).read c = m.read c := by
  induction bs generalizing m a with
  | nil => rfl
  | cons b rest ih =>
    simp only [Memory.writeN]
    simp only [List.length_cons] at h
    rw [ih (m.write a b) (a + 1) (by omega), Memory.read_write_ne m b (by omega)]

/-- Each byte of a run reads as written. -/
theorem Memory.read_writeN_in {m : Memory} (hm : m.wf = true) (a i : Nat) (bs : List Byte) (h : i < bs.length) :
    (m.writeN a bs).read (a + i) = bs[i] := by
  induction bs generalizing m a i with
  | nil => simp at h
  | cons b rest ih =>
    simp only [Memory.writeN]
    cases i with
    | zero =>
      simp only [Nat.add_zero, List.getElem_cons_zero]
      rw [Memory.read_writeN_out _ _ _ _ (by omega)]
      exact Memory.read_write_same hm a b
    | succ j =>
      rw [show a + (j + 1) = a + 1 + j by omega]
      simpa using ih (Memory.wf_write hm a b) (a + 1) j (by simpa using h)

/-- Writing bytes one by one keeps the canonical form. -/
theorem Memory.wf_foldl_write {m : Memory} (h : m.wf = true) (cs : List Host.Cell) (f : Host.Cell → Nat) :
    (cs.foldl (fun t c => t.write (f c) c.2) m).wf = true := by
  induction cs generalizing m with
  | nil => exact h
  | cons c rest ih => exact ih (Memory.wf_write h _ _)

/-- A change of quad modes keeps the canonical form. -/
theorem Memory.wf_remode {m : Memory} (h : m.wf = true) (n old new : Nat) : (m.remode n old new).wf = true :=
  Memory.wf_foldl_write (Memory.wf_filter h _) _ _

/-- The state after reset holds its memories in canonical form. -/
theorem State.reset_memories : State.reset.mem.wf = true ∧ State.reset.scr.wf = true := by decide

end Sys2Proof.Machine
end

