-- ==== Sys2Proof/Laws/PerInstr.lean ====
section
/-! SUPPORT. The round trip of every instruction: the word of a well-formed instruction decodes to it. -/

set_option Elab.async false

namespace Sys2Proof.Laws.RoundTrip

open Sys2Proof

/-- The word of a well-formed instruction decodes to that instruction, with every operand. -/
def Statement (i : Instr) : Prop := i.wf = true → decodeWord (encode i) = some i

theorem add (d : BitVec 6) (a : BitVec 6) (b : BitVec 6) : Statement (.add d a b) := by
  intro _
  have := d.isLt; have := a.isLt; have := b.isLt
  have hw : encodeNat (.add d a b) = 0x00000000 + d.toNat * 2 ^ 18 + a.toNat * 2 ^ 12 + b.toNat * 2 ^ 6 := rfl
  rw [decodeWord_encode (by omega)]
  generalize encodeNat (.add d a b) = enc at hw ⊢
  rw [decodeNat_ctl (by simp only [tagOf, bitsOf]; omega), decodeCtl_0 (by simp only [bitsOf]; omega)]
  have f : bitsOf enc 5 0 = 0 := by simp only [bitsOf]; omega
  rw [if_neg (by simp only [bitsOf]; omega), if_neg (by simp only [bitsOf]; omega), if_neg (by simp only [bitsOf]; omega), if_neg (by simp only [bitsOf]; omega)]
  rw [if_pos f]
  rw [fieldAt_eq (x := d) (by omega),
    fieldAt_eq (x := a) (by omega),
    fieldAt_eq (x := b) (by omega)]
theorem sub (d : BitVec 6) (a : BitVec 6) (b : BitVec 6) : Statement (.sub d a b) := by
  intro _
  have := d.isLt; have := a.isLt; have := b.isLt
  have hw : encodeNat (.sub d a b) = 0x00000001 + d.toNat * 2 ^ 18 + a.toNat * 2 ^ 12 + b.toNat * 2 ^ 6 := rfl
  rw [decodeWord_encode (by omega)]
  generalize encodeNat (.sub d a b) = enc at hw ⊢
  rw [decodeNat_ctl (by simp only [tagOf, bitsOf]; omega), decodeCtl_0 (by simp only [bitsOf]; omega)]
  have f : bitsOf enc 5 0 = 1 := by simp only [bitsOf]; omega
  rw [if_neg (by simp only [bitsOf]; omega), if_neg (by simp only [bitsOf]; omega), if_neg (by simp only [bitsOf]; omega), if_neg (by simp only [bitsOf]; omega)]
  rw [if_neg (by rw [f]; decide), if_pos f]
  rw [fieldAt_eq (x := d) (by omega),
    fieldAt_eq (x := a) (by omega),
    fieldAt_eq (x := b) (by omega)]
theorem and (d : BitVec 6) (a : BitVec 6) (b : BitVec 6) : Statement (.and d a b) := by
  intro _
  have := d.isLt; have := a.isLt; have := b.isLt
  have hw : encodeNat (.and d a b) = 0x00000002 + d.toNat * 2 ^ 18 + a.toNat * 2 ^ 12 + b.toNat * 2 ^ 6 := rfl
  rw [decodeWord_encode (by omega)]
  generalize encodeNat (.and d a b) = enc at hw ⊢
  rw [decodeNat_ctl (by simp only [tagOf, bitsOf]; omega), decodeCtl_0 (by simp only [bitsOf]; omega)]
  have f : bitsOf enc 5 0 = 2 := by simp only [bitsOf]; omega
  rw [if_neg (by simp only [bitsOf]; omega), if_neg (by simp only [bitsOf]; omega), if_neg (by simp only [bitsOf]; omega), if_neg (by simp only [bitsOf]; omega)]
  rw [if_neg (by rw [f]; decide), if_neg (by rw [f]; decide), if_pos f]
  rw [fieldAt_eq (x := d) (by omega),
    fieldAt_eq (x := a) (by omega),
    fieldAt_eq (x := b) (by omega)]
theorem or (d : BitVec 6) (a : BitVec 6) (b : BitVec 6) : Statement (.or d a b) := by
  intro _
  have := d.isLt; have := a.isLt; have := b.isLt
  have hw : encodeNat (.or d a b) = 0x00000003 + d.toNat * 2 ^ 18 + a.toNat * 2 ^ 12 + b.toNat * 2 ^ 6 := rfl
  rw [decodeWord_encode (by omega)]
  generalize encodeNat (.or d a b) = enc at hw ⊢
  rw [decodeNat_ctl (by simp only [tagOf, bitsOf]; omega), decodeCtl_0 (by simp only [bitsOf]; omega)]
  have f : bitsOf enc 5 0 = 3 := by simp only [bitsOf]; omega
  rw [if_neg (by simp only [bitsOf]; omega), if_neg (by simp only [bitsOf]; omega), if_neg (by simp only [bitsOf]; omega), if_neg (by simp only [bitsOf]; omega)]
  rw [if_neg (by rw [f]; decide), if_neg (by rw [f]; decide), if_neg (by rw [f]; decide), if_pos f]
  rw [fieldAt_eq (x := d) (by omega),
    fieldAt_eq (x := a) (by omega),
    fieldAt_eq (x := b) (by omega)]
theorem xor (d : BitVec 6) (a : BitVec 6) (b : BitVec 6) : Statement (.xor d a b) := by
  intro _
  have := d.isLt; have := a.isLt; have := b.isLt
  have hw : encodeNat (.xor d a b) = 0x00000004 + d.toNat * 2 ^ 18 + a.toNat * 2 ^ 12 + b.toNat * 2 ^ 6 := rfl
  rw [decodeWord_encode (by omega)]
  generalize encodeNat (.xor d a b) = enc at hw ⊢
  rw [decodeNat_ctl (by simp only [tagOf, bitsOf]; omega), decodeCtl_0 (by simp only [bitsOf]; omega)]
  have f : bitsOf enc 5 0 = 4 := by simp only [bitsOf]; omega
  rw [if_neg (by simp only [bitsOf]; omega), if_neg (by simp only [bitsOf]; omega), if_neg (by simp only [bitsOf]; omega), if_neg (by simp only [bitsOf]; omega)]
  rw [if_neg (by rw [f]; decide), if_neg (by rw [f]; decide), if_neg (by rw [f]; decide), if_neg (by rw [f]; decide)]
  rw [if_pos f]
  rw [fieldAt_eq (x := d) (by omega),
    fieldAt_eq (x := a) (by omega),
    fieldAt_eq (x := b) (by omega)]
theorem andn (d : BitVec 6) (a : BitVec 6) (b : BitVec 6) : Statement (.andn d a b) := by
  intro _
  have := d.isLt; have := a.isLt; have := b.isLt
  have hw : encodeNat (.andn d a b) = 0x00000005 + d.toNat * 2 ^ 18 + a.toNat * 2 ^ 12 + b.toNat * 2 ^ 6 := rfl
  rw [decodeWord_encode (by omega)]
  generalize encodeNat (.andn d a b) = enc at hw ⊢
  rw [decodeNat_ctl (by simp only [tagOf, bitsOf]; omega), decodeCtl_0 (by simp only [bitsOf]; omega)]
  have f : bitsOf enc 5 0 = 5 := by simp only [bitsOf]; omega
  rw [if_neg (by simp only [bitsOf]; omega), if_neg (by simp only [bitsOf]; omega), if_neg (by simp only [bitsOf]; omega), if_neg (by simp only [bitsOf]; omega)]
  rw [if_neg (by rw [f]; decide), if_neg (by rw [f]; decide), if_neg (by rw [f]; decide), if_neg (by rw [f]; decide)]
  rw [if_neg (by rw [f]; decide), if_pos f]
  rw [fieldAt_eq (x := d) (by omega),
    fieldAt_eq (x := a) (by omega),
    fieldAt_eq (x := b) (by omega)]
theorem orn (d : BitVec 6) (a : BitVec 6) (b : BitVec 6) : Statement (.orn d a b) := by
  intro _
  have := d.isLt; have := a.isLt; have := b.isLt
  have hw : encodeNat (.orn d a b) = 0x00000006 + d.toNat * 2 ^ 18 + a.toNat * 2 ^ 12 + b.toNat * 2 ^ 6 := rfl
  rw [decodeWord_encode (by omega)]
  generalize encodeNat (.orn d a b) = enc at hw ⊢
  rw [decodeNat_ctl (by simp only [tagOf, bitsOf]; omega), decodeCtl_0 (by simp only [bitsOf]; omega)]
  have f : bitsOf enc 5 0 = 6 := by simp only [bitsOf]; omega
  rw [if_neg (by simp only [bitsOf]; omega), if_neg (by simp only [bitsOf]; omega), if_neg (by simp only [bitsOf]; omega), if_neg (by simp only [bitsOf]; omega)]
  rw [if_neg (by rw [f]; decide), if_neg (by rw [f]; decide), if_neg (by rw [f]; decide), if_neg (by rw [f]; decide)]
  rw [if_neg (by rw [f]; decide), if_neg (by rw [f]; decide), if_pos f]
  rw [fieldAt_eq (x := d) (by omega),
    fieldAt_eq (x := a) (by omega),
    fieldAt_eq (x := b) (by omega)]
theorem sll (d : BitVec 6) (a : BitVec 6) (b : BitVec 6) : Statement (.sll d a b) := by
  intro _
  have := d.isLt; have := a.isLt; have := b.isLt
  have hw : encodeNat (.sll d a b) = 0x00000007 + d.toNat * 2 ^ 18 + a.toNat * 2 ^ 12 + b.toNat * 2 ^ 6 := rfl
  rw [decodeWord_encode (by omega)]
  generalize encodeNat (.sll d a b) = enc at hw ⊢
  rw [decodeNat_ctl (by simp only [tagOf, bitsOf]; omega), decodeCtl_0 (by simp only [bitsOf]; omega)]
  have f : bitsOf enc 5 0 = 7 := by simp only [bitsOf]; omega
  rw [if_neg (by simp only [bitsOf]; omega), if_neg (by simp only [bitsOf]; omega), if_neg (by simp only [bitsOf]; omega), if_neg (by simp only [bitsOf]; omega)]
  rw [if_neg (by rw [f]; decide), if_neg (by rw [f]; decide), if_neg (by rw [f]; decide), if_neg (by rw [f]; decide)]
  rw [if_neg (by rw [f]; decide), if_neg (by rw [f]; decide), if_neg (by rw [f]; decide), if_pos f]
  rw [fieldAt_eq (x := d) (by omega),
    fieldAt_eq (x := a) (by omega),
    fieldAt_eq (x := b) (by omega)]
theorem srl (d : BitVec 6) (a : BitVec 6) (b : BitVec 6) : Statement (.srl d a b) := by
  intro _
  have := d.isLt; have := a.isLt; have := b.isLt
  have hw : encodeNat (.srl d a b) = 0x00000008 + d.toNat * 2 ^ 18 + a.toNat * 2 ^ 12 + b.toNat * 2 ^ 6 := rfl
  rw [decodeWord_encode (by omega)]
  generalize encodeNat (.srl d a b) = enc at hw ⊢
  rw [decodeNat_ctl (by simp only [tagOf, bitsOf]; omega), decodeCtl_0 (by simp only [bitsOf]; omega)]
  have f : bitsOf enc 5 0 = 8 := by simp only [bitsOf]; omega
  rw [if_neg (by simp only [bitsOf]; omega), if_neg (by simp only [bitsOf]; omega), if_neg (by simp only [bitsOf]; omega), if_neg (by simp only [bitsOf]; omega)]
  rw [if_neg (by rw [f]; decide), if_neg (by rw [f]; decide), if_neg (by rw [f]; decide), if_neg (by rw [f]; decide)]
  rw [if_neg (by rw [f]; decide), if_neg (by rw [f]; decide), if_neg (by rw [f]; decide), if_neg (by rw [f]; decide)]
  rw [if_pos f]
  rw [fieldAt_eq (x := d) (by omega),
    fieldAt_eq (x := a) (by omega),
    fieldAt_eq (x := b) (by omega)]
theorem sra (d : BitVec 6) (a : BitVec 6) (b : BitVec 6) : Statement (.sra d a b) := by
  intro _
  have := d.isLt; have := a.isLt; have := b.isLt
  have hw : encodeNat (.sra d a b) = 0x00000009 + d.toNat * 2 ^ 18 + a.toNat * 2 ^ 12 + b.toNat * 2 ^ 6 := rfl
  rw [decodeWord_encode (by omega)]
  generalize encodeNat (.sra d a b) = enc at hw ⊢
  rw [decodeNat_ctl (by simp only [tagOf, bitsOf]; omega), decodeCtl_0 (by simp only [bitsOf]; omega)]
  have f : bitsOf enc 5 0 = 9 := by simp only [bitsOf]; omega
  rw [if_neg (by simp only [bitsOf]; omega), if_neg (by simp only [bitsOf]; omega), if_neg (by simp only [bitsOf]; omega), if_neg (by simp only [bitsOf]; omega)]
  rw [if_neg (by rw [f]; decide), if_neg (by rw [f]; decide), if_neg (by rw [f]; decide), if_neg (by rw [f]; decide)]
  rw [if_neg (by rw [f]; decide), if_neg (by rw [f]; decide), if_neg (by rw [f]; decide), if_neg (by rw [f]; decide)]
  rw [if_neg (by rw [f]; decide), if_pos f]
  rw [fieldAt_eq (x := d) (by omega),
    fieldAt_eq (x := a) (by omega),
    fieldAt_eq (x := b) (by omega)]
theorem rol (d : BitVec 6) (a : BitVec 6) (b : BitVec 6) : Statement (.rol d a b) := by
  intro _
  have := d.isLt; have := a.isLt; have := b.isLt
  have hw : encodeNat (.rol d a b) = 0x0000000A + d.toNat * 2 ^ 18 + a.toNat * 2 ^ 12 + b.toNat * 2 ^ 6 := rfl
  rw [decodeWord_encode (by omega)]
  generalize encodeNat (.rol d a b) = enc at hw ⊢
  rw [decodeNat_ctl (by simp only [tagOf, bitsOf]; omega), decodeCtl_0 (by simp only [bitsOf]; omega)]
  have f : bitsOf enc 5 0 = 10 := by simp only [bitsOf]; omega
  rw [if_neg (by simp only [bitsOf]; omega), if_neg (by simp only [bitsOf]; omega), if_neg (by simp only [bitsOf]; omega), if_neg (by simp only [bitsOf]; omega)]
  rw [if_neg (by rw [f]; decide), if_neg (by rw [f]; decide), if_neg (by rw [f]; decide), if_neg (by rw [f]; decide)]
  rw [if_neg (by rw [f]; decide), if_neg (by rw [f]; decide), if_neg (by rw [f]; decide), if_neg (by rw [f]; decide)]
  rw [if_neg (by rw [f]; decide), if_neg (by rw [f]; decide), if_pos f]
  rw [fieldAt_eq (x := d) (by omega),
    fieldAt_eq (x := a) (by omega),
    fieldAt_eq (x := b) (by omega)]
theorem ror (d : BitVec 6) (a : BitVec 6) (b : BitVec 6) : Statement (.ror d a b) := by
  intro _
  have := d.isLt; have := a.isLt; have := b.isLt
  have hw : encodeNat (.ror d a b) = 0x0000000B + d.toNat * 2 ^ 18 + a.toNat * 2 ^ 12 + b.toNat * 2 ^ 6 := rfl
  rw [decodeWord_encode (by omega)]
  generalize encodeNat (.ror d a b) = enc at hw ⊢
  rw [decodeNat_ctl (by simp only [tagOf, bitsOf]; omega), decodeCtl_0 (by simp only [bitsOf]; omega)]
  have f : bitsOf enc 5 0 = 11 := by simp only [bitsOf]; omega
  rw [if_neg (by simp only [bitsOf]; omega), if_neg (by simp only [bitsOf]; omega), if_neg (by simp only [bitsOf]; omega), if_neg (by simp only [bitsOf]; omega)]
  rw [if_neg (by rw [f]; decide), if_neg (by rw [f]; decide), if_neg (by rw [f]; decide), if_neg (by rw [f]; decide)]
  rw [if_neg (by rw [f]; decide), if_neg (by rw [f]; decide), if_neg (by rw [f]; decide), if_neg (by rw [f]; decide)]
  rw [if_neg (by rw [f]; decide), if_neg (by rw [f]; decide), if_neg (by rw [f]; decide), if_pos f]
  rw [fieldAt_eq (x := d) (by omega),
    fieldAt_eq (x := a) (by omega),
    fieldAt_eq (x := b) (by omega)]
theorem mul (d : BitVec 6) (a : BitVec 6) (b : BitVec 6) : Statement (.mul d a b) := by
  intro _
  have := d.isLt; have := a.isLt; have := b.isLt
  have hw : encodeNat (.mul d a b) = 0x0000000C + d.toNat * 2 ^ 18 + a.toNat * 2 ^ 12 + b.toNat * 2 ^ 6 := rfl
  rw [decodeWord_encode (by omega)]
  generalize encodeNat (.mul d a b) = enc at hw ⊢
  rw [decodeNat_ctl (by simp only [tagOf, bitsOf]; omega), decodeCtl_0 (by simp only [bitsOf]; omega)]
  have f : bitsOf enc 5 0 = 12 := by simp only [bitsOf]; omega
  rw [if_neg (by simp only [bitsOf]; omega), if_neg (by simp only [bitsOf]; omega), if_neg (by simp only [bitsOf]; omega), if_neg (by simp only [bitsOf]; omega)]
  rw [if_neg (by rw [f]; decide), if_neg (by rw [f]; decide), if_neg (by rw [f]; decide), if_neg (by rw [f]; decide)]
  rw [if_neg (by rw [f]; decide), if_neg (by rw [f]; decide), if_neg (by rw [f]; decide), if_neg (by rw [f]; decide)]
  rw [if_neg (by rw [f]; decide), if_neg (by rw [f]; decide), if_neg (by rw [f]; decide), if_neg (by rw [f]; decide)]
  rw [if_pos f]
  rw [fieldAt_eq (x := d) (by omega),
    fieldAt_eq (x := a) (by omega),
    fieldAt_eq (x := b) (by omega)]
theorem mulh (d : BitVec 6) (a : BitVec 6) (b : BitVec 6) : Statement (.mulh d a b) := by
  intro _
  have := d.isLt; have := a.isLt; have := b.isLt
  have hw : encodeNat (.mulh d a b) = 0x0000000D + d.toNat * 2 ^ 18 + a.toNat * 2 ^ 12 + b.toNat * 2 ^ 6 := rfl
  rw [decodeWord_encode (by omega)]
  generalize encodeNat (.mulh d a b) = enc at hw ⊢
  rw [decodeNat_ctl (by simp only [tagOf, bitsOf]; omega), decodeCtl_0 (by simp only [bitsOf]; omega)]
  have f : bitsOf enc 5 0 = 13 := by simp only [bitsOf]; omega
  rw [if_neg (by simp only [bitsOf]; omega), if_neg (by simp only [bitsOf]; omega), if_neg (by simp only [bitsOf]; omega), if_neg (by simp only [bitsOf]; omega)]
  rw [if_neg (by rw [f]; decide), if_neg (by rw [f]; decide), if_neg (by rw [f]; decide), if_neg (by rw [f]; decide)]
  rw [if_neg (by rw [f]; decide), if_neg (by rw [f]; decide), if_neg (by rw [f]; decide), if_neg (by rw [f]; decide)]
  rw [if_neg (by rw [f]; decide), if_neg (by rw [f]; decide), if_neg (by rw [f]; decide), if_neg (by rw [f]; decide)]
  rw [if_neg (by rw [f]; decide), if_pos f]
  rw [fieldAt_eq (x := d) (by omega),
    fieldAt_eq (x := a) (by omega),
    fieldAt_eq (x := b) (by omega)]
theorem mulhu (d : BitVec 6) (a : BitVec 6) (b : BitVec 6) : Statement (.mulhu d a b) := by
  intro _
  have := d.isLt; have := a.isLt; have := b.isLt
  have hw : encodeNat (.mulhu d a b) = 0x0000000E + d.toNat * 2 ^ 18 + a.toNat * 2 ^ 12 + b.toNat * 2 ^ 6 := rfl
  rw [decodeWord_encode (by omega)]
  generalize encodeNat (.mulhu d a b) = enc at hw ⊢
  rw [decodeNat_ctl (by simp only [tagOf, bitsOf]; omega), decodeCtl_0 (by simp only [bitsOf]; omega)]
  have f : bitsOf enc 5 0 = 14 := by simp only [bitsOf]; omega
  rw [if_neg (by simp only [bitsOf]; omega), if_neg (by simp only [bitsOf]; omega), if_neg (by simp only [bitsOf]; omega), if_neg (by simp only [bitsOf]; omega)]
  rw [if_neg (by rw [f]; decide), if_neg (by rw [f]; decide), if_neg (by rw [f]; decide), if_neg (by rw [f]; decide)]
  rw [if_neg (by rw [f]; decide), if_neg (by rw [f]; decide), if_neg (by rw [f]; decide), if_neg (by rw [f]; decide)]
  rw [if_neg (by rw [f]; decide), if_neg (by rw [f]; decide), if_neg (by rw [f]; decide), if_neg (by rw [f]; decide)]
  rw [if_neg (by rw [f]; decide), if_neg (by rw [f]; decide), if_pos f]
  rw [fieldAt_eq (x := d) (by omega),
    fieldAt_eq (x := a) (by omega),
    fieldAt_eq (x := b) (by omega)]
theorem div (d : BitVec 6) (a : BitVec 6) (b : BitVec 6) : Statement (.div d a b) := by
  intro _
  have := d.isLt; have := a.isLt; have := b.isLt
  have hw : encodeNat (.div d a b) = 0x0000000F + d.toNat * 2 ^ 18 + a.toNat * 2 ^ 12 + b.toNat * 2 ^ 6 := rfl
  rw [decodeWord_encode (by omega)]
  generalize encodeNat (.div d a b) = enc at hw ⊢
  rw [decodeNat_ctl (by simp only [tagOf, bitsOf]; omega), decodeCtl_0 (by simp only [bitsOf]; omega)]
  have f : bitsOf enc 5 0 = 15 := by simp only [bitsOf]; omega
  rw [if_neg (by simp only [bitsOf]; omega), if_neg (by simp only [bitsOf]; omega), if_neg (by simp only [bitsOf]; omega), if_neg (by simp only [bitsOf]; omega)]
  rw [if_neg (by rw [f]; decide), if_neg (by rw [f]; decide), if_neg (by rw [f]; decide), if_neg (by rw [f]; decide)]
  rw [if_neg (by rw [f]; decide), if_neg (by rw [f]; decide), if_neg (by rw [f]; decide), if_neg (by rw [f]; decide)]
  rw [if_neg (by rw [f]; decide), if_neg (by rw [f]; decide), if_neg (by rw [f]; decide), if_neg (by rw [f]; decide)]
  rw [if_neg (by rw [f]; decide), if_neg (by rw [f]; decide), if_neg (by rw [f]; decide), if_pos f]
  rw [fieldAt_eq (x := d) (by omega),
    fieldAt_eq (x := a) (by omega),
    fieldAt_eq (x := b) (by omega)]
theorem divu (d : BitVec 6) (a : BitVec 6) (b : BitVec 6) : Statement (.divu d a b) := by
  intro _
  have := d.isLt; have := a.isLt; have := b.isLt
  have hw : encodeNat (.divu d a b) = 0x00000010 + d.toNat * 2 ^ 18 + a.toNat * 2 ^ 12 + b.toNat * 2 ^ 6 := rfl
  rw [decodeWord_encode (by omega)]
  generalize encodeNat (.divu d a b) = enc at hw ⊢
  rw [decodeNat_ctl (by simp only [tagOf, bitsOf]; omega), decodeCtl_0 (by simp only [bitsOf]; omega)]
  have f : bitsOf enc 5 0 = 16 := by simp only [bitsOf]; omega
  rw [if_neg (by simp only [bitsOf]; omega), if_neg (by simp only [bitsOf]; omega), if_neg (by simp only [bitsOf]; omega), if_neg (by simp only [bitsOf]; omega)]
  rw [if_neg (by rw [f]; decide), if_neg (by rw [f]; decide), if_neg (by rw [f]; decide), if_neg (by rw [f]; decide)]
  rw [if_neg (by rw [f]; decide), if_neg (by rw [f]; decide), if_neg (by rw [f]; decide), if_neg (by rw [f]; decide)]
  rw [if_neg (by rw [f]; decide), if_neg (by rw [f]; decide), if_neg (by rw [f]; decide), if_neg (by rw [f]; decide)]
  rw [if_neg (by rw [f]; decide), if_neg (by rw [f]; decide), if_neg (by rw [f]; decide), if_neg (by rw [f]; decide)]
  rw [if_pos f]
  rw [fieldAt_eq (x := d) (by omega),
    fieldAt_eq (x := a) (by omega),
    fieldAt_eq (x := b) (by omega)]
theorem rem (d : BitVec 6) (a : BitVec 6) (b : BitVec 6) : Statement (.rem d a b) := by
  intro _
  have := d.isLt; have := a.isLt; have := b.isLt
  have hw : encodeNat (.rem d a b) = 0x00000011 + d.toNat * 2 ^ 18 + a.toNat * 2 ^ 12 + b.toNat * 2 ^ 6 := rfl
  rw [decodeWord_encode (by omega)]
  generalize encodeNat (.rem d a b) = enc at hw ⊢
  rw [decodeNat_ctl (by simp only [tagOf, bitsOf]; omega), decodeCtl_0 (by simp only [bitsOf]; omega)]
  have f : bitsOf enc 5 0 = 17 := by simp only [bitsOf]; omega
  rw [if_neg (by simp only [bitsOf]; omega), if_neg (by simp only [bitsOf]; omega), if_neg (by simp only [bitsOf]; omega), if_neg (by simp only [bitsOf]; omega)]
  rw [if_neg (by rw [f]; decide), if_neg (by rw [f]; decide), if_neg (by rw [f]; decide), if_neg (by rw [f]; decide)]
  rw [if_neg (by rw [f]; decide), if_neg (by rw [f]; decide), if_neg (by rw [f]; decide), if_neg (by rw [f]; decide)]
  rw [if_neg (by rw [f]; decide), if_neg (by rw [f]; decide), if_neg (by rw [f]; decide), if_neg (by rw [f]; decide)]
  rw [if_neg (by rw [f]; decide), if_neg (by rw [f]; decide), if_neg (by rw [f]; decide), if_neg (by rw [f]; decide)]
  rw [if_neg (by rw [f]; decide), if_pos f]
  rw [fieldAt_eq (x := d) (by omega),
    fieldAt_eq (x := a) (by omega),
    fieldAt_eq (x := b) (by omega)]
theorem remu (d : BitVec 6) (a : BitVec 6) (b : BitVec 6) : Statement (.remu d a b) := by
  intro _
  have := d.isLt; have := a.isLt; have := b.isLt
  have hw : encodeNat (.remu d a b) = 0x00000012 + d.toNat * 2 ^ 18 + a.toNat * 2 ^ 12 + b.toNat * 2 ^ 6 := rfl
  rw [decodeWord_encode (by omega)]
  generalize encodeNat (.remu d a b) = enc at hw ⊢
  rw [decodeNat_ctl (by simp only [tagOf, bitsOf]; omega), decodeCtl_0 (by simp only [bitsOf]; omega)]
  have f : bitsOf enc 5 0 = 18 := by simp only [bitsOf]; omega
  rw [if_neg (by simp only [bitsOf]; omega), if_neg (by simp only [bitsOf]; omega), if_neg (by simp only [bitsOf]; omega), if_neg (by simp only [bitsOf]; omega)]
  rw [if_neg (by rw [f]; decide), if_neg (by rw [f]; decide), if_neg (by rw [f]; decide), if_neg (by rw [f]; decide)]
  rw [if_neg (by rw [f]; decide), if_neg (by rw [f]; decide), if_neg (by rw [f]; decide), if_neg (by rw [f]; decide)]
  rw [if_neg (by rw [f]; decide), if_neg (by rw [f]; decide), if_neg (by rw [f]; decide), if_neg (by rw [f]; decide)]
  rw [if_neg (by rw [f]; decide), if_neg (by rw [f]; decide), if_neg (by rw [f]; decide), if_neg (by rw [f]; decide)]
  rw [if_neg (by rw [f]; decide), if_neg (by rw [f]; decide), if_pos f]
  rw [fieldAt_eq (x := d) (by omega),
    fieldAt_eq (x := a) (by omega),
    fieldAt_eq (x := b) (by omega)]
theorem min (d : BitVec 6) (a : BitVec 6) (b : BitVec 6) : Statement (.min d a b) := by
  intro _
  have := d.isLt; have := a.isLt; have := b.isLt
  have hw : encodeNat (.min d a b) = 0x00000013 + d.toNat * 2 ^ 18 + a.toNat * 2 ^ 12 + b.toNat * 2 ^ 6 := rfl
  rw [decodeWord_encode (by omega)]
  generalize encodeNat (.min d a b) = enc at hw ⊢
  rw [decodeNat_ctl (by simp only [tagOf, bitsOf]; omega), decodeCtl_0 (by simp only [bitsOf]; omega)]
  have f : bitsOf enc 5 0 = 19 := by simp only [bitsOf]; omega
  rw [if_neg (by simp only [bitsOf]; omega), if_neg (by simp only [bitsOf]; omega), if_neg (by simp only [bitsOf]; omega), if_neg (by simp only [bitsOf]; omega)]
  rw [if_neg (by rw [f]; decide), if_neg (by rw [f]; decide), if_neg (by rw [f]; decide), if_neg (by rw [f]; decide)]
  rw [if_neg (by rw [f]; decide), if_neg (by rw [f]; decide), if_neg (by rw [f]; decide), if_neg (by rw [f]; decide)]
  rw [if_neg (by rw [f]; decide), if_neg (by rw [f]; decide), if_neg (by rw [f]; decide), if_neg (by rw [f]; decide)]
  rw [if_neg (by rw [f]; decide), if_neg (by rw [f]; decide), if_neg (by rw [f]; decide), if_neg (by rw [f]; decide)]
  rw [if_neg (by rw [f]; decide), if_neg (by rw [f]; decide), if_neg (by rw [f]; decide), if_pos f]
  rw [fieldAt_eq (x := d) (by omega),
    fieldAt_eq (x := a) (by omega),
    fieldAt_eq (x := b) (by omega)]
theorem max (d : BitVec 6) (a : BitVec 6) (b : BitVec 6) : Statement (.max d a b) := by
  intro _
  have := d.isLt; have := a.isLt; have := b.isLt
  have hw : encodeNat (.max d a b) = 0x00000014 + d.toNat * 2 ^ 18 + a.toNat * 2 ^ 12 + b.toNat * 2 ^ 6 := rfl
  rw [decodeWord_encode (by omega)]
  generalize encodeNat (.max d a b) = enc at hw ⊢
  rw [decodeNat_ctl (by simp only [tagOf, bitsOf]; omega), decodeCtl_0 (by simp only [bitsOf]; omega)]
  have f : bitsOf enc 5 0 = 20 := by simp only [bitsOf]; omega
  rw [if_neg (by simp only [bitsOf]; omega), if_neg (by simp only [bitsOf]; omega), if_neg (by simp only [bitsOf]; omega), if_neg (by simp only [bitsOf]; omega)]
  rw [if_neg (by rw [f]; decide), if_neg (by rw [f]; decide), if_neg (by rw [f]; decide), if_neg (by rw [f]; decide)]
  rw [if_neg (by rw [f]; decide), if_neg (by rw [f]; decide), if_neg (by rw [f]; decide), if_neg (by rw [f]; decide)]
  rw [if_neg (by rw [f]; decide), if_neg (by rw [f]; decide), if_neg (by rw [f]; decide), if_neg (by rw [f]; decide)]
  rw [if_neg (by rw [f]; decide), if_neg (by rw [f]; decide), if_neg (by rw [f]; decide), if_neg (by rw [f]; decide)]
  rw [if_neg (by rw [f]; decide), if_neg (by rw [f]; decide), if_neg (by rw [f]; decide), if_neg (by rw [f]; decide)]
  rw [if_pos f]
  rw [fieldAt_eq (x := d) (by omega),
    fieldAt_eq (x := a) (by omega),
    fieldAt_eq (x := b) (by omega)]
theorem minu (d : BitVec 6) (a : BitVec 6) (b : BitVec 6) : Statement (.minu d a b) := by
  intro _
  have := d.isLt; have := a.isLt; have := b.isLt
  have hw : encodeNat (.minu d a b) = 0x00000015 + d.toNat * 2 ^ 18 + a.toNat * 2 ^ 12 + b.toNat * 2 ^ 6 := rfl
  rw [decodeWord_encode (by omega)]
  generalize encodeNat (.minu d a b) = enc at hw ⊢
  rw [decodeNat_ctl (by simp only [tagOf, bitsOf]; omega), decodeCtl_0 (by simp only [bitsOf]; omega)]
  have f : bitsOf enc 5 0 = 21 := by simp only [bitsOf]; omega
  rw [if_neg (by simp only [bitsOf]; omega), if_neg (by simp only [bitsOf]; omega), if_neg (by simp only [bitsOf]; omega), if_neg (by simp only [bitsOf]; omega)]
  rw [if_neg (by rw [f]; decide), if_neg (by rw [f]; decide), if_neg (by rw [f]; decide), if_neg (by rw [f]; decide)]
  rw [if_neg (by rw [f]; decide), if_neg (by rw [f]; decide), if_neg (by rw [f]; decide), if_neg (by rw [f]; decide)]
  rw [if_neg (by rw [f]; decide), if_neg (by rw [f]; decide), if_neg (by rw [f]; decide), if_neg (by rw [f]; decide)]
  rw [if_neg (by rw [f]; decide), if_neg (by rw [f]; decide), if_neg (by rw [f]; decide), if_neg (by rw [f]; decide)]
  rw [if_neg (by rw [f]; decide), if_neg (by rw [f]; decide), if_neg (by rw [f]; decide), if_neg (by rw [f]; decide)]
  rw [if_neg (by rw [f]; decide), if_pos f]
  rw [fieldAt_eq (x := d) (by omega),
    fieldAt_eq (x := a) (by omega),
    fieldAt_eq (x := b) (by omega)]
theorem maxu (d : BitVec 6) (a : BitVec 6) (b : BitVec 6) : Statement (.maxu d a b) := by
  intro _
  have := d.isLt; have := a.isLt; have := b.isLt
  have hw : encodeNat (.maxu d a b) = 0x00000016 + d.toNat * 2 ^ 18 + a.toNat * 2 ^ 12 + b.toNat * 2 ^ 6 := rfl
  rw [decodeWord_encode (by omega)]
  generalize encodeNat (.maxu d a b) = enc at hw ⊢
  rw [decodeNat_ctl (by simp only [tagOf, bitsOf]; omega), decodeCtl_0 (by simp only [bitsOf]; omega)]
  have f : bitsOf enc 5 0 = 22 := by simp only [bitsOf]; omega
  rw [if_neg (by simp only [bitsOf]; omega), if_neg (by simp only [bitsOf]; omega), if_neg (by simp only [bitsOf]; omega), if_neg (by simp only [bitsOf]; omega)]
  rw [if_neg (by rw [f]; decide), if_neg (by rw [f]; decide), if_neg (by rw [f]; decide), if_neg (by rw [f]; decide)]
  rw [if_neg (by rw [f]; decide), if_neg (by rw [f]; decide), if_neg (by rw [f]; decide), if_neg (by rw [f]; decide)]
  rw [if_neg (by rw [f]; decide), if_neg (by rw [f]; decide), if_neg (by rw [f]; decide), if_neg (by rw [f]; decide)]
  rw [if_neg (by rw [f]; decide), if_neg (by rw [f]; decide), if_neg (by rw [f]; decide), if_neg (by rw [f]; decide)]
  rw [if_neg (by rw [f]; decide), if_neg (by rw [f]; decide), if_neg (by rw [f]; decide), if_neg (by rw [f]; decide)]
  rw [if_neg (by rw [f]; decide), if_neg (by rw [f]; decide), if_pos f]
  rw [fieldAt_eq (x := d) (by omega),
    fieldAt_eq (x := a) (by omega),
    fieldAt_eq (x := b) (by omega)]
theorem adds (d : BitVec 6) (a : BitVec 6) (b : BitVec 6) : Statement (.adds d a b) := by
  intro _
  have := d.isLt; have := a.isLt; have := b.isLt
  have hw : encodeNat (.adds d a b) = 0x00000017 + d.toNat * 2 ^ 18 + a.toNat * 2 ^ 12 + b.toNat * 2 ^ 6 := rfl
  rw [decodeWord_encode (by omega)]
  generalize encodeNat (.adds d a b) = enc at hw ⊢
  rw [decodeNat_ctl (by simp only [tagOf, bitsOf]; omega), decodeCtl_0 (by simp only [bitsOf]; omega)]
  have f : bitsOf enc 5 0 = 23 := by simp only [bitsOf]; omega
  rw [if_neg (by simp only [bitsOf]; omega), if_neg (by simp only [bitsOf]; omega), if_neg (by simp only [bitsOf]; omega), if_neg (by simp only [bitsOf]; omega)]
  rw [if_neg (by rw [f]; decide), if_neg (by rw [f]; decide), if_neg (by rw [f]; decide), if_neg (by rw [f]; decide)]
  rw [if_neg (by rw [f]; decide), if_neg (by rw [f]; decide), if_neg (by rw [f]; decide), if_neg (by rw [f]; decide)]
  rw [if_neg (by rw [f]; decide), if_neg (by rw [f]; decide), if_neg (by rw [f]; decide), if_neg (by rw [f]; decide)]
  rw [if_neg (by rw [f]; decide), if_neg (by rw [f]; decide), if_neg (by rw [f]; decide), if_neg (by rw [f]; decide)]
  rw [if_neg (by rw [f]; decide), if_neg (by rw [f]; decide), if_neg (by rw [f]; decide), if_neg (by rw [f]; decide)]
  rw [if_neg (by rw [f]; decide), if_neg (by rw [f]; decide), if_neg (by rw [f]; decide), if_pos f]
  rw [fieldAt_eq (x := d) (by omega),
    fieldAt_eq (x := a) (by omega),
    fieldAt_eq (x := b) (by omega)]
theorem subs (d : BitVec 6) (a : BitVec 6) (b : BitVec 6) : Statement (.subs d a b) := by
  intro _
  have := d.isLt; have := a.isLt; have := b.isLt
  have hw : encodeNat (.subs d a b) = 0x00000018 + d.toNat * 2 ^ 18 + a.toNat * 2 ^ 12 + b.toNat * 2 ^ 6 := rfl
  rw [decodeWord_encode (by omega)]
  generalize encodeNat (.subs d a b) = enc at hw ⊢
  rw [decodeNat_ctl (by simp only [tagOf, bitsOf]; omega), decodeCtl_0 (by simp only [bitsOf]; omega)]
  have f : bitsOf enc 5 0 = 24 := by simp only [bitsOf]; omega
  rw [if_neg (by simp only [bitsOf]; omega), if_neg (by simp only [bitsOf]; omega), if_neg (by simp only [bitsOf]; omega), if_neg (by simp only [bitsOf]; omega)]
  rw [if_neg (by rw [f]; decide), if_neg (by rw [f]; decide), if_neg (by rw [f]; decide), if_neg (by rw [f]; decide)]
  rw [if_neg (by rw [f]; decide), if_neg (by rw [f]; decide), if_neg (by rw [f]; decide), if_neg (by rw [f]; decide)]
  rw [if_neg (by rw [f]; decide), if_neg (by rw [f]; decide), if_neg (by rw [f]; decide), if_neg (by rw [f]; decide)]
  rw [if_neg (by rw [f]; decide), if_neg (by rw [f]; decide), if_neg (by rw [f]; decide), if_neg (by rw [f]; decide)]
  rw [if_neg (by rw [f]; decide), if_neg (by rw [f]; decide), if_neg (by rw [f]; decide), if_neg (by rw [f]; decide)]
  rw [if_neg (by rw [f]; decide), if_neg (by rw [f]; decide), if_neg (by rw [f]; decide), if_neg (by rw [f]; decide)]
  rw [if_pos f]
  rw [fieldAt_eq (x := d) (by omega),
    fieldAt_eq (x := a) (by omega),
    fieldAt_eq (x := b) (by omega)]
theorem clz (d : BitVec 6) (a : BitVec 6) : Statement (.clz d a) := by
  intro _
  have := d.isLt; have := a.isLt
  have hw : encodeNat (.clz d a) = 0x00000019 + d.toNat * 2 ^ 18 + a.toNat * 2 ^ 12 := rfl
  rw [decodeWord_encode (by omega)]
  generalize encodeNat (.clz d a) = enc at hw ⊢
  rw [decodeNat_ctl (by simp only [tagOf, bitsOf]; omega), decodeCtl_0 (by simp only [bitsOf]; omega)]
  rw [if_pos (by simp only [bitsOf]; omega)]
  rw [fieldAt_eq (x := d) (by omega),
    fieldAt_eq (x := a) (by omega)]
theorem ctz (d : BitVec 6) (a : BitVec 6) : Statement (.ctz d a) := by
  intro _
  have := d.isLt; have := a.isLt
  have hw : encodeNat (.ctz d a) = 0x0000001A + d.toNat * 2 ^ 18 + a.toNat * 2 ^ 12 := rfl
  rw [decodeWord_encode (by omega)]
  generalize encodeNat (.ctz d a) = enc at hw ⊢
  rw [decodeNat_ctl (by simp only [tagOf, bitsOf]; omega), decodeCtl_0 (by simp only [bitsOf]; omega)]
  rw [if_neg (by simp only [bitsOf]; omega), if_pos (by simp only [bitsOf]; omega)]
  rw [fieldAt_eq (x := d) (by omega),
    fieldAt_eq (x := a) (by omega)]
theorem popc (d : BitVec 6) (a : BitVec 6) : Statement (.popc d a) := by
  intro _
  have := d.isLt; have := a.isLt
  have hw : encodeNat (.popc d a) = 0x0000001B + d.toNat * 2 ^ 18 + a.toNat * 2 ^ 12 := rfl
  rw [decodeWord_encode (by omega)]
  generalize encodeNat (.popc d a) = enc at hw ⊢
  rw [decodeNat_ctl (by simp only [tagOf, bitsOf]; omega), decodeCtl_0 (by simp only [bitsOf]; omega)]
  rw [if_neg (by simp only [bitsOf]; omega), if_neg (by simp only [bitsOf]; omega), if_pos (by simp only [bitsOf]; omega)]
  rw [fieldAt_eq (x := d) (by omega),
    fieldAt_eq (x := a) (by omega)]
theorem bswap (d : BitVec 6) (a : BitVec 6) : Statement (.bswap d a) := by
  intro _
  have := d.isLt; have := a.isLt
  have hw : encodeNat (.bswap d a) = 0x0000001C + d.toNat * 2 ^ 18 + a.toNat * 2 ^ 12 := rfl
  rw [decodeWord_encode (by omega)]
  generalize encodeNat (.bswap d a) = enc at hw ⊢
  rw [decodeNat_ctl (by simp only [tagOf, bitsOf]; omega), decodeCtl_0 (by simp only [bitsOf]; omega)]
  rw [if_neg (by simp only [bitsOf]; omega), if_neg (by simp only [bitsOf]; omega), if_neg (by simp only [bitsOf]; omega), if_pos (by simp only [bitsOf]; omega)]
  rw [fieldAt_eq (x := d) (by omega),
    fieldAt_eq (x := a) (by omega)]
theorem addi (d : BitVec 6) (a : BitVec 6) (i : BitVec 12) : Statement (.addi d a i) := by
  intro _
  have := d.isLt; have := a.isLt; have := i.isLt
  have hw : encodeNat (.addi d a i) = 0x01000000 + d.toNat * 2 ^ 18 + a.toNat * 2 ^ 12 + i.toNat * 2 ^ 0 := rfl
  rw [decodeWord_encode (by omega)]
  generalize encodeNat (.addi d a i) = enc at hw ⊢
  rw [decodeNat_ctl (by simp only [tagOf, bitsOf]; omega), decodeCtl_1 (by simp only [bitsOf]; omega)]
  rw [fieldAt_eq (x := d) (by omega),
    fieldAt_eq (x := a) (by omega),
    fieldAt_eq (x := i) (by omega)]
theorem andi (d : BitVec 6) (a : BitVec 6) (i : BitVec 12) : Statement (.andi d a i) := by
  intro _
  have := d.isLt; have := a.isLt; have := i.isLt
  have hw : encodeNat (.andi d a i) = 0x02000000 + d.toNat * 2 ^ 18 + a.toNat * 2 ^ 12 + i.toNat * 2 ^ 0 := rfl
  rw [decodeWord_encode (by omega)]
  generalize encodeNat (.andi d a i) = enc at hw ⊢
  rw [decodeNat_ctl (by simp only [tagOf, bitsOf]; omega), decodeCtl_2 (by simp only [bitsOf]; omega)]
  rw [fieldAt_eq (x := d) (by omega),
    fieldAt_eq (x := a) (by omega),
    fieldAt_eq (x := i) (by omega)]
theorem ori (d : BitVec 6) (a : BitVec 6) (i : BitVec 12) : Statement (.ori d a i) := by
  intro _
  have := d.isLt; have := a.isLt; have := i.isLt
  have hw : encodeNat (.ori d a i) = 0x03000000 + d.toNat * 2 ^ 18 + a.toNat * 2 ^ 12 + i.toNat * 2 ^ 0 := rfl
  rw [decodeWord_encode (by omega)]
  generalize encodeNat (.ori d a i) = enc at hw ⊢
  rw [decodeNat_ctl (by simp only [tagOf, bitsOf]; omega), decodeCtl_3 (by simp only [bitsOf]; omega)]
  rw [fieldAt_eq (x := d) (by omega),
    fieldAt_eq (x := a) (by omega),
    fieldAt_eq (x := i) (by omega)]
theorem xori (d : BitVec 6) (a : BitVec 6) (i : BitVec 12) : Statement (.xori d a i) := by
  intro _
  have := d.isLt; have := a.isLt; have := i.isLt
  have hw : encodeNat (.xori d a i) = 0x04000000 + d.toNat * 2 ^ 18 + a.toNat * 2 ^ 12 + i.toNat * 2 ^ 0 := rfl
  rw [decodeWord_encode (by omega)]
  generalize encodeNat (.xori d a i) = enc at hw ⊢
  rw [decodeNat_ctl (by simp only [tagOf, bitsOf]; omega), decodeCtl_4 (by simp only [bitsOf]; omega)]
  rw [fieldAt_eq (x := d) (by omega),
    fieldAt_eq (x := a) (by omega),
    fieldAt_eq (x := i) (by omega)]
theorem shi (d : BitVec 6) (a : BitVec 6) (k : BitVec 4) (n : BitVec 6) : Statement (.shi d a k n) := by
  intro _
  have := d.isLt; have := a.isLt; have := k.isLt; have := n.isLt
  have hw : encodeNat (.shi d a k n) = 0x05000000 + d.toNat * 2 ^ 18 + a.toNat * 2 ^ 12 + k.toNat * 2 ^ 8 + n.toNat * 2 ^ 0 := rfl
  rw [decodeWord_encode (by omega)]
  generalize encodeNat (.shi d a k n) = enc at hw ⊢
  rw [decodeNat_ctl (by simp only [tagOf, bitsOf]; omega), decodeCtl_5 (by simp only [bitsOf]; omega)]
  rw [if_pos (by simp only [bitsOf]; omega)]
  rw [fieldAt_eq (x := d) (by omega),
    fieldAt_eq (x := a) (by omega),
    fieldAt_eq (x := k) (by omega),
    fieldAt_eq (x := n) (by omega)]
theorem movw (d : BitVec 6) (q : BitVec 2) (i : BitVec 16) : Statement (.movw d q i) := by
  intro _
  have := d.isLt; have := q.isLt; have := i.isLt
  have hw : encodeNat (.movw d q i) = 0x06000000 + d.toNat * 2 ^ 18 + q.toNat * 2 ^ 16 + i.toNat * 2 ^ 0 := rfl
  rw [decodeWord_encode (by omega)]
  generalize encodeNat (.movw d q i) = enc at hw ⊢
  rw [decodeNat_ctl (by simp only [tagOf, bitsOf]; omega), decodeCtl_6 (by simp only [bitsOf]; omega)]
  rw [fieldAt_eq (x := d) (by omega),
    fieldAt_eq (x := q) (by omega),
    fieldAt_eq (x := i) (by omega)]
theorem movk (d : BitVec 6) (q : BitVec 2) (i : BitVec 16) : Statement (.movk d q i) := by
  intro _
  have := d.isLt; have := q.isLt; have := i.isLt
  have hw : encodeNat (.movk d q i) = 0x07000000 + d.toNat * 2 ^ 18 + q.toNat * 2 ^ 16 + i.toNat * 2 ^ 0 := rfl
  rw [decodeWord_encode (by omega)]
  generalize encodeNat (.movk d q i) = enc at hw ⊢
  rw [decodeNat_ctl (by simp only [tagOf, bitsOf]; omega), decodeCtl_7 (by simp only [bitsOf]; omega)]
  rw [fieldAt_eq (x := d) (by omega),
    fieldAt_eq (x := q) (by omega),
    fieldAt_eq (x := i) (by omega)]
theorem cmp (p : BitVec 4) (a : BitVec 6) (b : BitVec 6) (c : BitVec 4) (m : BitVec 4) : Statement (.cmp p a b c m) := by
  intro _
  have := p.isLt; have := a.isLt; have := b.isLt; have := c.isLt; have := m.isLt
  have hw : encodeNat (.cmp p a b c m) = 0x08000000 + p.toNat * 2 ^ 20 + a.toNat * 2 ^ 14 + b.toNat * 2 ^ 8 + c.toNat * 2 ^ 4 + m.toNat * 2 ^ 0 := rfl
  rw [decodeWord_encode (by omega)]
  generalize encodeNat (.cmp p a b c m) = enc at hw ⊢
  rw [decodeNat_ctl (by simp only [tagOf, bitsOf]; omega), decodeCtl_8 (by simp only [bitsOf]; omega)]
  rw [fieldAt_eq (x := p) (by omega),
    fieldAt_eq (x := a) (by omega),
    fieldAt_eq (x := b) (by omega),
    fieldAt_eq (x := c) (by omega),
    fieldAt_eq (x := m) (by omega)]
theorem cmpi (p : BitVec 4) (a : BitVec 6) (c : BitVec 4) (i : BitVec 10) : Statement (.cmpi p a c i) := by
  intro _
  have := p.isLt; have := a.isLt; have := c.isLt; have := i.isLt
  have hw : encodeNat (.cmpi p a c i) = 0x09000000 + p.toNat * 2 ^ 20 + a.toNat * 2 ^ 14 + c.toNat * 2 ^ 10 + i.toNat * 2 ^ 0 := rfl
  rw [decodeWord_encode (by omega)]
  generalize encodeNat (.cmpi p a c i) = enc at hw ⊢
  rw [decodeNat_ctl (by simp only [tagOf, bitsOf]; omega), decodeCtl_9 (by simp only [bitsOf]; omega)]
  rw [fieldAt_eq (x := p) (by omega),
    fieldAt_eq (x := a) (by omega),
    fieldAt_eq (x := c) (by omega),
    fieldAt_eq (x := i) (by omega)]
theorem plog (p : BitVec 4) (a : BitVec 6) (b : BitVec 6) (t : BitVec 4) (c : BitVec 4) : Statement (.plog p a b t c) := by
  intro _
  have := p.isLt; have := a.isLt; have := b.isLt; have := t.isLt; have := c.isLt
  have hw : encodeNat (.plog p a b t c) = 0x0A000000 + p.toNat * 2 ^ 20 + a.toNat * 2 ^ 14 + b.toNat * 2 ^ 8 + t.toNat * 2 ^ 4 + c.toNat * 2 ^ 0 := rfl
  rw [decodeWord_encode (by omega)]
  generalize encodeNat (.plog p a b t c) = enc at hw ⊢
  rw [decodeNat_ctl (by simp only [tagOf, bitsOf]; omega), decodeCtl_10 (by simp only [bitsOf]; omega)]
  rw [fieldAt_eq (x := p) (by omega),
    fieldAt_eq (x := a) (by omega),
    fieldAt_eq (x := b) (by omega),
    fieldAt_eq (x := t) (by omega),
    fieldAt_eq (x := c) (by omega)]
theorem sel (d : BitVec 6) (a : BitVec 6) (b : BitVec 6) (n : BitVec 1) (k : BitVec 4) : Statement (.sel d a b n k) := by
  intro _
  have := d.isLt; have := a.isLt; have := b.isLt; have := n.isLt; have := k.isLt
  have hw : encodeNat (.sel d a b n k) = 0x0B000000 + d.toNat * 2 ^ 18 + a.toNat * 2 ^ 12 + b.toNat * 2 ^ 6 + n.toNat * 2 ^ 4 + k.toNat * 2 ^ 0 := rfl
  rw [decodeWord_encode (by omega)]
  generalize encodeNat (.sel d a b n k) = enc at hw ⊢
  rw [decodeNat_ctl (by simp only [tagOf, bitsOf]; omega), decodeCtl_11 (by simp only [bitsOf]; omega)]
  rw [if_pos (by simp only [bitsOf]; omega)]
  rw [fieldAt_eq (x := d) (by omega),
    fieldAt_eq (x := a) (by omega),
    fieldAt_eq (x := b) (by omega),
    fieldAt_eq (x := n) (by omega),
    fieldAt_eq (x := k) (by omega)]
theorem br (p : BitVec 4) (n : BitVec 1) (o : BitVec 19) : Statement (.br p n o) := by
  intro _
  have := p.isLt; have := n.isLt; have := o.isLt
  have hw : encodeNat (.br p n o) = 0x0C000000 + p.toNat * 2 ^ 20 + n.toNat * 2 ^ 19 + o.toNat * 2 ^ 0 := rfl
  rw [decodeWord_encode (by omega)]
  generalize encodeNat (.br p n o) = enc at hw ⊢
  rw [decodeNat_ctl (by simp only [tagOf, bitsOf]; omega), decodeCtl_12 (by simp only [bitsOf]; omega)]
  rw [fieldAt_eq (x := p) (by omega),
    fieldAt_eq (x := n) (by omega),
    fieldAt_eq (x := o) (by omega)]
theorem jal (p : BitVec 4) (n : BitVec 1) (o : BitVec 19) : Statement (.jal p n o) := by
  intro _
  have := p.isLt; have := n.isLt; have := o.isLt
  have hw : encodeNat (.jal p n o) = 0x0D000000 + p.toNat * 2 ^ 20 + n.toNat * 2 ^ 19 + o.toNat * 2 ^ 0 := rfl
  rw [decodeWord_encode (by omega)]
  generalize encodeNat (.jal p n o) = enc at hw ⊢
  rw [decodeNat_ctl (by simp only [tagOf, bitsOf]; omega), decodeCtl_13 (by simp only [bitsOf]; omega)]
  rw [fieldAt_eq (x := p) (by omega),
    fieldAt_eq (x := n) (by omega),
    fieldAt_eq (x := o) (by omega)]
theorem jalr (d : BitVec 6) (a : BitVec 6) (i : BitVec 12) : Statement (.jalr d a i) := by
  intro _
  have := d.isLt; have := a.isLt; have := i.isLt
  have hw : encodeNat (.jalr d a i) = 0x0E000000 + d.toNat * 2 ^ 18 + a.toNat * 2 ^ 12 + i.toNat * 2 ^ 0 := rfl
  rw [decodeWord_encode (by omega)]
  generalize encodeNat (.jalr d a i) = enc at hw ⊢
  rw [decodeNat_ctl (by simp only [tagOf, bitsOf]; omega), decodeCtl_14 (by simp only [bitsOf]; omega)]
  rw [fieldAt_eq (x := d) (by omega),
    fieldAt_eq (x := a) (by omega),
    fieldAt_eq (x := i) (by omega)]
theorem qmovCq (a : BitVec 6) : Statement (.qmovCq a) := by
  intro _
  have := a.isLt
  have hw : encodeNat (.qmovCq a) = 0x0F000000 + a.toNat * 2 ^ 12 := rfl
  rw [decodeWord_encode (by omega)]
  generalize encodeNat (.qmovCq a) = enc at hw ⊢
  rw [decodeNat_ctl (by simp only [tagOf, bitsOf]; omega), decodeCtl_15 (by simp only [bitsOf]; omega)]
  rw [if_pos (by simp only [bitsOf]; omega)]
  rw [fieldAt_eq (x := a) (by omega)]
theorem qmovVq (d : BitVec 6) : Statement (.qmovVq d) := by
  intro _
  have := d.isLt
  have hw : encodeNat (.qmovVq d) = 0x0F000001 + d.toNat * 2 ^ 18 := rfl
  rw [decodeWord_encode (by omega)]
  generalize encodeNat (.qmovVq d) = enc at hw ⊢
  rw [decodeNat_ctl (by simp only [tagOf, bitsOf]; omega), decodeCtl_15 (by simp only [bitsOf]; omega)]
  rw [if_neg (by simp only [bitsOf]; omega), if_pos (by simp only [bitsOf]; omega)]
  rw [fieldAt_eq (x := d) (by omega)]
theorem qmovXq (a : BitVec 6) : Statement (.qmovXq a) := by
  intro _
  have := a.isLt
  have hw : encodeNat (.qmovXq a) = 0x0F000002 + a.toNat * 2 ^ 12 := rfl
  rw [decodeWord_encode (by omega)]
  generalize encodeNat (.qmovXq a) = enc at hw ⊢
  rw [decodeNat_ctl (by simp only [tagOf, bitsOf]; omega), decodeCtl_15 (by simp only [bitsOf]; omega)]
  rw [if_neg (by simp only [bitsOf]; omega), if_neg (by simp only [bitsOf]; omega), if_pos (by simp only [bitsOf]; omega)]
  rw [fieldAt_eq (x := a) (by omega)]
theorem qmovMq (a : BitVec 6) (b : BitVec 6) : Statement (.qmovMq a b) := by
  intro _
  have := a.isLt; have := b.isLt
  have hw : encodeNat (.qmovMq a b) = 0x0F000003 + a.toNat * 2 ^ 12 + b.toNat * 2 ^ 6 := rfl
  rw [decodeWord_encode (by omega)]
  generalize encodeNat (.qmovMq a b) = enc at hw ⊢
  rw [decodeNat_ctl (by simp only [tagOf, bitsOf]; omega), decodeCtl_15 (by simp only [bitsOf]; omega)]
  rw [if_neg (by simp only [bitsOf]; omega), if_neg (by simp only [bitsOf]; omega), if_neg (by simp only [bitsOf]; omega), if_pos (by simp only [bitsOf]; omega)]
  rw [fieldAt_eq (x := a) (by omega),
    fieldAt_eq (x := b) (by omega)]
theorem engreq (d : BitVec 6) (a : BitVec 6) (b : BitVec 6) (k : BitVec 3) : Statement (.engreq d a b k) := by
  intro _
  have := d.isLt; have := a.isLt; have := b.isLt; have := k.isLt
  have hw : encodeNat (.engreq d a b k) = 0x10000000 + d.toNat * 2 ^ 18 + a.toNat * 2 ^ 12 + b.toNat * 2 ^ 6 + k.toNat * 2 ^ 3 := rfl
  rw [decodeWord_encode (by omega)]
  generalize encodeNat (.engreq d a b k) = enc at hw ⊢
  rw [decodeNat_ctl (by simp only [tagOf, bitsOf]; omega), decodeCtl_16 (by simp only [bitsOf]; omega)]
  rw [if_pos (by simp only [bitsOf]; omega)]
  rw [fieldAt_eq (x := d) (by omega),
    fieldAt_eq (x := a) (by omega),
    fieldAt_eq (x := b) (by omega),
    fieldAt_eq (x := k) (by omega)]
theorem engctlQuery (d : BitVec 6) (a : BitVec 6) : Statement (.engctlQuery d a) := by
  intro _
  have := d.isLt; have := a.isLt
  have hw : encodeNat (.engctlQuery d a) = 0x11000000 + d.toNat * 2 ^ 18 + a.toNat * 2 ^ 12 := rfl
  rw [decodeWord_encode (by omega)]
  generalize encodeNat (.engctlQuery d a) = enc at hw ⊢
  rw [decodeNat_ctl (by simp only [tagOf, bitsOf]; omega), decodeCtl_17 (by simp only [bitsOf]; omega)]
  rw [if_neg (by simp only [bitsOf]; omega), if_pos (by simp only [bitsOf]; omega)]
  rw [fieldAt_eq (x := d) (by omega),
    fieldAt_eq (x := a) (by omega)]
theorem engctlAbandon (d : BitVec 6) (a : BitVec 6) : Statement (.engctlAbandon d a) := by
  intro _
  have := d.isLt; have := a.isLt
  have hw : encodeNat (.engctlAbandon d a) = 0x11000001 + d.toNat * 2 ^ 18 + a.toNat * 2 ^ 12 := rfl
  rw [decodeWord_encode (by omega)]
  generalize encodeNat (.engctlAbandon d a) = enc at hw ⊢
  rw [decodeNat_ctl (by simp only [tagOf, bitsOf]; omega), decodeCtl_17 (by simp only [bitsOf]; omega)]
  rw [if_neg (by simp only [bitsOf]; omega), if_neg (by simp only [bitsOf]; omega), if_pos (by simp only [bitsOf]; omega)]
  rw [fieldAt_eq (x := d) (by omega),
    fieldAt_eq (x := a) (by omega)]
theorem engctlUnhold (b : BitVec 6) : Statement (.engctlUnhold b) := by
  intro _
  have := b.isLt
  have hw : encodeNat (.engctlUnhold b) = 0x11000002 + b.toNat * 2 ^ 6 := rfl
  rw [decodeWord_encode (by omega)]
  generalize encodeNat (.engctlUnhold b) = enc at hw ⊢
  rw [decodeNat_ctl (by simp only [tagOf, bitsOf]; omega), decodeCtl_17 (by simp only [bitsOf]; omega)]
  rw [if_pos (by simp only [bitsOf]; omega)]
  rw [fieldAt_eq (x := b) (by omega)]
theorem pwrAcq (d : BitVec 6) (l : BitVec 3) : Statement (.pwrAcq d l) := by
  intro _
  have := d.isLt; have := l.isLt
  have hw : encodeNat (.pwrAcq d l) = 0x12000000 + d.toNat * 2 ^ 18 + l.toNat * 2 ^ 0 := rfl
  rw [decodeWord_encode (by omega)]
  generalize encodeNat (.pwrAcq d l) = enc at hw ⊢
  rw [decodeNat_ctl (by simp only [tagOf, bitsOf]; omega), decodeCtl_18 (by simp only [bitsOf]; omega)]
  rw [if_neg (by simp only [bitsOf]; omega), if_pos (by simp only [bitsOf]; omega)]
  rw [fieldAt_eq (x := d) (by omega),
    fieldAt_eq (x := l) (by omega)]
theorem pwrRel : Statement .pwrRel := by
  intro _
  have hw : encodeNat .pwrRel = 0x12000008 := rfl
  rw [decodeWord_encode (by omega)]
  generalize encodeNat .pwrRel = enc at hw ⊢
  rw [decodeNat_ctl (by simp only [tagOf, bitsOf]; omega), decodeCtl_18 (by simp only [bitsOf]; omega)]
  rw [if_pos (by simp only [bitsOf]; omega)]
theorem flagRd (d : BitVec 6) (k : BitVec 4) : Statement (.flagRd d k) := by
  intro _
  have := d.isLt; have := k.isLt
  have hw : encodeNat (.flagRd d k) = 0x13000000 + d.toNat * 2 ^ 18 + k.toNat * 2 ^ 0 := rfl
  rw [decodeWord_encode (by omega)]
  generalize encodeNat (.flagRd d k) = enc at hw ⊢
  rw [decodeNat_ctl (by simp only [tagOf, bitsOf]; omega), decodeCtl_19 (by simp only [bitsOf]; omega)]
  rw [if_neg (by simp only [bitsOf]; omega), if_pos (by simp only [bitsOf]; omega)]
  rw [fieldAt_eq (x := d) (by omega),
    fieldAt_eq (x := k) (by omega)]
theorem flagWr (a : BitVec 6) (k : BitVec 4) : Statement (.flagWr a k) := by
  intro _
  have := a.isLt; have := k.isLt
  have hw : encodeNat (.flagWr a k) = 0x13000010 + a.toNat * 2 ^ 12 + k.toNat * 2 ^ 0 := rfl
  rw [decodeWord_encode (by omega)]
  generalize encodeNat (.flagWr a k) = enc at hw ⊢
  rw [decodeNat_ctl (by simp only [tagOf, bitsOf]; omega), decodeCtl_19 (by simp only [bitsOf]; omega)]
  rw [if_neg (by simp only [bitsOf]; omega), if_neg (by simp only [bitsOf]; omega), if_pos (by simp only [bitsOf]; omega)]
  rw [fieldAt_eq (x := a) (by omega),
    fieldAt_eq (x := k) (by omega)]
theorem flagInc (k : BitVec 4) : Statement (.flagInc k) := by
  intro _
  have := k.isLt
  have hw : encodeNat (.flagInc k) = 0x13000020 + k.toNat * 2 ^ 0 := rfl
  rw [decodeWord_encode (by omega)]
  generalize encodeNat (.flagInc k) = enc at hw ⊢
  rw [decodeNat_ctl (by simp only [tagOf, bitsOf]; omega), decodeCtl_19 (by simp only [bitsOf]; omega)]
  rw [if_pos (by simp only [bitsOf]; omega)]
  rw [fieldAt_eq (x := k) (by omega)]
theorem flagAdd (a : BitVec 6) (k : BitVec 4) : Statement (.flagAdd a k) := by
  intro _
  have := a.isLt; have := k.isLt
  have hw : encodeNat (.flagAdd a k) = 0x13000030 + a.toNat * 2 ^ 12 + k.toNat * 2 ^ 0 := rfl
  rw [decodeWord_encode (by omega)]
  generalize encodeNat (.flagAdd a k) = enc at hw ⊢
  rw [decodeNat_ctl (by simp only [tagOf, bitsOf]; omega), decodeCtl_19 (by simp only [bitsOf]; omega)]
  rw [if_neg (by simp only [bitsOf]; omega), if_neg (by simp only [bitsOf]; omega), if_neg (by simp only [bitsOf]; omega), if_pos (by simp only [bitsOf]; omega)]
  rw [fieldAt_eq (x := a) (by omega),
    fieldAt_eq (x := k) (by omega)]
theorem bar (i : BitVec 4) (s : BitVec 3) : Statement (.bar i s) := by
  intro _
  have := i.isLt; have := s.isLt
  have hw : encodeNat (.bar i s) = 0x14000000 + i.toNat * 2 ^ 4 + s.toNat * 2 ^ 0 := rfl
  rw [decodeWord_encode (by omega)]
  generalize encodeNat (.bar i s) = enc at hw ⊢
  rw [decodeNat_ctl (by simp only [tagOf, bitsOf]; omega), decodeCtl_20 (by simp only [bitsOf]; omega)]
  rw [if_pos (by simp only [bitsOf]; omega)]
  rw [fieldAt_eq (x := i) (by omega),
    fieldAt_eq (x := s) (by omega)]
theorem barSplit (d : BitVec 6) (i : BitVec 4) (s : BitVec 3) : Statement (.barSplit d i s) := by
  intro _
  have := d.isLt; have := i.isLt; have := s.isLt
  have hw : encodeNat (.barSplit d i s) = 0x14000008 + d.toNat * 2 ^ 18 + i.toNat * 2 ^ 4 + s.toNat * 2 ^ 0 := rfl
  rw [decodeWord_encode (by omega)]
  generalize encodeNat (.barSplit d i s) = enc at hw ⊢
  rw [decodeNat_ctl (by simp only [tagOf, bitsOf]; omega), decodeCtl_20 (by simp only [bitsOf]; omega)]
  rw [if_neg (by simp only [bitsOf]; omega), if_pos (by simp only [bitsOf]; omega)]
  rw [fieldAt_eq (x := d) (by omega),
    fieldAt_eq (x := i) (by omega),
    fieldAt_eq (x := s) (by omega)]
theorem fence (s : BitVec 3) (o : BitVec 2) : Statement (.fence s o) := by
  intro _
  have := s.isLt; have := o.isLt
  have hw : encodeNat (.fence s o) = 0x15000000 + s.toNat * 2 ^ 2 + o.toNat * 2 ^ 0 := rfl
  rw [decodeWord_encode (by omega)]
  generalize encodeNat (.fence s o) = enc at hw ⊢
  rw [decodeNat_ctl (by simp only [tagOf, bitsOf]; omega), decodeCtl_21 (by simp only [bitsOf]; omega)]
  rw [if_pos (by simp only [bitsOf]; omega)]
  rw [fieldAt_eq (x := s) (by omega),
    fieldAt_eq (x := o) (by omega)]
theorem launch (d : BitVec 6) (a : BitVec 6) (b : BitVec 6) : Statement (.launch d a b) := by
  intro _
  have := d.isLt; have := a.isLt; have := b.isLt
  have hw : encodeNat (.launch d a b) = 0x16000000 + d.toNat * 2 ^ 18 + a.toNat * 2 ^ 12 + b.toNat * 2 ^ 6 := rfl
  rw [decodeWord_encode (by omega)]
  generalize encodeNat (.launch d a b) = enc at hw ⊢
  rw [decodeNat_ctl (by simp only [tagOf, bitsOf]; omega), decodeCtl_22 (by simp only [bitsOf]; omega)]
  rw [if_pos (by simp only [bitsOf]; omega)]
  rw [fieldAt_eq (x := d) (by omega),
    fieldAt_eq (x := a) (by omega),
    fieldAt_eq (x := b) (by omega)]
theorem yield : Statement .yield := by
  intro _
  have hw : encodeNat .yield = 0x17000000 := rfl
  rw [decodeWord_encode (by omega)]
  generalize encodeNat .yield = enc at hw ⊢
  rw [decodeNat_ctl (by simp only [tagOf, bitsOf]; omega), decodeCtl_23 (by simp only [bitsOf]; omega)]
  rw [if_pos (by simp only [bitsOf]; omega)]
theorem trapfence : Statement .trapfence := by
  intro _
  have hw : encodeNat .trapfence = 0x17040000 := rfl
  rw [decodeWord_encode (by omega)]
  generalize encodeNat .trapfence = enc at hw ⊢
  rw [decodeNat_ctl (by simp only [tagOf, bitsOf]; omega), decodeCtl_23 (by simp only [bitsOf]; omega)]
  rw [if_neg (by simp only [bitsOf]; omega), if_pos (by simp only [bitsOf]; omega)]
theorem trap (a : BitVec 6) (i : BitVec 12) : Statement (.trap a i) := by
  intro _
  have := a.isLt; have := i.isLt
  have hw : encodeNat (.trap a i) = 0x17080000 + a.toNat * 2 ^ 12 + i.toNat * 2 ^ 0 := rfl
  rw [decodeWord_encode (by omega)]
  generalize encodeNat (.trap a i) = enc at hw ⊢
  rw [decodeNat_ctl (by simp only [tagOf, bitsOf]; omega), decodeCtl_23 (by simp only [bitsOf]; omega)]
  rw [if_neg (by simp only [bitsOf]; omega), if_neg (by simp only [bitsOf]; omega), if_neg (by simp only [bitsOf]; omega), if_neg (by simp only [bitsOf]; omega)]
  rw [if_neg (by simp only [bitsOf]; omega), if_pos (by simp only [bitsOf]; omega)]
  rw [fieldAt_eq (x := a) (by omega),
    fieldAt_eq (x := i) (by omega)]
theorem tret : Statement .tret := by
  intro _
  have hw : encodeNat .tret = 0x170C0000 := rfl
  rw [decodeWord_encode (by omega)]
  generalize encodeNat .tret = enc at hw ⊢
  rw [decodeNat_ctl (by simp only [tagOf, bitsOf]; omega), decodeCtl_23 (by simp only [bitsOf]; omega)]
  rw [if_neg (by simp only [bitsOf]; omega), if_neg (by simp only [bitsOf]; omega), if_pos (by simp only [bitsOf]; omega)]
theorem intr (v : BitVec 6) : Statement (.intr v) := by
  intro _
  have := v.isLt
  have hw : encodeNat (.intr v) = 0x17100000 + v.toNat * 2 ^ 0 := rfl
  rw [decodeWord_encode (by omega)]
  generalize encodeNat (.intr v) = enc at hw ⊢
  rw [decodeNat_ctl (by simp only [tagOf, bitsOf]; omega), decodeCtl_23 (by simp only [bitsOf]; omega)]
  rw [if_neg (by simp only [bitsOf]; omega), if_neg (by simp only [bitsOf]; omega), if_neg (by simp only [bitsOf]; omega), if_neg (by simp only [bitsOf]; omega)]
  rw [if_pos (by simp only [bitsOf]; omega)]
  rw [fieldAt_eq (x := v) (by omega)]
theorem exit : Statement .exit := by
  intro _
  have hw : encodeNat .exit = 0x17140000 := rfl
  rw [decodeWord_encode (by omega)]
  generalize encodeNat .exit = enc at hw ⊢
  rw [decodeNat_ctl (by simp only [tagOf, bitsOf]; omega), decodeCtl_23 (by simp only [bitsOf]; omega)]
  rw [if_neg (by simp only [bitsOf]; omega), if_neg (by simp only [bitsOf]; omega), if_neg (by simp only [bitsOf]; omega), if_pos (by simp only [bitsOf]; omega)]
theorem csr (d : BitVec 6) (a : BitVec 6) (i : BitVec 12) : Statement (.csr d a i) := by
  intro _
  have := d.isLt; have := a.isLt; have := i.isLt
  have hw : encodeNat (.csr d a i) = 0x18000000 + d.toNat * 2 ^ 18 + a.toNat * 2 ^ 12 + i.toNat * 2 ^ 0 := rfl
  rw [decodeWord_encode (by omega)]
  generalize encodeNat (.csr d a i) = enc at hw ⊢
  rw [decodeNat_ctl (by simp only [tagOf, bitsOf]; omega), decodeCtl_24 (by simp only [bitsOf]; omega)]
  rw [fieldAt_eq (x := d) (by omega),
    fieldAt_eq (x := a) (by omega),
    fieldAt_eq (x := i) (by omega)]
theorem cntRd (d : BitVec 6) (a : BitVec 6) : Statement (.cntRd d a) := by
  intro _
  have := d.isLt; have := a.isLt
  have hw : encodeNat (.cntRd d a) = 0x19000000 + d.toNat * 2 ^ 18 + a.toNat * 2 ^ 12 := rfl
  rw [decodeWord_encode (by omega)]
  generalize encodeNat (.cntRd d a) = enc at hw ⊢
  rw [decodeNat_ctl (by simp only [tagOf, bitsOf]; omega), decodeCtl_25 (by simp only [bitsOf]; omega)]
  rw [if_pos (by simp only [bitsOf]; omega)]
  rw [fieldAt_eq (x := d) (by omega),
    fieldAt_eq (x := a) (by omega)]
theorem cntSnap (d : BitVec 6) (a : BitVec 6) : Statement (.cntSnap d a) := by
  intro _
  have := d.isLt; have := a.isLt
  have hw : encodeNat (.cntSnap d a) = 0x19000001 + d.toNat * 2 ^ 18 + a.toNat * 2 ^ 12 := rfl
  rw [decodeWord_encode (by omega)]
  generalize encodeNat (.cntSnap d a) = enc at hw ⊢
  rw [decodeNat_ctl (by simp only [tagOf, bitsOf]; omega), decodeCtl_25 (by simp only [bitsOf]; omega)]
  rw [if_neg (by simp only [bitsOf]; omega), if_pos (by simp only [bitsOf]; omega)]
  rw [fieldAt_eq (x := d) (by omega),
    fieldAt_eq (x := a) (by omega)]
theorem cntRdGrp (d : BitVec 6) (a : BitVec 6) : Statement (.cntRdGrp d a) := by
  intro _
  have := d.isLt; have := a.isLt
  have hw : encodeNat (.cntRdGrp d a) = 0x19000002 + d.toNat * 2 ^ 18 + a.toNat * 2 ^ 12 := rfl
  rw [decodeWord_encode (by omega)]
  generalize encodeNat (.cntRdGrp d a) = enc at hw ⊢
  rw [decodeNat_ctl (by simp only [tagOf, bitsOf]; omega), decodeCtl_25 (by simp only [bitsOf]; omega)]
  rw [if_neg (by simp only [bitsOf]; omega), if_neg (by simp only [bitsOf]; omega), if_pos (by simp only [bitsOf]; omega)]
  rw [fieldAt_eq (x := d) (by omega),
    fieldAt_eq (x := a) (by omega)]
theorem cntSnapGrp (d : BitVec 6) (a : BitVec 6) : Statement (.cntSnapGrp d a) := by
  intro _
  have := d.isLt; have := a.isLt
  have hw : encodeNat (.cntSnapGrp d a) = 0x19000003 + d.toNat * 2 ^ 18 + a.toNat * 2 ^ 12 := rfl
  rw [decodeWord_encode (by omega)]
  generalize encodeNat (.cntSnapGrp d a) = enc at hw ⊢
  rw [decodeNat_ctl (by simp only [tagOf, bitsOf]; omega), decodeCtl_25 (by simp only [bitsOf]; omega)]
  rw [if_neg (by simp only [bitsOf]; omega), if_neg (by simp only [bitsOf]; omega), if_neg (by simp only [bitsOf]; omega), if_pos (by simp only [bitsOf]; omega)]
  rw [fieldAt_eq (x := d) (by omega),
    fieldAt_eq (x := a) (by omega)]
theorem cntOvf (d : BitVec 6) (a : BitVec 6) : Statement (.cntOvf d a) := by
  intro _
  have := d.isLt; have := a.isLt
  have hw : encodeNat (.cntOvf d a) = 0x19000004 + d.toNat * 2 ^ 18 + a.toNat * 2 ^ 12 := rfl
  rw [decodeWord_encode (by omega)]
  generalize encodeNat (.cntOvf d a) = enc at hw ⊢
  rw [decodeNat_ctl (by simp only [tagOf, bitsOf]; omega), decodeCtl_25 (by simp only [bitsOf]; omega)]
  rw [if_neg (by simp only [bitsOf]; omega), if_neg (by simp only [bitsOf]; omega), if_neg (by simp only [bitsOf]; omega), if_neg (by simp only [bitsOf]; omega)]
  rw [if_pos (by simp only [bitsOf]; omega)]
  rw [fieldAt_eq (x := d) (by omega),
    fieldAt_eq (x := a) (by omega)]
theorem cntOvfSnap (d : BitVec 6) (a : BitVec 6) : Statement (.cntOvfSnap d a) := by
  intro _
  have := d.isLt; have := a.isLt
  have hw : encodeNat (.cntOvfSnap d a) = 0x19000005 + d.toNat * 2 ^ 18 + a.toNat * 2 ^ 12 := rfl
  rw [decodeWord_encode (by omega)]
  generalize encodeNat (.cntOvfSnap d a) = enc at hw ⊢
  rw [decodeNat_ctl (by simp only [tagOf, bitsOf]; omega), decodeCtl_25 (by simp only [bitsOf]; omega)]
  rw [if_neg (by simp only [bitsOf]; omega), if_neg (by simp only [bitsOf]; omega), if_neg (by simp only [bitsOf]; omega), if_neg (by simp only [bitsOf]; omega)]
  rw [if_neg (by simp only [bitsOf]; omega), if_pos (by simp only [bitsOf]; omega)]
  rw [fieldAt_eq (x := d) (by omega),
    fieldAt_eq (x := a) (by omega)]
theorem rand (d : BitVec 6) : Statement (.rand d) := by
  intro _
  have := d.isLt
  have hw : encodeNat (.rand d) = 0x1A000000 + d.toNat * 2 ^ 18 := rfl
  rw [decodeWord_encode (by omega)]
  generalize encodeNat (.rand d) = enc at hw ⊢
  rw [decodeNat_ctl (by simp only [tagOf, bitsOf]; omega), decodeCtl_26 (by simp only [bitsOf]; omega)]
  rw [if_pos (by simp only [bitsOf]; omega)]
  rw [fieldAt_eq (x := d) (by omega)]
theorem randBelow (d : BitVec 6) (a : BitVec 6) : Statement (.randBelow d a) := by
  intro _
  have := d.isLt; have := a.isLt
  have hw : encodeNat (.randBelow d a) = 0x1A000001 + d.toNat * 2 ^ 18 + a.toNat * 2 ^ 12 := rfl
  rw [decodeWord_encode (by omega)]
  generalize encodeNat (.randBelow d a) = enc at hw ⊢
  rw [decodeNat_ctl (by simp only [tagOf, bitsOf]; omega), decodeCtl_26 (by simp only [bitsOf]; omega)]
  rw [if_neg (by simp only [bitsOf]; omega), if_pos (by simp only [bitsOf]; omega)]
  rw [fieldAt_eq (x := d) (by omega),
    fieldAt_eq (x := a) (by omega)]
theorem rbind (d : BitVec 6) (k : BitVec 6) (b : BitVec 6) : Statement (.rbind d k b) := by
  intro _
  have := d.isLt; have := k.isLt; have := b.isLt
  have hw : encodeNat (.rbind d k b) = 0x1B000000 + d.toNat * 2 ^ 18 + k.toNat * 2 ^ 12 + b.toNat * 2 ^ 6 := rfl
  rw [decodeWord_encode (by omega)]
  generalize encodeNat (.rbind d k b) = enc at hw ⊢
  rw [decodeNat_ctl (by simp only [tagOf, bitsOf]; omega), decodeCtl_27 (by simp only [bitsOf]; omega)]
  rw [if_neg (by simp only [bitsOf]; omega), if_pos (by simp only [bitsOf]; omega)]
  rw [fieldAt_eq (x := d) (by omega),
    fieldAt_eq (x := k) (by omega),
    fieldAt_eq (x := b) (by omega)]
theorem radd (d : BitVec 6) (a : BitVec 6) (b : BitVec 6) : Statement (.radd d a b) := by
  intro _
  have := d.isLt; have := a.isLt; have := b.isLt
  have hw : encodeNat (.radd d a b) = 0x1B000001 + d.toNat * 2 ^ 18 + a.toNat * 2 ^ 12 + b.toNat * 2 ^ 6 := rfl
  rw [decodeWord_encode (by omega)]
  generalize encodeNat (.radd d a b) = enc at hw ⊢
  rw [decodeNat_ctl (by simp only [tagOf, bitsOf]; omega), decodeCtl_27 (by simp only [bitsOf]; omega)]
  rw [if_neg (by simp only [bitsOf]; omega), if_neg (by simp only [bitsOf]; omega), if_pos (by simp only [bitsOf]; omega)]
  rw [fieldAt_eq (x := d) (by omega),
    fieldAt_eq (x := a) (by omega),
    fieldAt_eq (x := b) (by omega)]
theorem runbind (d : BitVec 6) (a : BitVec 6) : Statement (.runbind d a) := by
  intro _
  have := d.isLt; have := a.isLt
  have hw : encodeNat (.runbind d a) = 0x1B000002 + d.toNat * 2 ^ 18 + a.toNat * 2 ^ 12 := rfl
  rw [decodeWord_encode (by omega)]
  generalize encodeNat (.runbind d a) = enc at hw ⊢
  rw [decodeNat_ctl (by simp only [tagOf, bitsOf]; omega), decodeCtl_27 (by simp only [bitsOf]; omega)]
  rw [if_pos (by simp only [bitsOf]; omega)]
  rw [fieldAt_eq (x := d) (by omega),
    fieldAt_eq (x := a) (by omega)]
theorem madd (d : BitVec 6) (a : BitVec 6) (b : BitVec 6) (c : BitVec 6) : Statement (.madd d a b c) := by
  intro _
  have := d.isLt; have := a.isLt; have := b.isLt; have := c.isLt
  have hw : encodeNat (.madd d a b c) = 0x1C000000 + d.toNat * 2 ^ 18 + a.toNat * 2 ^ 12 + b.toNat * 2 ^ 6 + c.toNat * 2 ^ 0 := rfl
  rw [decodeWord_encode (by omega)]
  generalize encodeNat (.madd d a b c) = enc at hw ⊢
  rw [decodeNat_ctl (by simp only [tagOf, bitsOf]; omega), decodeCtl_28 (by simp only [bitsOf]; omega)]
  rw [fieldAt_eq (x := d) (by omega),
    fieldAt_eq (x := a) (by omega),
    fieldAt_eq (x := b) (by omega),
    fieldAt_eq (x := c) (by omega)]
theorem bitf (d : BitVec 6) (a : BitVec 6) (p : BitVec 6) (w : BitVec 6) : Statement (.bitf d a p w) := by
  intro _
  have := d.isLt; have := a.isLt; have := p.isLt; have := w.isLt
  have hw : encodeNat (.bitf d a p w) = 0x1D000000 + d.toNat * 2 ^ 18 + a.toNat * 2 ^ 12 + p.toNat * 2 ^ 6 + w.toNat * 2 ^ 0 := rfl
  rw [decodeWord_encode (by omega)]
  generalize encodeNat (.bitf d a p w) = enc at hw ⊢
  rw [decodeNat_ctl (by simp only [tagOf, bitsOf]; omega), decodeCtl_29 (by simp only [bitsOf]; omega)]
  rw [fieldAt_eq (x := d) (by omega),
    fieldAt_eq (x := a) (by omega),
    fieldAt_eq (x := p) (by omega),
    fieldAt_eq (x := w) (by omega)]
theorem hwait (m : BitVec 4) (f : BitVec 4) (c : BitVec 1) (v : BitVec 20) : Statement (.hwait m f c v) := by
  intro _
  have := m.isLt; have := f.isLt; have := c.isLt; have := v.isLt
  have hw : encodeNat (.hwait m f c v) = 0xA0000000 + m.toNat * 2 ^ 25 + f.toNat * 2 ^ 21 + c.toNat * 2 ^ 20 + v.toNat * 2 ^ 0 := rfl
  rw [decodeWord_encode (by omega)]
  generalize encodeNat (.hwait m f c v) = enc at hw ⊢
  rw [decodeNat_hdr (by simp only [tagOf, bitsOf]; omega), decodeHdr]
  rw [fieldAt_eq (x := m) (by omega),
    fieldAt_eq (x := f) (by omega),
    fieldAt_eq (x := c) (by omega),
    fieldAt_eq (x := v) (by omega)]
theorem pfx (o : BitVec 3) (s : BitVec 3) (p : BitVec 2) (c : BitVec 3) (f : BitVec 2) : Statement (.pfx o s p c f) := by
  intro _
  have := o.isLt; have := s.isLt; have := p.isLt; have := c.isLt; have := f.isLt
  have hw : encodeNat (.pfx o s p c f) = 0xC0000000 + o.toNat * 2 ^ 26 + s.toNat * 2 ^ 23 + p.toNat * 2 ^ 21 + c.toNat * 2 ^ 18 + f.toNat * 2 ^ 16 := rfl
  rw [decodeWord_encode (by omega)]
  generalize encodeNat (.pfx o s p c f) = enc at hw ⊢
  rw [decodeNat_pfx (by simp only [tagOf, bitsOf]; omega), decodePfx]
  rw [if_pos (by simp only [bitsOf]; omega)]
  rw [fieldAt_eq (x := o) (by omega),
    fieldAt_eq (x := s) (by omega),
    fieldAt_eq (x := p) (by omega),
    fieldAt_eq (x := c) (by omega),
    fieldAt_eq (x := f) (by omega)]
theorem ld (t : BitVec 6) (a : BitVec 6) (z : BitVec 2) (i : BitVec 10) : Statement (.ld t a z i) := by
  intro _
  have := t.isLt; have := a.isLt; have := z.isLt; have := i.isLt
  have hw : encodeNat (.ld t a z i) = 0x20000000 + t.toNat * 2 ^ 18 + a.toNat * 2 ^ 12 + z.toNat * 2 ^ 10 + i.toNat * 2 ^ 0 := rfl
  rw [decodeWord_encode (by omega)]
  generalize encodeNat (.ld t a z i) = enc at hw ⊢
  rw [decodeNat_mem (by simp only [tagOf, bitsOf]; omega), decodeMem_0 (by simp only [bitsOf]; omega)]
  rw [fieldAt_eq (x := t) (by omega),
    fieldAt_eq (x := a) (by omega),
    fieldAt_eq (x := z) (by omega),
    fieldAt_eq (x := i) (by omega)]
theorem ldz (t : BitVec 6) (a : BitVec 6) (z : BitVec 2) (i : BitVec 10) : Statement (.ldz t a z i) := by
  intro _
  have := t.isLt; have := a.isLt; have := z.isLt; have := i.isLt
  have hw : encodeNat (.ldz t a z i) = 0x21000000 + t.toNat * 2 ^ 18 + a.toNat * 2 ^ 12 + z.toNat * 2 ^ 10 + i.toNat * 2 ^ 0 := rfl
  rw [decodeWord_encode (by omega)]
  generalize encodeNat (.ldz t a z i) = enc at hw ⊢
  rw [decodeNat_mem (by simp only [tagOf, bitsOf]; omega), decodeMem_1 (by simp only [bitsOf]; omega)]
  rw [fieldAt_eq (x := t) (by omega),
    fieldAt_eq (x := a) (by omega),
    fieldAt_eq (x := z) (by omega),
    fieldAt_eq (x := i) (by omega)]
theorem st (t : BitVec 6) (a : BitVec 6) (z : BitVec 2) (i : BitVec 10) : Statement (.st t a z i) := by
  intro _
  have := t.isLt; have := a.isLt; have := z.isLt; have := i.isLt
  have hw : encodeNat (.st t a z i) = 0x22000000 + t.toNat * 2 ^ 18 + a.toNat * 2 ^ 12 + z.toNat * 2 ^ 10 + i.toNat * 2 ^ 0 := rfl
  rw [decodeWord_encode (by omega)]
  generalize encodeNat (.st t a z i) = enc at hw ⊢
  rw [decodeNat_mem (by simp only [tagOf, bitsOf]; omega), decodeMem_2 (by simp only [bitsOf]; omega)]
  rw [fieldAt_eq (x := t) (by omega),
    fieldAt_eq (x := a) (by omega),
    fieldAt_eq (x := z) (by omega),
    fieldAt_eq (x := i) (by omega)]
theorem ldq (q : BitVec 3) (x : BitVec 1) (z : BitVec 2) (a : BitVec 6) (i : BitVec 12) : Statement (.ldq q x z a i) := by
  intro _
  have := q.isLt; have := x.isLt; have := z.isLt; have := a.isLt; have := i.isLt
  have hw : encodeNat (.ldq q x z a i) = 0x23000000 + q.toNat * 2 ^ 21 + x.toNat * 2 ^ 20 + z.toNat * 2 ^ 18 + a.toNat * 2 ^ 12 + i.toNat * 2 ^ 0 := rfl
  rw [decodeWord_encode (by omega)]
  generalize encodeNat (.ldq q x z a i) = enc at hw ⊢
  rw [decodeNat_mem (by simp only [tagOf, bitsOf]; omega), decodeMem_3 (by simp only [bitsOf]; omega)]
  rw [fieldAt_eq (x := q) (by omega),
    fieldAt_eq (x := x) (by omega),
    fieldAt_eq (x := z) (by omega),
    fieldAt_eq (x := a) (by omega),
    fieldAt_eq (x := i) (by omega)]
theorem stq (q : BitVec 3) (x : BitVec 1) (z : BitVec 2) (a : BitVec 6) (i : BitVec 12) : Statement (.stq q x z a i) := by
  intro _
  have := q.isLt; have := x.isLt; have := z.isLt; have := a.isLt; have := i.isLt
  have hw : encodeNat (.stq q x z a i) = 0x24000000 + q.toNat * 2 ^ 21 + x.toNat * 2 ^ 20 + z.toNat * 2 ^ 18 + a.toNat * 2 ^ 12 + i.toNat * 2 ^ 0 := rfl
  rw [decodeWord_encode (by omega)]
  generalize encodeNat (.stq q x z a i) = enc at hw ⊢
  rw [decodeNat_mem (by simp only [tagOf, bitsOf]; omega), decodeMem_4 (by simp only [bitsOf]; omega)]
  rw [fieldAt_eq (x := q) (by omega),
    fieldAt_eq (x := x) (by omega),
    fieldAt_eq (x := z) (by omega),
    fieldAt_eq (x := a) (by omega),
    fieldAt_eq (x := i) (by omega)]
theorem amo (d : BitVec 6) (a : BitVec 6) (b : BitVec 6) (n : BitVec 4) (z : BitVec 2) : Statement (.amo d a b n z) := by
  intro _
  have := d.isLt; have := a.isLt; have := b.isLt; have := n.isLt; have := z.isLt
  have hw : encodeNat (.amo d a b n z) = 0x25000000 + d.toNat * 2 ^ 18 + a.toNat * 2 ^ 12 + b.toNat * 2 ^ 6 + n.toNat * 2 ^ 2 + z.toNat * 2 ^ 0 := rfl
  rw [decodeWord_encode (by omega)]
  generalize encodeNat (.amo d a b n z) = enc at hw ⊢
  rw [decodeNat_mem (by simp only [tagOf, bitsOf]; omega), decodeMem_5 (by simp only [bitsOf]; omega)]
  rw [fieldAt_eq (x := d) (by omega),
    fieldAt_eq (x := a) (by omega),
    fieldAt_eq (x := b) (by omega),
    fieldAt_eq (x := n) (by omega),
    fieldAt_eq (x := z) (by omega)]
theorem cas (d : BitVec 6) (a : BitVec 6) (b : BitVec 6) (k : BitVec 4) (z : BitVec 2) : Statement (.cas d a b k z) := by
  intro _
  have := d.isLt; have := a.isLt; have := b.isLt; have := k.isLt; have := z.isLt
  have hw : encodeNat (.cas d a b k z) = 0x26000000 + d.toNat * 2 ^ 18 + a.toNat * 2 ^ 12 + b.toNat * 2 ^ 6 + k.toNat * 2 ^ 2 + z.toNat * 2 ^ 0 := rfl
  rw [decodeWord_encode (by omega)]
  generalize encodeNat (.cas d a b k z) = enc at hw ⊢
  rw [decodeNat_mem (by simp only [tagOf, bitsOf]; omega), decodeMem_6 (by simp only [bitsOf]; omega)]
  rw [fieldAt_eq (x := d) (by omega),
    fieldAt_eq (x := a) (by omega),
    fieldAt_eq (x := b) (by omega),
    fieldAt_eq (x := k) (by omega),
    fieldAt_eq (x := z) (by omega)]
theorem scopLd (d : BitVec 6) (a : BitVec 6) (z : BitVec 2) : Statement (.scopLd d a z) := by
  intro _
  have := d.isLt; have := a.isLt; have := z.isLt
  have hw : encodeNat (.scopLd d a z) = 0x27000000 + d.toNat * 2 ^ 18 + a.toNat * 2 ^ 12 + z.toNat * 2 ^ 0 := rfl
  rw [decodeWord_encode (by omega)]
  generalize encodeNat (.scopLd d a z) = enc at hw ⊢
  rw [decodeNat_mem (by simp only [tagOf, bitsOf]; omega), decodeMem_7 (by simp only [bitsOf]; omega)]
  rw [if_pos (by simp only [bitsOf]; omega)]
  rw [fieldAt_eq (x := d) (by omega),
    fieldAt_eq (x := a) (by omega),
    fieldAt_eq (x := z) (by omega)]
theorem scopSt (a : BitVec 6) (b : BitVec 6) (z : BitVec 2) : Statement (.scopSt a b z) := by
  intro _
  have := a.isLt; have := b.isLt; have := z.isLt
  have hw : encodeNat (.scopSt a b z) = 0x27000004 + a.toNat * 2 ^ 12 + b.toNat * 2 ^ 6 + z.toNat * 2 ^ 0 := rfl
  rw [decodeWord_encode (by omega)]
  generalize encodeNat (.scopSt a b z) = enc at hw ⊢
  rw [decodeNat_mem (by simp only [tagOf, bitsOf]; omega), decodeMem_7 (by simp only [bitsOf]; omega)]
  rw [if_neg (by simp only [bitsOf]; omega), if_pos (by simp only [bitsOf]; omega)]
  rw [fieldAt_eq (x := a) (by omega),
    fieldAt_eq (x := b) (by omega),
    fieldAt_eq (x := z) (by omega)]
theorem scopRmw (d : BitVec 6) (a : BitVec 6) (b : BitVec 6) (o : BitVec 4) (z : BitVec 2) : Statement (.scopRmw d a b o z) := by
  intro h
  have h : 2 ≤ o.toNat ∧ o.toNat ≤ 6 ∧ 2 ≤ z.toNat := of_decide_eq_true h
  have := d.isLt; have := a.isLt; have := b.isLt; have := o.isLt; have := z.isLt
  have hw : encodeNat (.scopRmw d a b o z) = 0x27000000 + d.toNat * 2 ^ 18 + a.toNat * 2 ^ 12 + b.toNat * 2 ^ 6 + o.toNat * 2 ^ 2 + z.toNat * 2 ^ 0 := rfl
  rw [decodeWord_encode (by omega)]
  generalize encodeNat (.scopRmw d a b o z) = enc at hw ⊢
  rw [decodeNat_mem (by simp only [tagOf, bitsOf]; omega), decodeMem_7 (by simp only [bitsOf]; omega)]
  rw [if_neg (by simp only [bitsOf]; omega), if_neg (by simp only [bitsOf]; omega)]
  rw [fieldAt_eq (x := d) (by omega),
    fieldAt_eq (x := a) (by omega),
    fieldAt_eq (x := b) (by omega),
    fieldAt_eq (x := o) (by omega),
    fieldAt_eq (x := z) (by omega)]
theorem ldref (t : BitVec 6) (a : BitVec 6) (i : BitVec 10) : Statement (.ldref t a i) := by
  intro _
  have := t.isLt; have := a.isLt; have := i.isLt
  have hw : encodeNat (.ldref t a i) = 0x28000C00 + t.toNat * 2 ^ 18 + a.toNat * 2 ^ 12 + i.toNat * 2 ^ 0 := rfl
  rw [decodeWord_encode (by omega)]
  generalize encodeNat (.ldref t a i) = enc at hw ⊢
  rw [decodeNat_mem (by simp only [tagOf, bitsOf]; omega), decodeMem_8 (by simp only [bitsOf]; omega)]
  rw [if_pos (by simp only [bitsOf]; omega)]
  rw [fieldAt_eq (x := t) (by omega),
    fieldAt_eq (x := a) (by omega),
    fieldAt_eq (x := i) (by omega)]
theorem stref (t : BitVec 6) (a : BitVec 6) (i : BitVec 10) : Statement (.stref t a i) := by
  intro _
  have := t.isLt; have := a.isLt; have := i.isLt
  have hw : encodeNat (.stref t a i) = 0x29000C00 + t.toNat * 2 ^ 18 + a.toNat * 2 ^ 12 + i.toNat * 2 ^ 0 := rfl
  rw [decodeWord_encode (by omega)]
  generalize encodeNat (.stref t a i) = enc at hw ⊢
  rw [decodeNat_mem (by simp only [tagOf, bitsOf]; omega), decodeMem_9 (by simp only [bitsOf]; omega)]
  rw [if_pos (by simp only [bitsOf]; omega)]
  rw [fieldAt_eq (x := t) (by omega),
    fieldAt_eq (x := a) (by omega),
    fieldAt_eq (x := i) (by omega)]
theorem pmake (k : BitVec 6) (a : BitVec 6) (b : BitVec 6) (p : BitVec 4) : Statement (.pmake k a b p) := by
  intro _
  have := k.isLt; have := a.isLt; have := b.isLt; have := p.isLt
  have hw : encodeNat (.pmake k a b p) = 0x2A000000 + k.toNat * 2 ^ 18 + a.toNat * 2 ^ 12 + b.toNat * 2 ^ 6 + p.toNat * 2 ^ 0 := rfl
  rw [decodeWord_encode (by omega)]
  generalize encodeNat (.pmake k a b p) = enc at hw ⊢
  rw [decodeNat_mem (by simp only [tagOf, bitsOf]; omega), decodeMem_10 (by simp only [bitsOf]; omega)]
  rw [if_pos (by simp only [bitsOf]; omega)]
  rw [fieldAt_eq (x := k) (by omega),
    fieldAt_eq (x := a) (by omega),
    fieldAt_eq (x := b) (by omega),
    fieldAt_eq (x := p) (by omega)]
theorem post (d : BitVec 6) (g : BitVec 3) (k : BitVec 3) (j : BitVec 3) (p : BitVec 4) (f : BitVec 4) : Statement (.post d g k j p f) := by
  intro _
  have := d.isLt; have := g.isLt; have := k.isLt; have := j.isLt; have := p.isLt; have := f.isLt
  have hw : encodeNat (.post d g k j p f) = 0x2B000000 + d.toNat * 2 ^ 18 + g.toNat * 2 ^ 15 + k.toNat * 2 ^ 12 + j.toNat * 2 ^ 9 + p.toNat * 2 ^ 5 + f.toNat * 2 ^ 1 := rfl
  rw [decodeWord_encode (by omega)]
  generalize encodeNat (.post d g k j p f) = enc at hw ⊢
  rw [decodeNat_mem (by simp only [tagOf, bitsOf]; omega), decodeMem_11 (by simp only [bitsOf]; omega)]
  rw [if_pos (by simp only [bitsOf]; omega)]
  rw [fieldAt_eq (x := d) (by omega),
    fieldAt_eq (x := g) (by omega),
    fieldAt_eq (x := k) (by omega),
    fieldAt_eq (x := j) (by omega),
    fieldAt_eq (x := p) (by omega),
    fieldAt_eq (x := f) (by omega)]
theorem pclaim (k : BitVec 3) (a : BitVec 6) (p : BitVec 4) : Statement (.pclaim k a p) := by
  intro _
  have := k.isLt; have := a.isLt; have := p.isLt
  have hw : encodeNat (.pclaim k a p) = 0x2C000000 + k.toNat * 2 ^ 18 + a.toNat * 2 ^ 12 + p.toNat * 2 ^ 0 := rfl
  rw [decodeWord_encode (by omega)]
  generalize encodeNat (.pclaim k a p) = enc at hw ⊢
  rw [decodeNat_mem (by simp only [tagOf, bitsOf]; omega), decodeMem_12 (by simp only [bitsOf]; omega)]
  rw [if_pos (by simp only [bitsOf]; omega)]
  rw [fieldAt_eq (x := k) (by omega),
    fieldAt_eq (x := a) (by omega),
    fieldAt_eq (x := p) (by omega)]
theorem pctlQuery (d : BitVec 6) (k : BitVec 3) : Statement (.pctlQuery d k) := by
  intro _
  have := d.isLt; have := k.isLt
  have hw : encodeNat (.pctlQuery d k) = 0x2D000000 + d.toNat * 2 ^ 18 + k.toNat * 2 ^ 6 := rfl
  rw [decodeWord_encode (by omega)]
  generalize encodeNat (.pctlQuery d k) = enc at hw ⊢
  rw [decodeNat_mem (by simp only [tagOf, bitsOf]; omega), decodeMem_13 (by simp only [bitsOf]; omega)]
  rw [if_neg (by simp only [bitsOf]; omega), if_pos (by simp only [bitsOf]; omega)]
  rw [fieldAt_eq (x := d) (by omega),
    fieldAt_eq (x := k) (by omega)]
theorem pctlFree (k : BitVec 3) : Statement (.pctlFree k) := by
  intro _
  have := k.isLt
  have hw : encodeNat (.pctlFree k) = 0x2D000001 + k.toNat * 2 ^ 6 := rfl
  rw [decodeWord_encode (by omega)]
  generalize encodeNat (.pctlFree k) = enc at hw ⊢
  rw [decodeNat_mem (by simp only [tagOf, bitsOf]; omega), decodeMem_13 (by simp only [bitsOf]; omega)]
  rw [if_pos (by simp only [bitsOf]; omega)]
  rw [fieldAt_eq (x := k) (by omega)]
theorem pctlSet (a : BitVec 6) (k : BitVec 3) : Statement (.pctlSet a k) := by
  intro _
  have := a.isLt; have := k.isLt
  have hw : encodeNat (.pctlSet a k) = 0x2D000002 + a.toNat * 2 ^ 12 + k.toNat * 2 ^ 6 := rfl
  rw [decodeWord_encode (by omega)]
  generalize encodeNat (.pctlSet a k) = enc at hw ⊢
  rw [decodeNat_mem (by simp only [tagOf, bitsOf]; omega), decodeMem_13 (by simp only [bitsOf]; omega)]
  rw [if_neg (by simp only [bitsOf]; omega), if_neg (by simp only [bitsOf]; omega), if_pos (by simp only [bitsOf]; omega)]
  rw [fieldAt_eq (x := a) (by omega),
    fieldAt_eq (x := k) (by omega)]
theorem pctlGet (d : BitVec 6) (k : BitVec 3) : Statement (.pctlGet d k) := by
  intro _
  have := d.isLt; have := k.isLt
  have hw : encodeNat (.pctlGet d k) = 0x2D000003 + d.toNat * 2 ^ 18 + k.toNat * 2 ^ 6 := rfl
  rw [decodeWord_encode (by omega)]
  generalize encodeNat (.pctlGet d k) = enc at hw ⊢
  rw [decodeNat_mem (by simp only [tagOf, bitsOf]; omega), decodeMem_13 (by simp only [bitsOf]; omega)]
  rw [if_neg (by simp only [bitsOf]; omega), if_neg (by simp only [bitsOf]; omega), if_neg (by simp only [bitsOf]; omega), if_pos (by simp only [bitsOf]; omega)]
  rw [fieldAt_eq (x := d) (by omega),
    fieldAt_eq (x := k) (by omega)]
theorem mpush (a : BitVec 6) (n : BitVec 3) : Statement (.mpush a n) := by
  intro _
  have := a.isLt; have := n.isLt
  have hw : encodeNat (.mpush a n) = 0x2E000000 + a.toNat * 2 ^ 12 + n.toNat * 2 ^ 0 := rfl
  rw [decodeWord_encode (by omega)]
  generalize encodeNat (.mpush a n) = enc at hw ⊢
  rw [decodeNat_mem (by simp only [tagOf, bitsOf]; omega), decodeMem_14 (by simp only [bitsOf]; omega)]
  rw [if_pos (by simp only [bitsOf]; omega)]
  rw [fieldAt_eq (x := a) (by omega),
    fieldAt_eq (x := n) (by omega)]
theorem pfetch (a : BitVec 6) (z : BitVec 2) (i : BitVec 10) : Statement (.pfetch a z i) := by
  intro _
  have := a.isLt; have := z.isLt; have := i.isLt
  have hw : encodeNat (.pfetch a z i) = 0x2F000000 + a.toNat * 2 ^ 12 + z.toNat * 2 ^ 10 + i.toNat * 2 ^ 0 := rfl
  rw [decodeWord_encode (by omega)]
  generalize encodeNat (.pfetch a z i) = enc at hw ⊢
  rw [decodeNat_mem (by simp only [tagOf, bitsOf]; omega), decodeMem_15 (by simp only [bitsOf]; omega)]
  rw [if_pos (by simp only [bitsOf]; omega)]
  rw [fieldAt_eq (x := a) (by omega),
    fieldAt_eq (x := z) (by omega),
    fieldAt_eq (x := i) (by omega)]
theorem cacheDrop (a : BitVec 6) (z : BitVec 2) (i : BitVec 10) : Statement (.cacheDrop a z i) := by
  intro _
  have := a.isLt; have := z.isLt; have := i.isLt
  have hw : encodeNat (.cacheDrop a z i) = 0x30000000 + a.toNat * 2 ^ 12 + z.toNat * 2 ^ 10 + i.toNat * 2 ^ 0 := rfl
  rw [decodeWord_encode (by omega)]
  generalize encodeNat (.cacheDrop a z i) = enc at hw ⊢
  rw [decodeNat_mem (by simp only [tagOf, bitsOf]; omega), decodeMem_16 (by simp only [bitsOf]; omega)]
  rw [if_pos (by simp only [bitsOf]; omega)]
  rw [fieldAt_eq (x := a) (by omega),
    fieldAt_eq (x := z) (by omega),
    fieldAt_eq (x := i) (by omega)]
theorem cacheDemote (a : BitVec 6) (z : BitVec 2) (i : BitVec 10) : Statement (.cacheDemote a z i) := by
  intro _
  have := a.isLt; have := z.isLt; have := i.isLt
  have hw : encodeNat (.cacheDemote a z i) = 0x30040000 + a.toNat * 2 ^ 12 + z.toNat * 2 ^ 10 + i.toNat * 2 ^ 0 := rfl
  rw [decodeWord_encode (by omega)]
  generalize encodeNat (.cacheDemote a z i) = enc at hw ⊢
  rw [decodeNat_mem (by simp only [tagOf, bitsOf]; omega), decodeMem_16 (by simp only [bitsOf]; omega)]
  rw [if_neg (by simp only [bitsOf]; omega), if_pos (by simp only [bitsOf]; omega)]
  rw [fieldAt_eq (x := a) (by omega),
    fieldAt_eq (x := z) (by omega),
    fieldAt_eq (x := i) (by omega)]
theorem tktCnt (d : BitVec 6) : Statement (.tktCnt d) := by
  intro _
  have := d.isLt
  have hw : encodeNat (.tktCnt d) = 0x31000000 + d.toNat * 2 ^ 18 := rfl
  rw [decodeWord_encode (by omega)]
  generalize encodeNat (.tktCnt d) = enc at hw ⊢
  rw [decodeNat_mem (by simp only [tagOf, bitsOf]; omega), decodeMem_17 (by simp only [bitsOf]; omega)]
  rw [if_neg (by simp only [bitsOf]; omega), if_pos (by simp only [bitsOf]; omega)]
  rw [fieldAt_eq (x := d) (by omega)]
theorem tktWait : Statement .tktWait := by
  intro _
  have hw : encodeNat .tktWait = 0x31000001 := rfl
  rw [decodeWord_encode (by omega)]
  generalize encodeNat .tktWait = enc at hw ⊢
  rw [decodeNat_mem (by simp only [tagOf, bitsOf]; omega), decodeMem_17 (by simp only [bitsOf]; omega)]
  rw [if_pos (by simp only [bitsOf]; omega)]
theorem tktRd (d : BitVec 6) (a : BitVec 6) : Statement (.tktRd d a) := by
  intro _
  have := d.isLt; have := a.isLt
  have hw : encodeNat (.tktRd d a) = 0x31000002 + d.toNat * 2 ^ 18 + a.toNat * 2 ^ 12 := rfl
  rw [decodeWord_encode (by omega)]
  generalize encodeNat (.tktRd d a) = enc at hw ⊢
  rw [decodeNat_mem (by simp only [tagOf, bitsOf]; omega), decodeMem_17 (by simp only [bitsOf]; omega)]
  rw [if_neg (by simp only [bitsOf]; omega), if_neg (by simp only [bitsOf]; omega), if_pos (by simp only [bitsOf]; omega)]
  rw [fieldAt_eq (x := d) (by omega),
    fieldAt_eq (x := a) (by omega)]
theorem grantMint (d : BitVec 6) (a : BitVec 6) (b : BitVec 6) : Statement (.grantMint d a b) := by
  intro _
  have := d.isLt; have := a.isLt; have := b.isLt
  have hw : encodeNat (.grantMint d a b) = 0x32000000 + d.toNat * 2 ^ 18 + a.toNat * 2 ^ 12 + b.toNat * 2 ^ 6 := rfl
  rw [decodeWord_encode (by omega)]
  generalize encodeNat (.grantMint d a b) = enc at hw ⊢
  rw [decodeNat_mem (by simp only [tagOf, bitsOf]; omega), decodeMem_18 (by simp only [bitsOf]; omega)]
  rw [if_neg (by simp only [bitsOf]; omega), if_neg (by simp only [bitsOf]; omega), if_pos (by simp only [bitsOf]; omega)]
  rw [fieldAt_eq (x := d) (by omega),
    fieldAt_eq (x := a) (by omega),
    fieldAt_eq (x := b) (by omega)]
theorem grantSet (a : BitVec 6) (k : BitVec 3) : Statement (.grantSet a k) := by
  intro _
  have := a.isLt; have := k.isLt
  have hw : encodeNat (.grantSet a k) = 0x32000001 + a.toNat * 2 ^ 12 + k.toNat * 2 ^ 6 := rfl
  rw [decodeWord_encode (by omega)]
  generalize encodeNat (.grantSet a k) = enc at hw ⊢
  rw [decodeNat_mem (by simp only [tagOf, bitsOf]; omega), decodeMem_18 (by simp only [bitsOf]; omega)]
  rw [if_pos (by simp only [bitsOf]; omega)]
  rw [fieldAt_eq (x := a) (by omega),
    fieldAt_eq (x := k) (by omega)]
theorem grantGet (d : BitVec 6) (k : BitVec 3) : Statement (.grantGet d k) := by
  intro _
  have := d.isLt; have := k.isLt
  have hw : encodeNat (.grantGet d k) = 0x32000002 + d.toNat * 2 ^ 18 + k.toNat * 2 ^ 6 := rfl
  rw [decodeWord_encode (by omega)]
  generalize encodeNat (.grantGet d k) = enc at hw ⊢
  rw [decodeNat_mem (by simp only [tagOf, bitsOf]; omega), decodeMem_18 (by simp only [bitsOf]; omega)]
  rw [if_neg (by simp only [bitsOf]; omega), if_pos (by simp only [bitsOf]; omega)]
  rw [fieldAt_eq (x := d) (by omega),
    fieldAt_eq (x := k) (by omega)]
theorem tlbopRng (d : BitVec 6) (a : BitVec 6) (b : BitVec 6) : Statement (.tlbopRng d a b) := by
  intro _
  have := d.isLt; have := a.isLt; have := b.isLt
  have hw : encodeNat (.tlbopRng d a b) = 0x33000000 + d.toNat * 2 ^ 18 + a.toNat * 2 ^ 12 + b.toNat * 2 ^ 6 := rfl
  rw [decodeWord_encode (by omega)]
  generalize encodeNat (.tlbopRng d a b) = enc at hw ⊢
  rw [decodeNat_mem (by simp only [tagOf, bitsOf]; omega), decodeMem_19 (by simp only [bitsOf]; omega)]
  rw [if_neg (by simp only [bitsOf]; omega), if_neg (by simp only [bitsOf]; omega), if_pos (by simp only [bitsOf]; omega)]
  rw [fieldAt_eq (x := d) (by omega),
    fieldAt_eq (x := a) (by omega),
    fieldAt_eq (x := b) (by omega)]
theorem tlbopTen (d : BitVec 6) : Statement (.tlbopTen d) := by
  intro _
  have := d.isLt
  have hw : encodeNat (.tlbopTen d) = 0x33000001 + d.toNat * 2 ^ 18 := rfl
  rw [decodeWord_encode (by omega)]
  generalize encodeNat (.tlbopTen d) = enc at hw ⊢
  rw [decodeNat_mem (by simp only [tagOf, bitsOf]; omega), decodeMem_19 (by simp only [bitsOf]; omega)]
  rw [if_neg (by simp only [bitsOf]; omega), if_pos (by simp only [bitsOf]; omega)]
  rw [fieldAt_eq (x := d) (by omega)]
theorem tlbopAll : Statement .tlbopAll := by
  intro _
  have hw : encodeNat .tlbopAll = 0x33000002 := rfl
  rw [decodeWord_encode (by omega)]
  generalize encodeNat .tlbopAll = enc at hw ⊢
  rw [decodeNat_mem (by simp only [tagOf, bitsOf]; omega), decodeMem_19 (by simp only [bitsOf]; omega)]
  rw [if_pos (by simp only [bitsOf]; omega)]
theorem dirtySnap (d : BitVec 6) (a : BitVec 6) (b : BitVec 6) : Statement (.dirtySnap d a b) := by
  intro _
  have := d.isLt; have := a.isLt; have := b.isLt
  have hw : encodeNat (.dirtySnap d a b) = 0x34000000 + d.toNat * 2 ^ 18 + a.toNat * 2 ^ 12 + b.toNat * 2 ^ 6 := rfl
  rw [decodeWord_encode (by omega)]
  generalize encodeNat (.dirtySnap d a b) = enc at hw ⊢
  rw [decodeNat_mem (by simp only [tagOf, bitsOf]; omega), decodeMem_20 (by simp only [bitsOf]; omega)]
  rw [if_pos (by simp only [bitsOf]; omega)]
  rw [fieldAt_eq (x := d) (by omega),
    fieldAt_eq (x := a) (by omega),
    fieldAt_eq (x := b) (by omega)]
theorem dirtyRd (d : BitVec 6) (a : BitVec 6) (b : BitVec 6) : Statement (.dirtyRd d a b) := by
  intro _
  have := d.isLt; have := a.isLt; have := b.isLt
  have hw : encodeNat (.dirtyRd d a b) = 0x34000001 + d.toNat * 2 ^ 18 + a.toNat * 2 ^ 12 + b.toNat * 2 ^ 6 := rfl
  rw [decodeWord_encode (by omega)]
  generalize encodeNat (.dirtyRd d a b) = enc at hw ⊢
  rw [decodeNat_mem (by simp only [tagOf, bitsOf]; omega), decodeMem_20 (by simp only [bitsOf]; omega)]
  rw [if_neg (by simp only [bitsOf]; omega), if_pos (by simp only [bitsOf]; omega)]
  rw [fieldAt_eq (x := d) (by omega),
    fieldAt_eq (x := a) (by omega),
    fieldAt_eq (x := b) (by omega)]
theorem vadd (d : BitVec 6) (a : BitVec 6) (b : BitVec 6) (m : BitVec 3) (f : BitVec 3) : Statement (.vadd d a b m f) := by
  intro _
  have := d.isLt; have := a.isLt; have := b.isLt; have := m.isLt; have := f.isLt
  have hw : encodeNat (.vadd d a b m f) = 0x40000000 + d.toNat * 2 ^ 18 + a.toNat * 2 ^ 12 + b.toNat * 2 ^ 6 + m.toNat * 2 ^ 3 + f.toNat * 2 ^ 0 := rfl
  rw [decodeWord_encode (by omega)]
  generalize encodeNat (.vadd d a b m f) = enc at hw ⊢
  rw [decodeNat_vec (by simp only [tagOf, bitsOf]; omega), decodeVec_0 (by simp only [bitsOf]; omega)]
  rw [fieldAt_eq (x := d) (by omega),
    fieldAt_eq (x := a) (by omega),
    fieldAt_eq (x := b) (by omega),
    fieldAt_eq (x := m) (by omega),
    fieldAt_eq (x := f) (by omega)]
theorem vsub (d : BitVec 6) (a : BitVec 6) (b : BitVec 6) (m : BitVec 3) (f : BitVec 3) : Statement (.vsub d a b m f) := by
  intro _
  have := d.isLt; have := a.isLt; have := b.isLt; have := m.isLt; have := f.isLt
  have hw : encodeNat (.vsub d a b m f) = 0x41000000 + d.toNat * 2 ^ 18 + a.toNat * 2 ^ 12 + b.toNat * 2 ^ 6 + m.toNat * 2 ^ 3 + f.toNat * 2 ^ 0 := rfl
  rw [decodeWord_encode (by omega)]
  generalize encodeNat (.vsub d a b m f) = enc at hw ⊢
  rw [decodeNat_vec (by simp only [tagOf, bitsOf]; omega), decodeVec_1 (by simp only [bitsOf]; omega)]
  rw [fieldAt_eq (x := d) (by omega),
    fieldAt_eq (x := a) (by omega),
    fieldAt_eq (x := b) (by omega),
    fieldAt_eq (x := m) (by omega),
    fieldAt_eq (x := f) (by omega)]
theorem vmul (d : BitVec 6) (a : BitVec 6) (b : BitVec 6) (m : BitVec 3) (f : BitVec 3) : Statement (.vmul d a b m f) := by
  intro _
  have := d.isLt; have := a.isLt; have := b.isLt; have := m.isLt; have := f.isLt
  have hw : encodeNat (.vmul d a b m f) = 0x42000000 + d.toNat * 2 ^ 18 + a.toNat * 2 ^ 12 + b.toNat * 2 ^ 6 + m.toNat * 2 ^ 3 + f.toNat * 2 ^ 0 := rfl
  rw [decodeWord_encode (by omega)]
  generalize encodeNat (.vmul d a b m f) = enc at hw ⊢
  rw [decodeNat_vec (by simp only [tagOf, bitsOf]; omega), decodeVec_2 (by simp only [bitsOf]; omega)]
  rw [fieldAt_eq (x := d) (by omega),
    fieldAt_eq (x := a) (by omega),
    fieldAt_eq (x := b) (by omega),
    fieldAt_eq (x := m) (by omega),
    fieldAt_eq (x := f) (by omega)]
theorem vfma (d : BitVec 6) (a : BitVec 6) (b : BitVec 6) (m : BitVec 3) (f : BitVec 3) : Statement (.vfma d a b m f) := by
  intro _
  have := d.isLt; have := a.isLt; have := b.isLt; have := m.isLt; have := f.isLt
  have hw : encodeNat (.vfma d a b m f) = 0x43000000 + d.toNat * 2 ^ 18 + a.toNat * 2 ^ 12 + b.toNat * 2 ^ 6 + m.toNat * 2 ^ 3 + f.toNat * 2 ^ 0 := rfl
  rw [decodeWord_encode (by omega)]
  generalize encodeNat (.vfma d a b m f) = enc at hw ⊢
  rw [decodeNat_vec (by simp only [tagOf, bitsOf]; omega), decodeVec_3 (by simp only [bitsOf]; omega)]
  rw [fieldAt_eq (x := d) (by omega),
    fieldAt_eq (x := a) (by omega),
    fieldAt_eq (x := b) (by omega),
    fieldAt_eq (x := m) (by omega),
    fieldAt_eq (x := f) (by omega)]
theorem vmin (d : BitVec 6) (a : BitVec 6) (b : BitVec 6) (m : BitVec 3) (f : BitVec 3) : Statement (.vmin d a b m f) := by
  intro _
  have := d.isLt; have := a.isLt; have := b.isLt; have := m.isLt; have := f.isLt
  have hw : encodeNat (.vmin d a b m f) = 0x44000000 + d.toNat * 2 ^ 18 + a.toNat * 2 ^ 12 + b.toNat * 2 ^ 6 + m.toNat * 2 ^ 3 + f.toNat * 2 ^ 0 := rfl
  rw [decodeWord_encode (by omega)]
  generalize encodeNat (.vmin d a b m f) = enc at hw ⊢
  rw [decodeNat_vec (by simp only [tagOf, bitsOf]; omega), decodeVec_4 (by simp only [bitsOf]; omega)]
  rw [fieldAt_eq (x := d) (by omega),
    fieldAt_eq (x := a) (by omega),
    fieldAt_eq (x := b) (by omega),
    fieldAt_eq (x := m) (by omega),
    fieldAt_eq (x := f) (by omega)]
theorem vmax (d : BitVec 6) (a : BitVec 6) (b : BitVec 6) (m : BitVec 3) (f : BitVec 3) : Statement (.vmax d a b m f) := by
  intro _
  have := d.isLt; have := a.isLt; have := b.isLt; have := m.isLt; have := f.isLt
  have hw : encodeNat (.vmax d a b m f) = 0x45000000 + d.toNat * 2 ^ 18 + a.toNat * 2 ^ 12 + b.toNat * 2 ^ 6 + m.toNat * 2 ^ 3 + f.toNat * 2 ^ 0 := rfl
  rw [decodeWord_encode (by omega)]
  generalize encodeNat (.vmax d a b m f) = enc at hw ⊢
  rw [decodeNat_vec (by simp only [tagOf, bitsOf]; omega), decodeVec_5 (by simp only [bitsOf]; omega)]
  rw [fieldAt_eq (x := d) (by omega),
    fieldAt_eq (x := a) (by omega),
    fieldAt_eq (x := b) (by omega),
    fieldAt_eq (x := m) (by omega),
    fieldAt_eq (x := f) (by omega)]
theorem vun (d : BitVec 6) (a : BitVec 6) (m : BitVec 3) (f : BitVec 3) : Statement (.vun d a m f) := by
  intro _
  have := d.isLt; have := a.isLt; have := m.isLt; have := f.isLt
  have hw : encodeNat (.vun d a m f) = 0x46000000 + d.toNat * 2 ^ 18 + a.toNat * 2 ^ 12 + m.toNat * 2 ^ 3 + f.toNat * 2 ^ 0 := rfl
  rw [decodeWord_encode (by omega)]
  generalize encodeNat (.vun d a m f) = enc at hw ⊢
  rw [decodeNat_vec (by simp only [tagOf, bitsOf]; omega), decodeVec_6 (by simp only [bitsOf]; omega)]
  rw [if_pos (by simp only [bitsOf]; omega)]
  rw [fieldAt_eq (x := d) (by omega),
    fieldAt_eq (x := a) (by omega),
    fieldAt_eq (x := m) (by omega),
    fieldAt_eq (x := f) (by omega)]
theorem vcmp (d : BitVec 6) (a : BitVec 6) (b : BitVec 6) (m : BitVec 3) (f : BitVec 3) : Statement (.vcmp d a b m f) := by
  intro _
  have := d.isLt; have := a.isLt; have := b.isLt; have := m.isLt; have := f.isLt
  have hw : encodeNat (.vcmp d a b m f) = 0x47000000 + d.toNat * 2 ^ 18 + a.toNat * 2 ^ 12 + b.toNat * 2 ^ 6 + m.toNat * 2 ^ 3 + f.toNat * 2 ^ 0 := rfl
  rw [decodeWord_encode (by omega)]
  generalize encodeNat (.vcmp d a b m f) = enc at hw ⊢
  rw [decodeNat_vec (by simp only [tagOf, bitsOf]; omega), decodeVec_7 (by simp only [bitsOf]; omega)]
  rw [fieldAt_eq (x := d) (by omega),
    fieldAt_eq (x := a) (by omega),
    fieldAt_eq (x := b) (by omega),
    fieldAt_eq (x := m) (by omega),
    fieldAt_eq (x := f) (by omega)]
theorem vsel (d : BitVec 6) (a : BitVec 6) (b : BitVec 6) (m : BitVec 3) : Statement (.vsel d a b m) := by
  intro _
  have := d.isLt; have := a.isLt; have := b.isLt; have := m.isLt
  have hw : encodeNat (.vsel d a b m) = 0x48000000 + d.toNat * 2 ^ 18 + a.toNat * 2 ^ 12 + b.toNat * 2 ^ 6 + m.toNat * 2 ^ 3 := rfl
  rw [decodeWord_encode (by omega)]
  generalize encodeNat (.vsel d a b m) = enc at hw ⊢
  rw [decodeNat_vec (by simp only [tagOf, bitsOf]; omega), decodeVec_8 (by simp only [bitsOf]; omega)]
  rw [if_pos (by simp only [bitsOf]; omega)]
  rw [fieldAt_eq (x := d) (by omega),
    fieldAt_eq (x := a) (by omega),
    fieldAt_eq (x := b) (by omega),
    fieldAt_eq (x := m) (by omega)]
theorem vlog (d : BitVec 6) (a : BitVec 6) (b : BitVec 6) (m : BitVec 3) (f : BitVec 3) : Statement (.vlog d a b m f) := by
  intro _
  have := d.isLt; have := a.isLt; have := b.isLt; have := m.isLt; have := f.isLt
  have hw : encodeNat (.vlog d a b m f) = 0x49000000 + d.toNat * 2 ^ 18 + a.toNat * 2 ^ 12 + b.toNat * 2 ^ 6 + m.toNat * 2 ^ 3 + f.toNat * 2 ^ 0 := rfl
  rw [decodeWord_encode (by omega)]
  generalize encodeNat (.vlog d a b m f) = enc at hw ⊢
  rw [decodeNat_vec (by simp only [tagOf, bitsOf]; omega), decodeVec_9 (by simp only [bitsOf]; omega)]
  rw [fieldAt_eq (x := d) (by omega),
    fieldAt_eq (x := a) (by omega),
    fieldAt_eq (x := b) (by omega),
    fieldAt_eq (x := m) (by omega),
    fieldAt_eq (x := f) (by omega)]
theorem vshf (d : BitVec 6) (a : BitVec 6) (b : BitVec 6) (m : BitVec 3) (f : BitVec 3) : Statement (.vshf d a b m f) := by
  intro _
  have := d.isLt; have := a.isLt; have := b.isLt; have := m.isLt; have := f.isLt
  have hw : encodeNat (.vshf d a b m f) = 0x4A000000 + d.toNat * 2 ^ 18 + a.toNat * 2 ^ 12 + b.toNat * 2 ^ 6 + m.toNat * 2 ^ 3 + f.toNat * 2 ^ 0 := rfl
  rw [decodeWord_encode (by omega)]
  generalize encodeNat (.vshf d a b m f) = enc at hw ⊢
  rw [decodeNat_vec (by simp only [tagOf, bitsOf]; omega), decodeVec_10 (by simp only [bitsOf]; omega)]
  rw [fieldAt_eq (x := d) (by omega),
    fieldAt_eq (x := a) (by omega),
    fieldAt_eq (x := b) (by omega),
    fieldAt_eq (x := m) (by omega),
    fieldAt_eq (x := f) (by omega)]
theorem vcvt (d : BitVec 6) (a : BitVec 6) (t : BitVec 6) (m : BitVec 3) (f : BitVec 3) : Statement (.vcvt d a t m f) := by
  intro _
  have := d.isLt; have := a.isLt; have := t.isLt; have := m.isLt; have := f.isLt
  have hw : encodeNat (.vcvt d a t m f) = 0x4B000000 + d.toNat * 2 ^ 18 + a.toNat * 2 ^ 12 + t.toNat * 2 ^ 6 + m.toNat * 2 ^ 3 + f.toNat * 2 ^ 0 := rfl
  rw [decodeWord_encode (by omega)]
  generalize encodeNat (.vcvt d a t m f) = enc at hw ⊢
  rw [decodeNat_vec (by simp only [tagOf, bitsOf]; omega), decodeVec_11 (by simp only [bitsOf]; omega)]
  rw [fieldAt_eq (x := d) (by omega),
    fieldAt_eq (x := a) (by omega),
    fieldAt_eq (x := t) (by omega),
    fieldAt_eq (x := m) (by omega),
    fieldAt_eq (x := f) (by omega)]
theorem vscale (d : BitVec 6) (a : BitVec 6) (b : BitVec 6) (m : BitVec 3) (f : BitVec 3) : Statement (.vscale d a b m f) := by
  intro _
  have := d.isLt; have := a.isLt; have := b.isLt; have := m.isLt; have := f.isLt
  have hw : encodeNat (.vscale d a b m f) = 0x4C000000 + d.toNat * 2 ^ 18 + a.toNat * 2 ^ 12 + b.toNat * 2 ^ 6 + m.toNat * 2 ^ 3 + f.toNat * 2 ^ 0 := rfl
  rw [decodeWord_encode (by omega)]
  generalize encodeNat (.vscale d a b m f) = enc at hw ⊢
  rw [decodeNat_vec (by simp only [tagOf, bitsOf]; omega), decodeVec_12 (by simp only [bitsOf]; omega)]
  rw [fieldAt_eq (x := d) (by omega),
    fieldAt_eq (x := a) (by omega),
    fieldAt_eq (x := b) (by omega),
    fieldAt_eq (x := m) (by omega),
    fieldAt_eq (x := f) (by omega)]
theorem vred (d : BitVec 6) (a : BitVec 6) (m : BitVec 3) (f : BitVec 3) : Statement (.vred d a m f) := by
  intro _
  have := d.isLt; have := a.isLt; have := m.isLt; have := f.isLt
  have hw : encodeNat (.vred d a m f) = 0x4D000000 + d.toNat * 2 ^ 18 + a.toNat * 2 ^ 12 + m.toNat * 2 ^ 3 + f.toNat * 2 ^ 0 := rfl
  rw [decodeWord_encode (by omega)]
  generalize encodeNat (.vred d a m f) = enc at hw ⊢
  rw [decodeNat_vec (by simp only [tagOf, bitsOf]; omega), decodeVec_13 (by simp only [bitsOf]; omega)]
  rw [if_pos (by simp only [bitsOf]; omega)]
  rw [fieldAt_eq (x := d) (by omega),
    fieldAt_eq (x := a) (by omega),
    fieldAt_eq (x := m) (by omega),
    fieldAt_eq (x := f) (by omega)]
theorem vscan (d : BitVec 6) (a : BitVec 6) (m : BitVec 3) (f : BitVec 3) : Statement (.vscan d a m f) := by
  intro _
  have := d.isLt; have := a.isLt; have := m.isLt; have := f.isLt
  have hw : encodeNat (.vscan d a m f) = 0x4E000000 + d.toNat * 2 ^ 18 + a.toNat * 2 ^ 12 + m.toNat * 2 ^ 3 + f.toNat * 2 ^ 0 := rfl
  rw [decodeWord_encode (by omega)]
  generalize encodeNat (.vscan d a m f) = enc at hw ⊢
  rw [decodeNat_vec (by simp only [tagOf, bitsOf]; omega), decodeVec_14 (by simp only [bitsOf]; omega)]
  rw [if_pos (by simp only [bitsOf]; omega)]
  rw [fieldAt_eq (x := d) (by omega),
    fieldAt_eq (x := a) (by omega),
    fieldAt_eq (x := m) (by omega),
    fieldAt_eq (x := f) (by omega)]
theorem vperm (d : BitVec 6) (a : BitVec 6) (b : BitVec 6) (m : BitVec 3) (f : BitVec 3) : Statement (.vperm d a b m f) := by
  intro _
  have := d.isLt; have := a.isLt; have := b.isLt; have := m.isLt; have := f.isLt
  have hw : encodeNat (.vperm d a b m f) = 0x4F000000 + d.toNat * 2 ^ 18 + a.toNat * 2 ^ 12 + b.toNat * 2 ^ 6 + m.toNat * 2 ^ 3 + f.toNat * 2 ^ 0 := rfl
  rw [decodeWord_encode (by omega)]
  generalize encodeNat (.vperm d a b m f) = enc at hw ⊢
  rw [decodeNat_vec (by simp only [tagOf, bitsOf]; omega), decodeVec_15 (by simp only [bitsOf]; omega)]
  rw [fieldAt_eq (x := d) (by omega),
    fieldAt_eq (x := a) (by omega),
    fieldAt_eq (x := b) (by omega),
    fieldAt_eq (x := m) (by omega),
    fieldAt_eq (x := f) (by omega)]
theorem vslide (d : BitVec 6) (a : BitVec 6) (c : BitVec 6) (m : BitVec 3) (f : BitVec 3) : Statement (.vslide d a c m f) := by
  intro _
  have := d.isLt; have := a.isLt; have := c.isLt; have := m.isLt; have := f.isLt
  have hw : encodeNat (.vslide d a c m f) = 0x50000000 + d.toNat * 2 ^ 18 + a.toNat * 2 ^ 12 + c.toNat * 2 ^ 6 + m.toNat * 2 ^ 3 + f.toNat * 2 ^ 0 := rfl
  rw [decodeWord_encode (by omega)]
  generalize encodeNat (.vslide d a c m f) = enc at hw ⊢
  rw [decodeNat_vec (by simp only [tagOf, bitsOf]; omega), decodeVec_16 (by simp only [bitsOf]; omega)]
  rw [fieldAt_eq (x := d) (by omega),
    fieldAt_eq (x := a) (by omega),
    fieldAt_eq (x := c) (by omega),
    fieldAt_eq (x := m) (by omega),
    fieldAt_eq (x := f) (by omega)]
theorem vbcast (d : BitVec 6) (a : BitVec 6) (l : BitVec 6) (m : BitVec 3) (h : BitVec 3) : Statement (.vbcast d a l m h) := by
  intro _
  have := d.isLt; have := a.isLt; have := l.isLt; have := m.isLt; have := h.isLt
  have hw : encodeNat (.vbcast d a l m h) = 0x51000000 + d.toNat * 2 ^ 18 + a.toNat * 2 ^ 12 + l.toNat * 2 ^ 6 + m.toNat * 2 ^ 3 + h.toNat * 2 ^ 0 := rfl
  rw [decodeWord_encode (by omega)]
  generalize encodeNat (.vbcast d a l m h) = enc at hw ⊢
  rw [decodeNat_vec (by simp only [tagOf, bitsOf]; omega), decodeVec_17 (by simp only [bitsOf]; omega)]
  rw [fieldAt_eq (x := d) (by omega),
    fieldAt_eq (x := a) (by omega),
    fieldAt_eq (x := l) (by omega),
    fieldAt_eq (x := m) (by omega),
    fieldAt_eq (x := h) (by omega)]
theorem vmov (d : BitVec 6) (a : BitVec 6) (m : BitVec 3) : Statement (.vmov d a m) := by
  intro _
  have := d.isLt; have := a.isLt; have := m.isLt
  have hw : encodeNat (.vmov d a m) = 0x52000000 + d.toNat * 2 ^ 18 + a.toNat * 2 ^ 12 + m.toNat * 2 ^ 3 := rfl
  rw [decodeWord_encode (by omega)]
  generalize encodeNat (.vmov d a m) = enc at hw ⊢
  rw [decodeNat_vec (by simp only [tagOf, bitsOf]; omega), decodeVec_18 (by simp only [bitsOf]; omega)]
  rw [if_pos (by simp only [bitsOf]; omega)]
  rw [fieldAt_eq (x := d) (by omega),
    fieldAt_eq (x := a) (by omega),
    fieldAt_eq (x := m) (by omega)]
theorem vmskLogic (d : BitVec 6) (a : BitVec 6) (b : BitVec 6) (f : BitVec 2) : Statement (.vmskLogic d a b f) := by
  intro _
  have := d.isLt; have := a.isLt; have := b.isLt; have := f.isLt
  have hw : encodeNat (.vmskLogic d a b f) = 0x53000000 + d.toNat * 2 ^ 18 + a.toNat * 2 ^ 12 + b.toNat * 2 ^ 6 + f.toNat * 2 ^ 0 := rfl
  rw [decodeWord_encode (by omega)]
  generalize encodeNat (.vmskLogic d a b f) = enc at hw ⊢
  rw [decodeNat_vec (by simp only [tagOf, bitsOf]; omega), decodeVec_19 (by simp only [bitsOf]; omega)]
  rw [if_neg (by simp only [bitsOf]; omega), if_neg (by simp only [bitsOf]; omega), if_neg (by simp only [bitsOf]; omega), if_pos (by simp only [bitsOf]; omega)]
  rw [fieldAt_eq (x := d) (by omega),
    fieldAt_eq (x := a) (by omega),
    fieldAt_eq (x := b) (by omega),
    fieldAt_eq (x := f) (by omega)]
theorem vmskLd (d : BitVec 6) (a : BitVec 6) : Statement (.vmskLd d a) := by
  intro _
  have := d.isLt; have := a.isLt
  have hw : encodeNat (.vmskLd d a) = 0x53000004 + d.toNat * 2 ^ 18 + a.toNat * 2 ^ 12 := rfl
  rw [decodeWord_encode (by omega)]
  generalize encodeNat (.vmskLd d a) = enc at hw ⊢
  rw [decodeNat_vec (by simp only [tagOf, bitsOf]; omega), decodeVec_19 (by simp only [bitsOf]; omega)]
  rw [if_pos (by simp only [bitsOf]; omega)]
  rw [fieldAt_eq (x := d) (by omega),
    fieldAt_eq (x := a) (by omega)]
theorem vmskSt (d : BitVec 6) (a : BitVec 6) : Statement (.vmskSt d a) := by
  intro _
  have := d.isLt; have := a.isLt
  have hw : encodeNat (.vmskSt d a) = 0x53000005 + d.toNat * 2 ^ 18 + a.toNat * 2 ^ 12 := rfl
  rw [decodeWord_encode (by omega)]
  generalize encodeNat (.vmskSt d a) = enc at hw ⊢
  rw [decodeNat_vec (by simp only [tagOf, bitsOf]; omega), decodeVec_19 (by simp only [bitsOf]; omega)]
  rw [if_neg (by simp only [bitsOf]; omega), if_pos (by simp only [bitsOf]; omega)]
  rw [fieldAt_eq (x := d) (by omega),
    fieldAt_eq (x := a) (by omega)]
theorem vmskPop (d : BitVec 6) (a : BitVec 6) : Statement (.vmskPop d a) := by
  intro _
  have := d.isLt; have := a.isLt
  have hw : encodeNat (.vmskPop d a) = 0x53000006 + d.toNat * 2 ^ 18 + a.toNat * 2 ^ 12 := rfl
  rw [decodeWord_encode (by omega)]
  generalize encodeNat (.vmskPop d a) = enc at hw ⊢
  rw [decodeNat_vec (by simp only [tagOf, bitsOf]; omega), decodeVec_19 (by simp only [bitsOf]; omega)]
  rw [if_neg (by simp only [bitsOf]; omega), if_neg (by simp only [bitsOf]; omega), if_pos (by simp only [bitsOf]; omega)]
  rw [fieldAt_eq (x := d) (by omega),
    fieldAt_eq (x := a) (by omega)]
theorem vsh (d : BitVec 6) (a : BitVec 6) (b : BitVec 6) (m : BitVec 3) (f : BitVec 3) : Statement (.vsh d a b m f) := by
  intro _
  have := d.isLt; have := a.isLt; have := b.isLt; have := m.isLt; have := f.isLt
  have hw : encodeNat (.vsh d a b m f) = 0x54000000 + d.toNat * 2 ^ 18 + a.toNat * 2 ^ 12 + b.toNat * 2 ^ 6 + m.toNat * 2 ^ 3 + f.toNat * 2 ^ 0 := rfl
  rw [decodeWord_encode (by omega)]
  generalize encodeNat (.vsh d a b m f) = enc at hw ⊢
  rw [decodeNat_vec (by simp only [tagOf, bitsOf]; omega), decodeVec_20 (by simp only [bitsOf]; omega)]
  rw [fieldAt_eq (x := d) (by omega),
    fieldAt_eq (x := a) (by omega),
    fieldAt_eq (x := b) (by omega),
    fieldAt_eq (x := m) (by omega),
    fieldAt_eq (x := f) (by omega)]
theorem vtag (d : BitVec 6) (a : BitVec 6) (t : BitVec 6) : Statement (.vtag d a t) := by
  intro _
  have := d.isLt; have := a.isLt; have := t.isLt
  have hw : encodeNat (.vtag d a t) = 0x55000000 + d.toNat * 2 ^ 18 + a.toNat * 2 ^ 12 + t.toNat * 2 ^ 6 := rfl
  rw [decodeWord_encode (by omega)]
  generalize encodeNat (.vtag d a t) = enc at hw ⊢
  rw [decodeNat_vec (by simp only [tagOf, bitsOf]; omega), decodeVec_21 (by simp only [bitsOf]; omega)]
  rw [if_pos (by simp only [bitsOf]; omega)]
  rw [fieldAt_eq (x := d) (by omega),
    fieldAt_eq (x := a) (by omega),
    fieldAt_eq (x := t) (by omega)]
theorem vacc (d : BitVec 6) (r : BitVec 6) (k : BitVec 1) (h : BitVec 1) (m : BitVec 3) (f : BitVec 3) : Statement (.vacc d r k h m f) := by
  intro _
  have := d.isLt; have := r.isLt; have := k.isLt; have := h.isLt; have := m.isLt; have := f.isLt
  have hw : encodeNat (.vacc d r k h m f) = 0x56000000 + d.toNat * 2 ^ 18 + r.toNat * 2 ^ 12 + k.toNat * 2 ^ 7 + h.toNat * 2 ^ 6 + m.toNat * 2 ^ 3 + f.toNat * 2 ^ 0 := rfl
  rw [decodeWord_encode (by omega)]
  generalize encodeNat (.vacc d r k h m f) = enc at hw ⊢
  rw [decodeNat_vec (by simp only [tagOf, bitsOf]; omega), decodeVec_22 (by simp only [bitsOf]; omega)]
  rw [if_pos (by simp only [bitsOf]; omega)]
  rw [fieldAt_eq (x := d) (by omega),
    fieldAt_eq (x := r) (by omega),
    fieldAt_eq (x := k) (by omega),
    fieldAt_eq (x := h) (by omega),
    fieldAt_eq (x := m) (by omega),
    fieldAt_eq (x := f) (by omega)]
theorem vhist (a : BitVec 6) (b : BitVec 6) (m : BitVec 3) (f : BitVec 3) : Statement (.vhist a b m f) := by
  intro _
  have := a.isLt; have := b.isLt; have := m.isLt; have := f.isLt
  have hw : encodeNat (.vhist a b m f) = 0x57000000 + a.toNat * 2 ^ 12 + b.toNat * 2 ^ 6 + m.toNat * 2 ^ 3 + f.toNat * 2 ^ 0 := rfl
  rw [decodeWord_encode (by omega)]
  generalize encodeNat (.vhist a b m f) = enc at hw ⊢
  rw [decodeNat_vec (by simp only [tagOf, bitsOf]; omega), decodeVec_23 (by simp only [bitsOf]; omega)]
  rw [if_pos (by simp only [bitsOf]; omega)]
  rw [fieldAt_eq (x := a) (by omega),
    fieldAt_eq (x := b) (by omega),
    fieldAt_eq (x := m) (by omega),
    fieldAt_eq (x := f) (by omega)]
theorem vfn (d : BitVec 6) (a : BitVec 6) (m : BitVec 3) (f : BitVec 3) : Statement (.vfn d a m f) := by
  intro _
  have := d.isLt; have := a.isLt; have := m.isLt; have := f.isLt
  have hw : encodeNat (.vfn d a m f) = 0x58000000 + d.toNat * 2 ^ 18 + a.toNat * 2 ^ 12 + m.toNat * 2 ^ 3 + f.toNat * 2 ^ 0 := rfl
  rw [decodeWord_encode (by omega)]
  generalize encodeNat (.vfn d a m f) = enc at hw ⊢
  rw [decodeNat_vec (by simp only [tagOf, bitsOf]; omega), decodeVec_24 (by simp only [bitsOf]; omega)]
  rw [if_pos (by simp only [bitsOf]; omega)]
  rw [fieldAt_eq (x := d) (by omega),
    fieldAt_eq (x := a) (by omega),
    fieldAt_eq (x := m) (by omega),
    fieldAt_eq (x := f) (by omega)]
theorem viota (d : BitVec 6) (t : BitVec 6) (m : BitVec 3) (f : BitVec 3) : Statement (.viota d t m f) := by
  intro _
  have := d.isLt; have := t.isLt; have := m.isLt; have := f.isLt
  have hw : encodeNat (.viota d t m f) = 0x59000000 + d.toNat * 2 ^ 18 + t.toNat * 2 ^ 6 + m.toNat * 2 ^ 3 + f.toNat * 2 ^ 0 := rfl
  rw [decodeWord_encode (by omega)]
  generalize encodeNat (.viota d t m f) = enc at hw ⊢
  rw [decodeNat_vec (by simp only [tagOf, bitsOf]; omega), decodeVec_25 (by simp only [bitsOf]; omega)]
  rw [if_pos (by simp only [bitsOf]; omega)]
  rw [fieldAt_eq (x := d) (by omega),
    fieldAt_eq (x := t) (by omega),
    fieldAt_eq (x := m) (by omega),
    fieldAt_eq (x := f) (by omega)]
theorem vclamp (d : BitVec 6) (a : BitVec 6) (b : BitVec 6) (m : BitVec 3) : Statement (.vclamp d a b m) := by
  intro _
  have := d.isLt; have := a.isLt; have := b.isLt; have := m.isLt
  have hw : encodeNat (.vclamp d a b m) = 0x5A000000 + d.toNat * 2 ^ 18 + a.toNat * 2 ^ 12 + b.toNat * 2 ^ 6 + m.toNat * 2 ^ 3 := rfl
  rw [decodeWord_encode (by omega)]
  generalize encodeNat (.vclamp d a b m) = enc at hw ⊢
  rw [decodeNat_vec (by simp only [tagOf, bitsOf]; omega), decodeVec_26 (by simp only [bitsOf]; omega)]
  rw [if_pos (by simp only [bitsOf]; omega)]
  rw [fieldAt_eq (x := d) (by omega),
    fieldAt_eq (x := a) (by omega),
    fieldAt_eq (x := b) (by omega),
    fieldAt_eq (x := m) (by omega)]
theorem vtrn (d : BitVec 6) (a : BitVec 6) (b : BitVec 6) (m : BitVec 3) (f : BitVec 3) : Statement (.vtrn d a b m f) := by
  intro _
  have := d.isLt; have := a.isLt; have := b.isLt; have := m.isLt; have := f.isLt
  have hw : encodeNat (.vtrn d a b m f) = 0x5B000000 + d.toNat * 2 ^ 18 + a.toNat * 2 ^ 12 + b.toNat * 2 ^ 6 + m.toNat * 2 ^ 3 + f.toNat * 2 ^ 0 := rfl
  rw [decodeWord_encode (by omega)]
  generalize encodeNat (.vtrn d a b m f) = enc at hw ⊢
  rw [decodeNat_vec (by simp only [tagOf, bitsOf]; omega), decodeVec_27 (by simp only [bitsOf]; omega)]
  rw [fieldAt_eq (x := d) (by omega),
    fieldAt_eq (x := a) (by omega),
    fieldAt_eq (x := b) (by omega),
    fieldAt_eq (x := m) (by omega),
    fieldAt_eq (x := f) (by omega)]
theorem mma (k : BitVec 6) (a : BitVec 6) (b : BitVec 6) (u : BitVec 1) (v : BitVec 1) (w : BitVec 1) : Statement (.mma k a b u v w) := by
  intro _
  have := k.isLt; have := a.isLt; have := b.isLt; have := u.isLt; have := v.isLt; have := w.isLt
  have hw : encodeNat (.mma k a b u v w) = 0x60000000 + k.toNat * 2 ^ 18 + a.toNat * 2 ^ 12 + b.toNat * 2 ^ 6 + u.toNat * 2 ^ 2 + v.toNat * 2 ^ 1 + w.toNat * 2 ^ 0 := rfl
  rw [decodeWord_encode (by omega)]
  generalize encodeNat (.mma k a b u v w) = enc at hw ⊢
  rw [decodeNat_mat (by simp only [tagOf, bitsOf]; omega), decodeMat_0 (by simp only [bitsOf]; omega)]
  rw [if_pos (by simp only [bitsOf]; omega)]
  rw [fieldAt_eq (x := k) (by omega),
    fieldAt_eq (x := a) (by omega),
    fieldAt_eq (x := b) (by omega),
    fieldAt_eq (x := u) (by omega),
    fieldAt_eq (x := v) (by omega),
    fieldAt_eq (x := w) (by omega)]
theorem mzero (k : BitVec 6) : Statement (.mzero k) := by
  intro _
  have := k.isLt
  have hw : encodeNat (.mzero k) = 0x61000000 + k.toNat * 2 ^ 18 := rfl
  rw [decodeWord_encode (by omega)]
  generalize encodeNat (.mzero k) = enc at hw ⊢
  rw [decodeNat_mat (by simp only [tagOf, bitsOf]; omega), decodeMat_1 (by simp only [bitsOf]; omega)]
  rw [if_pos (by simp only [bitsOf]; omega)]
  rw [fieldAt_eq (x := k) (by omega)]
theorem mzeroT (k : BitVec 6) : Statement (.mzeroT k) := by
  intro _
  have := k.isLt
  have hw : encodeNat (.mzeroT k) = 0x61000001 + k.toNat * 2 ^ 18 := rfl
  rw [decodeWord_encode (by omega)]
  generalize encodeNat (.mzeroT k) = enc at hw ⊢
  rw [decodeNat_mat (by simp only [tagOf, bitsOf]; omega), decodeMat_1 (by simp only [bitsOf]; omega)]
  rw [if_neg (by simp only [bitsOf]; omega), if_pos (by simp only [bitsOf]; omega)]
  rw [fieldAt_eq (x := k) (by omega)]
theorem manch (k : BitVec 6) (i : BitVec 10) : Statement (.manch k i) := by
  intro _
  have := k.isLt; have := i.isLt
  have hw : encodeNat (.manch k i) = 0x62000000 + k.toNat * 2 ^ 18 + i.toNat * 2 ^ 0 := rfl
  rw [decodeWord_encode (by omega)]
  generalize encodeNat (.manch k i) = enc at hw ⊢
  rw [decodeNat_mat (by simp only [tagOf, bitsOf]; omega), decodeMat_2 (by simp only [bitsOf]; omega)]
  rw [if_pos (by simp only [bitsOf]; omega)]
  rw [fieldAt_eq (x := k) (by omega),
    fieldAt_eq (x := i) (by omega)]
theorem mshape (m : BitVec 7) (n : BitVec 7) (k : BitVec 8) : Statement (.mshape m n k) := by
  intro _
  have := m.isLt; have := n.isLt; have := k.isLt
  have hw : encodeNat (.mshape m n k) = 0x63000000 + m.toNat * 2 ^ 17 + n.toNat * 2 ^ 10 + k.toNat * 2 ^ 2 := rfl
  rw [decodeWord_encode (by omega)]
  generalize encodeNat (.mshape m n k) = enc at hw ⊢
  rw [decodeNat_mat (by simp only [tagOf, bitsOf]; omega), decodeMat_3 (by simp only [bitsOf]; omega)]
  rw [if_pos (by simp only [bitsOf]; omega)]
  rw [fieldAt_eq (x := m) (by omega),
    fieldAt_eq (x := n) (by omega),
    fieldAt_eq (x := k) (by omega)]
theorem mfmt (a : BitVec 6) (b : BitVec 6) : Statement (.mfmt a b) := by
  intro _
  have := a.isLt; have := b.isLt
  have hw : encodeNat (.mfmt a b) = 0x64000000 + a.toNat * 2 ^ 18 + b.toNat * 2 ^ 12 := rfl
  rw [decodeWord_encode (by omega)]
  generalize encodeNat (.mfmt a b) = enc at hw ⊢
  rw [decodeNat_mat (by simp only [tagOf, bitsOf]; omega), decodeMat_4 (by simp only [bitsOf]; omega)]
  rw [if_pos (by simp only [bitsOf]; omega)]
  rw [fieldAt_eq (x := a) (by omega),
    fieldAt_eq (x := b) (by omega)]
theorem mldt (k : BitVec 6) (t : BitVec 6) (c : BitVec 3) (l : BitVec 2) : Statement (.mldt k t c l) := by
  intro _
  have := k.isLt; have := t.isLt; have := c.isLt; have := l.isLt
  have hw : encodeNat (.mldt k t c l) = 0x65000000 + k.toNat * 2 ^ 18 + t.toNat * 2 ^ 12 + c.toNat * 2 ^ 6 + l.toNat * 2 ^ 0 := rfl
  rw [decodeWord_encode (by omega)]
  generalize encodeNat (.mldt k t c l) = enc at hw ⊢
  rw [decodeNat_mat (by simp only [tagOf, bitsOf]; omega), decodeMat_5 (by simp only [bitsOf]; omega)]
  rw [if_pos (by simp only [bitsOf]; omega)]
  rw [fieldAt_eq (x := k) (by omega),
    fieldAt_eq (x := t) (by omega),
    fieldAt_eq (x := c) (by omega),
    fieldAt_eq (x := l) (by omega)]
theorem msta (e : BitVec 1) (j : BitVec 4) (t : BitVec 6) (k : BitVec 1) (o : BitVec 1) (r : BitVec 3) : Statement (.msta e j t k o r) := by
  intro _
  have := e.isLt; have := j.isLt; have := t.isLt; have := k.isLt; have := o.isLt; have := r.isLt
  have hw : encodeNat (.msta e j t k o r) = 0x66000000 + e.toNat * 2 ^ 22 + j.toNat * 2 ^ 18 + t.toNat * 2 ^ 12 + k.toNat * 2 ^ 6 + o.toNat * 2 ^ 3 + r.toNat * 2 ^ 0 := rfl
  rw [decodeWord_encode (by omega)]
  generalize encodeNat (.msta e j t k o r) = enc at hw ⊢
  rw [decodeNat_mat (by simp only [tagOf, bitsOf]; omega), decodeMat_6 (by simp only [bitsOf]; omega)]
  rw [if_pos (by simp only [bitsOf]; omega)]
  rw [fieldAt_eq (x := e) (by omega),
    fieldAt_eq (x := j) (by omega),
    fieldAt_eq (x := t) (by omega),
    fieldAt_eq (x := k) (by omega),
    fieldAt_eq (x := o) (by omega),
    fieldAt_eq (x := r) (by omega)]
theorem mchk (e : BitVec 1) (j : BitVec 4) (i : BitVec 1) (c : BitVec 1) : Statement (.mchk e j i c) := by
  intro _
  have := e.isLt; have := j.isLt; have := i.isLt; have := c.isLt
  have hw : encodeNat (.mchk e j i c) = 0x67000000 + e.toNat * 2 ^ 22 + j.toNat * 2 ^ 18 + i.toNat * 2 ^ 1 + c.toNat * 2 ^ 0 := rfl
  rw [decodeWord_encode (by omega)]
  generalize encodeNat (.mchk e j i c) = enc at hw ⊢
  rw [decodeNat_mat (by simp only [tagOf, bitsOf]; omega), decodeMat_7 (by simp only [bitsOf]; omega)]
  rw [if_pos (by simp only [bitsOf]; omega)]
  rw [fieldAt_eq (x := e) (by omega),
    fieldAt_eq (x := j) (by omega),
    fieldAt_eq (x := i) (by omega),
    fieldAt_eq (x := c) (by omega)]
theorem mmov (d : BitVec 6) (a : BitVec 6) : Statement (.mmov d a) := by
  intro _
  have := d.isLt; have := a.isLt
  have hw : encodeNat (.mmov d a) = 0x68000000 + d.toNat * 2 ^ 18 + a.toNat * 2 ^ 12 := rfl
  rw [decodeWord_encode (by omega)]
  generalize encodeNat (.mmov d a) = enc at hw ⊢
  rw [decodeNat_mat (by simp only [tagOf, bitsOf]; omega), decodeMat_8 (by simp only [bitsOf]; omega)]
  rw [if_pos (by simp only [bitsOf]; omega)]
  rw [fieldAt_eq (x := d) (by omega),
    fieldAt_eq (x := a) (by omega)]
theorem mmovFmt (d : BitVec 6) (t : BitVec 6) (k : BitVec 1) (o : BitVec 1) (r : BitVec 3) : Statement (.mmovFmt d t k o r) := by
  intro _
  have := d.isLt; have := t.isLt; have := k.isLt; have := o.isLt; have := r.isLt
  have hw : encodeNat (.mmovFmt d t k o r) = 0x68000010 + d.toNat * 2 ^ 18 + t.toNat * 2 ^ 12 + k.toNat * 2 ^ 6 + o.toNat * 2 ^ 3 + r.toNat * 2 ^ 0 := rfl
  rw [decodeWord_encode (by omega)]
  generalize encodeNat (.mmovFmt d t k o r) = enc at hw ⊢
  rw [decodeNat_mat (by simp only [tagOf, bitsOf]; omega), decodeMat_8 (by simp only [bitsOf]; omega)]
  rw [if_neg (by simp only [bitsOf]; omega), if_pos (by simp only [bitsOf]; omega)]
  rw [fieldAt_eq (x := d) (by omega),
    fieldAt_eq (x := t) (by omega),
    fieldAt_eq (x := k) (by omega),
    fieldAt_eq (x := o) (by omega),
    fieldAt_eq (x := r) (by omega)]
theorem mscl (s : BitVec 1) : Statement (.mscl s) := by
  intro _
  have := s.isLt
  have hw : encodeNat (.mscl s) = 0x69000000 + s.toNat * 2 ^ 18 := rfl
  rw [decodeWord_encode (by omega)]
  generalize encodeNat (.mscl s) = enc at hw ⊢
  rw [decodeNat_mat (by simp only [tagOf, bitsOf]; omega), decodeMat_9 (by simp only [bitsOf]; omega)]
  rw [if_pos (by simp only [bitsOf]; omega)]
  rw [fieldAt_eq (x := s) (by omega)]
theorem msclOne (s : BitVec 1) : Statement (.msclOne s) := by
  intro _
  have := s.isLt
  have hw : encodeNat (.msclOne s) = 0x69000001 + s.toNat * 2 ^ 18 := rfl
  rw [decodeWord_encode (by omega)]
  generalize encodeNat (.msclOne s) = enc at hw ⊢
  rw [decodeNat_mat (by simp only [tagOf, bitsOf]; omega), decodeMat_9 (by simp only [bitsOf]; omega)]
  rw [if_neg (by simp only [bitsOf]; omega), if_pos (by simp only [bitsOf]; omega)]
  rw [fieldAt_eq (x := s) (by omega)]
theorem xset (d : BitVec 6) (c : BitVec 3) : Statement (.xset d c) := by
  intro _
  have := d.isLt; have := c.isLt
  have hw : encodeNat (.xset d c) = 0x80000000 + d.toNat * 2 ^ 18 + c.toNat * 2 ^ 0 := rfl
  rw [decodeWord_encode (by omega)]
  generalize encodeNat (.xset d c) = enc at hw ⊢
  rw [decodeNat_xfr (by simp only [tagOf, bitsOf]; omega), decodeXfr_0 (by simp only [bitsOf]; omega)]
  rw [if_pos (by simp only [bitsOf]; omega)]
  rw [fieldAt_eq (x := d) (by omega),
    fieldAt_eq (x := c) (by omega)]
theorem xgo (e : BitVec 1) (j : BitVec 4) (r : BitVec 2) : Statement (.xgo e j r) := by
  intro _
  have := e.isLt; have := j.isLt; have := r.isLt
  have hw : encodeNat (.xgo e j r) = 0x81000000 + e.toNat * 2 ^ 22 + j.toNat * 2 ^ 18 + r.toNat * 2 ^ 12 := rfl
  rw [decodeWord_encode (by omega)]
  generalize encodeNat (.xgo e j r) = enc at hw ⊢
  rw [decodeNat_xfr (by simp only [tagOf, bitsOf]; omega), decodeXfr_1 (by simp only [bitsOf]; omega)]
  rw [if_pos (by simp only [bitsOf]; omega)]
  rw [fieldAt_eq (x := e) (by omega),
    fieldAt_eq (x := j) (by omega),
    fieldAt_eq (x := r) (by omega)]
theorem xclr : Statement .xclr := by
  intro _
  have hw : encodeNat .xclr = 0x82000000 := rfl
  rw [decodeWord_encode (by omega)]
  generalize encodeNat .xclr = enc at hw ⊢
  rw [decodeNat_xfr (by simp only [tagOf, bitsOf]; omega), decodeXfr_2 (by simp only [bitsOf]; omega)]
  rw [if_pos (by simp only [bitsOf]; omega)]
theorem xclrDrop : Statement .xclrDrop := by
  intro _
  have hw : encodeNat .xclrDrop = 0x82000001 := rfl
  rw [decodeWord_encode (by omega)]
  generalize encodeNat .xclrDrop = enc at hw ⊢
  rw [decodeNat_xfr (by simp only [tagOf, bitsOf]; omega), decodeXfr_2 (by simp only [bitsOf]; omega)]
  rw [if_neg (by simp only [bitsOf]; omega), if_pos (by simp only [bitsOf]; omega)]
theorem bootStart : Statement .bootStart := fun h => by cases h
theorem dieAuthReply : Statement .dieAuthReply := fun h => by cases h
theorem dieAuthConfirm : Statement .dieAuthConfirm := fun h => by cases h
theorem dieAuthTimeout : Statement .dieAuthTimeout := fun h => by cases h
theorem trainingComplete : Statement .trainingComplete := fun h => by cases h
theorem getVersion : Statement .getVersion := fun h => by cases h
theorem getCapabilities : Statement .getCapabilities := fun h => by cases h
theorem negotiateAlgorithms : Statement .negotiateAlgorithms := fun h => by cases h
theorem getDigests : Statement .getDigests := fun h => by cases h
theorem getCertificate : Statement .getCertificate := fun h => by cases h
theorem challenge : Statement .challenge := fun h => by cases h
theorem getMeasurements : Statement .getMeasurements := fun h => by cases h
theorem unsupportedRequest : Statement .unsupportedRequest := fun h => by cases h
theorem packetForward : Statement .packetForward := fun h => by cases h
theorem dataFlit : Statement .dataFlit := fun h => by cases h
theorem idle : Statement .idle := fun h => by cases h
theorem nack : Statement .nack := fun h => by cases h
theorem join : Statement .join := fun h => by cases h
theorem retrain : Statement .retrain := fun h => by cases h
theorem replayTimeout : Statement .replayTimeout := fun h => by cases h
theorem linkRetrain : Statement .linkRetrain := fun h => by cases h
theorem retrainExchangeDone : Statement .retrainExchangeDone := fun h => by cases h
theorem keySwitch : Statement .keySwitch := fun h => by cases h
theorem read : Statement .read := fun h => by cases h
theorem write : Statement .write := fun h => by cases h
theorem amoRequest : Statement .amoRequest := fun h => by cases h
theorem casRequest : Statement .casRequest := fun h => by cases h
theorem ptry : Statement .ptry := fun h => by cases h
theorem pdata : Statement .pdata := fun h => by cases h
theorem pdone : Statement .pdone := fun h => by cases h
theorem resp : Statement .resp := fun h => by cases h
theorem notice : Statement .notice := fun h => by cases h
theorem requestTimeout : Statement .requestTimeout := fun h => by cases h
theorem retryResend : Statement .retryResend := fun h => by cases h
theorem shadowRelease : Statement .shadowRelease := fun h => by cases h
theorem peerincWrite : Statement .peerincWrite := fun h => by cases h
theorem gwinWrite : Statement .gwinWrite := fun h => by cases h
theorem ingressKeyReplace : Statement .ingressKeyReplace := fun h => by cases h
theorem launchWrite : Statement .launchWrite := fun h => by cases h
theorem cqctlWrite : Statement .cqctlWrite := fun h => by cases h
theorem vistatRead : Statement .vistatRead := fun h => by cases h
theorem bar2Read : Statement .bar2Read := fun h => by cases h
theorem bar2Write : Statement .bar2Write := fun h => by cases h
theorem functionLevelReset : Statement .functionLevelReset := fun h => by cases h
theorem cxlLinkDown : Statement .cxlLinkDown := fun h => by cases h
theorem precopyRound : Statement .precopyRound := fun h => by cases h
theorem granuleMessage : Statement .granuleMessage := fun h => by cases h
theorem precopyRoundEnd : Statement .precopyRoundEnd := fun h => by cases h
theorem stoppingComplete : Statement .stoppingComplete := fun h => by cases h
theorem restoreCompleteReport : Statement .restoreCompleteReport := fun h => by cases h
theorem restoreFailedReport : Statement .restoreFailedReport := fun h => by cases h
theorem launchDecision : Statement .launchDecision := fun h => by cases h
theorem resourceReport : Statement .resourceReport := fun h => by cases h
theorem drainTimeout : Statement .drainTimeout := fun h => by cases h
theorem watchdogExpiry : Statement .watchdogExpiry := fun h => by cases h
theorem saveComplete : Statement .saveComplete := fun h => by cases h
theorem textPlaneFill : Statement .textPlaneFill := fun h => by cases h
theorem bankLive : Statement .bankLive := fun h => by cases h
theorem taskEnd : Statement .taskEnd := fun h => by cases h
theorem scrubComplete : Statement .scrubComplete := fun h => by cases h
theorem chrstGo : Statement .chrstGo := fun h => by cases h
theorem restoreReadComplete : Statement .restoreReadComplete := fun h => by cases h
theorem serviceTry : Statement .serviceTry := fun h => by cases h
theorem offerStep : Statement .offerStep := fun h => by cases h
theorem holdWindowExpiry : Statement .holdWindowExpiry := fun h => by cases h
theorem serviceEExpiry : Statement .serviceEExpiry := fun h => by cases h
theorem bounceReopen : Statement .bounceReopen := fun h => by cases h
theorem jobComplete : Statement .jobComplete := fun h => by cases h
theorem admqWrite : Statement .admqWrite := fun h => by cases h
theorem admdatRead : Statement .admdatRead := fun h => by cases h
theorem rslotWrite : Statement .rslotWrite := fun h => by cases h
theorem frameBoundary : Statement .frameBoundary := fun h => by cases h
theorem slotAllocatorRequest : Statement .slotAllocatorRequest := fun h => by cases h
theorem mptabWrite : Statement .mptabWrite := fun h => by cases h
theorem qmodeWrite : Statement .qmodeWrite := fun h => by cases h
theorem powerSample : Statement .powerSample := fun h => by cases h
theorem voltageStepDone : Statement .voltageStepDone := fun h => by cases h
theorem frequencyStepDone : Statement .frequencyStepDone := fun h => by cases h
theorem droop : Statement .droop := fun h => by cases h
theorem stretchEnd : Statement .stretchEnd := fun h => by cases h
theorem pclusWrite : Statement .pclusWrite := fun h => by cases h
theorem pclusRead : Statement .pclusRead := fun h => by cases h
theorem pwrcfgWrite : Statement .pwrcfgWrite := fun h => by cases h
theorem refcfgSync : Statement .refcfgSync := fun h => by cases h
theorem bitmapLoaded : Statement .bitmapLoaded := fun h => by cases h
theorem refresh : Statement .refresh := fun h => by cases h
theorem temperatureEvent : Statement .temperatureEvent := fun h => by cases h
theorem pathFollow : Statement .pathFollow := fun h => by cases h
theorem bankSwitchOut : Statement .bankSwitchOut := fun h => by cases h
theorem queueTrap : Statement .queueTrap := fun h => by cases h
theorem loadDataArrival : Statement .loadDataArrival := fun h => by cases h
theorem headerPass : Statement .headerPass := fun h => by cases h
theorem rendezvous : Statement .rendezvous := fun h => by cases h
theorem matrixCommandBegin : Statement .matrixCommandBegin := fun h => by cases h
theorem matrixCommandComplete : Statement .matrixCommandComplete := fun h => by cases h
theorem vectorWordComplete : Statement .vectorWordComplete := fun h => by cases h
theorem transferGranuleStart : Statement .transferGranuleStart := fun h => by cases h
theorem transferGranuleComplete : Statement .transferGranuleComplete := fun h => by cases h
theorem migrateRequest : Statement .migrateRequest := fun h => by cases h
theorem batchClose : Statement .batchClose := fun h => by cases h
theorem batchDeliver : Statement .batchDeliver := fun h => by cases h
theorem fcheadWrite : Statement .fcheadWrite := fun h => by cases h
theorem fcbufWrite : Statement .fcbufWrite := fun h => by cases h
theorem fcansRetry : Statement .fcansRetry := fun h => by cases h
theorem fcansAccess : Statement .fcansAccess := fun h => by cases h
theorem handlerEntry : Statement .handlerEntry := fun h => by cases h
theorem writeApply : Statement .writeApply := fun h => by cases h
theorem scopPerform : Statement .scopPerform := fun h => by cases h
theorem barrierComplete : Statement .barrierComplete := fun h => by cases h
theorem interruptMessage : Statement .interruptMessage := fun h => by cases h
theorem registerWrite : Statement .registerWrite := fun h => by cases h
theorem illegalWord : Statement .illegalWord := fun h => by cases h
theorem linkTraining : Statement .linkTraining := fun h => by cases h
theorem precopyJobStart : Statement .precopyJobStart := fun h => by cases h
theorem portSlot : Statement .portSlot := fun h => by cases h

end Sys2Proof.Laws.RoundTrip
end

