-- ==== Sys2Proof/Tests/Slice0.lean ====
section
/-! SUPPORT. Tests: an ill-formed term for each check of well-formedness; every word of the table decoded from bits
written out by the spec's encodings; the spec's worked examples; and for every statement a state and operands that meet
its hypotheses. -/

set_option Elab.async false

namespace Sys2Proof.Tests

open Sys2Proof Sys2Proof.Machine Host

/-! ### Well-formedness -/

/-- R251 to R286: one ill-formed control word for each check; a word that meets its checks is allowed. -/
theorem test_wf_control :
    (Instr.shi 1 1 5 0).wf = false ∧ (Instr.cmp 1 1 1 12 0).wf = false ∧ (Instr.cmp 1 1 1 0 6).wf = false ∧
    (Instr.cmpi 1 1 12 0).wf = false ∧ (Instr.plog 1 16 1 0 0).wf = false ∧ (Instr.plog 1 1 16 0 0).wf = false ∧
    (Instr.plog 1 1 1 0 6).wf = false ∧ (Instr.engreq 16 1 1 0).wf = false ∧ (Instr.engctlUnhold 10).wf = false ∧
    (Instr.pwrAcq 16 1).wf = false ∧ (Instr.pwrAcq 1 0).wf = false ∧ (Instr.pwrAcq 1 5).wf = false ∧
    (Instr.bar 0 0).wf = false ∧ (Instr.bar 0 6).wf = false ∧ (Instr.barSplit 16 0 1).wf = false ∧
    (Instr.barSplit 1 0 0).wf = false ∧ (Instr.fence 6 1).wf = false ∧ (Instr.fence 0 0).wf = false ∧
    (Instr.launch 16 1 1).wf = false ∧ (Instr.intr 62).wf = false ∧ (Instr.rbind 1 8 1).wf = false ∧
    (Instr.bitf 1 1 32 32).wf = false ∧ (Instr.bitf 1 1 32 31).wf = true ∧ (Instr.bar 15 5).wf = true := by decide

/-- R303 to R311: one ill-formed MEM word for each check. -/
theorem test_wf_mem :
    (Instr.ldq 4 0 0 1 0).wf = false ∧ (Instr.stq 3 0 0 1 0).wf = false ∧ (Instr.stq 6 0 0 1 0).wf = false ∧
    (Instr.amo 1 1 1 9 2).wf = false ∧ (Instr.amo 1 1 1 0 1).wf = false ∧ (Instr.cas 1 1 1 0 1).wf = false ∧
    (Instr.scopLd 1 1 1).wf = false ∧ (Instr.scopSt 1 1 1).wf = false ∧ (Instr.scopRmw 1 1 1 1 2).wf = false ∧
    (Instr.scopRmw 1 1 1 7 2).wf = false ∧ (Instr.scopRmw 1 1 1 2 1).wf = false ∧ (Instr.pmake 8 1 1 0).wf = false ∧
    (Instr.amo 1 1 1 8 2).wf = true ∧ (Instr.stq 5 0 0 1 0).wf = true := by decide

/-- R226, R329 to R349: one ill-formed vector word for each check: a destination, a source, a tag, a function. -/
theorem test_wf_vector :
    (Instr.vadd 32 1 1 0 0).wf = false ∧ (Instr.vadd 1 37 1 0 0).wf = false ∧ (Instr.vadd 1 1 37 0 0).wf = false ∧
    (Instr.vadd 1 1 1 0 2).wf = false ∧ (Instr.vsub 1 1 1 0 2).wf = false ∧ (Instr.vmul 1 1 1 0 2).wf = false ∧
    (Instr.vfma 37 1 1 0 0).wf = false ∧ (Instr.vfma 1 1 1 0 4).wf = false ∧ (Instr.vmin 1 1 1 0 2).wf = false ∧
    (Instr.vmax 1 1 1 0 2).wf = false ∧ (Instr.vun 1 1 0 6).wf = false ∧ (Instr.vcmp 8 1 1 0 0).wf = false ∧
    (Instr.vsel 41 1 1 0).wf = false ∧ (Instr.vlog 1 1 1 0 6).wf = false ∧ (Instr.vshf 1 1 1 0 5).wf = false ∧
    (Instr.vcvt 1 1 0 0 0).wf = false ∧ (Instr.vcvt 1 1 0x0E 0 0).wf = false ∧ (Instr.vcvt 1 1 0x28 0 0).wf = false ∧
    (Instr.vscale 1 1 1 0 3).wf = false ∧ (Instr.vred 1 1 0 6).wf = false ∧ (Instr.vscan 1 1 0 6).wf = false ∧
    (Instr.vperm 1 1 1 0 2).wf = false ∧ (Instr.vslide 1 1 0 0 6).wf = false ∧ (Instr.vbcast 1 37 0 0 0).wf = false ∧
    (Instr.vmov 33 1 0).wf = false ∧ (Instr.vmskLogic 8 1 1 0).wf = false ∧ (Instr.vmskLd 8 1).wf = false ∧
    (Instr.vmskSt 1 8).wf = false ∧ (Instr.vmskPop 1 8).wf = false ∧ (Instr.vsh 1 1 1 0 4).wf = false ∧
    (Instr.vtag 37 1 1).wf = false ∧ (Instr.vtag 1 1 0).wf = false ∧ (Instr.vacc 1 0 0 0 0 6).wf = false ∧
    (Instr.vhist 1 1 0 0).wf = false ∧ (Instr.vhist 1 37 0 1).wf = false ∧ (Instr.vhist 1 0 0 2).wf = false ∧
    (Instr.vfn 1 1 0 4).wf = false ∧ (Instr.viota 1 0 0 0).wf = false ∧ (Instr.viota 1 8 0 0).wf = false ∧
    (Instr.viota 1 1 0 2).wf = false ∧ (Instr.vclamp 37 1 1 0).wf = false ∧ (Instr.vtrn 1 1 37 0 0).wf = false ∧
    (Instr.vadd 40 36 36 0 1).wf = true ∧ (Instr.vcvt 1 1 0x29 0 0).wf = true := by decide

/-- R352 to R365: one ill-formed matrix or transfer word for each check. -/
theorem test_wf_matrix_transfer :
    (Instr.mma 2 0 0 0 0 0).wf = false ∧ (Instr.mma 0 9 0 0 0 0).wf = false ∧ (Instr.mma 0 0 9 0 0 0).wf = false ∧
    (Instr.mzero 2).wf = false ∧ (Instr.mzeroT 8).wf = false ∧ (Instr.manch 2 0).wf = false ∧
    (Instr.mfmt 0x0E 0).wf = false ∧ (Instr.mfmt 0 0x20).wf = false ∧ (Instr.mldt 7 0 1 0).wf = false ∧
    (Instr.mldt 0 0x1F 0 0).wf = false ∧ (Instr.mldt 0 0 0 3).wf = false ∧ (Instr.msta 0 0 0 0 0 0).wf = false ∧
    (Instr.msta 0 0 1 0 0 5).wf = false ∧ (Instr.mmov 8 0).wf = false ∧ (Instr.mmov 0 8).wf = false ∧
    (Instr.mmovFmt 8 1 0 0 0).wf = false ∧ (Instr.mmovFmt 0 3 0 0 0).wf = false ∧ (Instr.mmovFmt 0 1 0 0 5).wf = false ∧
    (Instr.xset 0 6).wf = false ∧ (Instr.xset 5 1).wf = false ∧
    (Instr.mma 1 8 8 1 1 1).wf = true ∧ (Instr.xset 0 5).wf = true := by decide

/-- R222: an event of another agent is no word, and has no bits. -/
theorem test_wf_event : Instr.wf .bootStart = false ∧ Instr.wf .packetForward = false := by decide

/-- R250: words of alu, each with its function in bits 5 to 0 (spec/15). -/
theorem test_decode_alu_1 :
    decodeWord 0x000C1080 = some (.add 3 1 2) ∧
    decodeWord 0x00B53E81 = some (.sub 0x2D 0x13 0x3A) ∧
    decodeWord 0x00B53E82 = some (.and 0x2D 0x13 0x3A) ∧
    decodeWord 0x00B53E83 = some (.or 0x2D 0x13 0x3A) ∧
    decodeWord 0x00B53E84 = some (.xor 0x2D 0x13 0x3A) ∧
    decodeWord 0x00B53E85 = some (.andn 0x2D 0x13 0x3A) ∧
    decodeWord 0x00B53E86 = some (.orn 0x2D 0x13 0x3A) ∧
    decodeWord 0x00B53E87 = some (.sll 0x2D 0x13 0x3A) ∧
    decodeWord 0x00B53E88 = some (.srl 0x2D 0x13 0x3A) ∧
    decodeWord 0x00B53E89 = some (.sra 0x2D 0x13 0x3A) ∧
    decodeWord 0x00B53E8A = some (.rol 0x2D 0x13 0x3A) ∧
    decodeWord 0x00B53E8B = some (.ror 0x2D 0x13 0x3A) ∧
    decodeWord 0x00B53E8C = some (.mul 0x2D 0x13 0x3A) ∧
    decodeWord 0x00B53E8D = some (.mulh 0x2D 0x13 0x3A) ∧
    decodeWord 0x00B53E8E = some (.mulhu 0x2D 0x13 0x3A) ∧
    decodeWord 0x00B53E8F = some (.div 0x2D 0x13 0x3A) ∧
    decodeWord 0x001C8250 = some (.divu 7 8 9) ∧
    decodeWord 0x00B53E91 = some (.rem 0x2D 0x13 0x3A) ∧
    decodeWord 0x00B53E92 = some (.remu 0x2D 0x13 0x3A) ∧
    decodeWord 0x00B53E93 = some (.min 0x2D 0x13 0x3A) ∧
    decodeWord 0x00B53E94 = some (.max 0x2D 0x13 0x3A) ∧
    decodeWord 0x00B53E95 = some (.minu 0x2D 0x13 0x3A) ∧
    decodeWord 0x00B53E96 = some (.maxu 0x2D 0x13 0x3A) ∧
    decodeWord 0x00B53E97 = some (.adds 0x2D 0x13 0x3A) ∧
    decodeWord 0x00B53E98 = some (.subs 0x2D 0x13 0x3A) :=
  ⟨rfl, rfl, rfl, rfl, rfl, rfl, rfl, rfl, rfl, rfl, rfl, rfl, rfl, rfl, rfl, rfl, rfl, rfl, rfl, rfl, rfl, rfl, rfl, rfl, rfl⟩

/-- R250: words of alu, each with its function in bits 5 to 0 (spec/15). -/
theorem test_decode_alu_2 :
    decodeWord 0x00105019 = some (.clz 4 5) ∧
    decodeWord 0x00B5301A = some (.ctz 0x2D 0x13) ∧
    decodeWord 0x00B5301B = some (.popc 0x2D 0x13) ∧
    decodeWord 0x00B5301C = some (.bswap 0x2D 0x13) :=
  ⟨rfl, rfl, rfl, rfl⟩

/-- Words of the control family (spec/15, spec/16): the words that its entries give, and for the entries that give none a word built from the encoding table. -/
theorem test_decode_control_1 :
    decodeWord 0x01140003 = some (.addi 5 0 3) ∧
    decodeWord 0x02083FC0 = some (.andi 2 3 0xFC0) ∧
    decodeWord 0x03180800 = some (.ori 6 0 0x800) ∧
    decodeWord 0x04082FFF = some (.xori 2 2 0xFFF) ∧
    decodeWord 0x05104203 = some (.shi 4 4 2 3) ∧
    decodeWord 0x0617BEEF = some (.movw 5 3 0xBEEF) ∧
    decodeWord 0x071E1234 = some (.movk 7 2 0x1234) ∧
    decodeWord 0x0820C420 = some (.cmp 2 3 4 2 0) ∧
    decodeWord 0x09115828 = some (.cmpi 1 5 6 0x28) ∧
    decodeWord 0x0A304280 = some (.plog 3 1 2 8 0) ∧
    decodeWord 0x0B1461C2 = some (.sel 5 6 7 0 2) ∧
    decodeWord 0x0C3FFFFD = some (.br 3 1 0x7FFFD) ∧
    decodeWord 0x0D000014 = some (.jal 0 0 0x14) ∧
    decodeWord 0x0EF89004 = some (.jalr 0x3E 9 4) ∧
    decodeWord 0x0F004000 = some (.qmovCq 4) ∧
    decodeWord 0x0F240001 = some (.qmovVq 9) ∧
    decodeWord 0x0F02D002 = some (.qmovXq 0x2D) ∧
    decodeWord 0x0F00A2C3 = some (.qmovMq 0xA 0xB) ∧
    decodeWord 0x10088248 = some (.engreq 2 8 9 1) ∧
    decodeWord 0x11149000 = some (.engctlQuery 5 9) ∧
    decodeWord 0x11B53001 = some (.engctlAbandon 0x2D 0x13) ∧
    decodeWord 0x11000042 = some (.engctlUnhold 1) ∧
    decodeWord 0x12100003 = some (.pwrAcq 4 3) ∧
    decodeWord 0x12000008 = some (.pwrRel) ∧
    decodeWord 0x13140003 = some (.flagRd 5 3) :=
  ⟨rfl, rfl, rfl, rfl, rfl, rfl, rfl, rfl, rfl, rfl, rfl, rfl, rfl, rfl, rfl, rfl, rfl, rfl, rfl, rfl, rfl, rfl, rfl, rfl, rfl⟩

/-- Words of the control family (spec/15, spec/16): the words that its entries give, and for the entries that give none a word built from the encoding table. -/
theorem test_decode_control_2 :
    decodeWord 0x13002010 = some (.flagWr 2 0) ∧
    decodeWord 0x13000023 = some (.flagInc 3) ∧
    decodeWord 0x1302D033 = some (.flagAdd 0x2D 3) ∧
    decodeWord 0x14000002 = some (.bar 0 2) ∧
    decodeWord 0x1414003C = some (.barSplit 5 3 4) ∧
    decodeWord 0x15000012 = some (.fence 4 2) ∧
    decodeWord 0x160CB300 = some (.launch 3 0xB 0xC) ∧
    decodeWord 0x17000000 = some (.yield) ∧
    decodeWord 0x17040000 = some (.trapfence) ∧
    decodeWord 0x17084007 = some (.trap 4 7) ∧
    decodeWord 0x170C0000 = some (.tret) ∧
    decodeWord 0x17100005 = some (.intr 5) ∧
    decodeWord 0x17140000 = some (.exit) ∧
    decodeWord 0x18140005 = some (.csr 5 0 5) ∧
    decodeWord 0x19B53000 = some (.cntRd 0x2D 0x13) ∧
    decodeWord 0x19B53001 = some (.cntSnap 0x2D 0x13) ∧
    decodeWord 0x19B53002 = some (.cntRdGrp 0x2D 0x13) ∧
    decodeWord 0x19146003 = some (.cntSnapGrp 5 6) ∧
    decodeWord 0x196CD004 = some (.cntOvf 0x1B 0xD) ∧
    decodeWord 0x1900D005 = some (.cntOvfSnap 0 0xD) ∧
    decodeWord 0x1A200000 = some (.rand 8) ∧
    decodeWord 0x1A209001 = some (.randBelow 8 9) ∧
    decodeWord 0x1B1801C0 = some (.rbind 6 0 7) ∧
    decodeWord 0x1B1C6201 = some (.radd 7 6 8) ∧
    decodeWord 0x1B247002 = some (.runbind 9 7) :=
  ⟨rfl, rfl, rfl, rfl, rfl, rfl, rfl, rfl, rfl, rfl, rfl, rfl, rfl, rfl, rfl, rfl, rfl, rfl, rfl, rfl, rfl, rfl, rfl, rfl, rfl⟩

/-- Words of the control family (spec/15, spec/16): the words that its entries give, and for the entries that give none a word built from the encoding table. -/
theorem test_decode_control_3 :
    decodeWord 0x1C105187 = some (.madd 4 5 6 7) ∧
    decodeWord 0x1D105203 = some (.bitf 4 5 8 3) :=
  ⟨rfl, rfl⟩

/-- A header and a prefix word (R136, R227). -/
theorem test_decode_header :
    decodeWord 0xA8200001 = some (.hwait 4 1 0 1) ∧
    decodeWord 0xC9800000 = some (.pfx 2 3 0 0 0) :=
  ⟨rfl, rfl⟩

/-- Words of the MEM family (spec/17). -/
theorem test_decode_mem_1 :
    decodeWord 0x20144BFE = some (.ld 5 4 2 0x3FE) ∧
    decodeWord 0x210C7005 = some (.ldz 3 7 0 5) ∧
    decodeWord 0x22146802 = some (.st 5 6 2 2) ∧
    decodeWord 0x23388010 = some (.ldq 1 1 2 8 0x10) ∧
    decodeWord 0x24A49040 = some (.stq 5 0 1 9 0x40) ∧
    decodeWord 0x251461C7 = some (.amo 5 6 7 1 3) ∧
    decodeWord 0x261461CB = some (.cas 5 6 7 2 3) ∧
    decodeWord 0x270C4003 = some (.scopLd 3 4 3) ∧
    decodeWord 0x27004146 = some (.scopSt 4 5 2) ∧
    decodeWord 0x271461CF = some (.scopRmw 5 6 7 3 3) ∧
    decodeWord 0x281C6C00 = some (.ldref 7 6 0) ∧
    decodeWord 0x291C6C01 = some (.stref 7 6 1) ∧
    decodeWord 0x2AB53E8B = some (.pmake 0x2D 0x13 0x3A 0xB) ∧
    decodeWord 0x2B26064C = some (.post 9 4 0 3 2 6) ∧
    decodeWord 0x2C040005 = some (.pclaim 1 0 5) ∧
    decodeWord 0x2D140000 = some (.pctlQuery 5 0) ∧
    decodeWord 0x2D000081 = some (.pctlFree 2) ∧
    decodeWord 0x2D007042 = some (.pctlSet 7 1) ∧
    decodeWord 0x2DB400C3 = some (.pctlGet 0x2D 3) ∧
    decodeWord 0x2E008003 = some (.mpush 8 3) ∧
    decodeWord 0x2F004840 = some (.pfetch 4 2 0x40) ∧
    decodeWord 0x30004C00 = some (.cacheDrop 4 3 0) ∧
    decodeWord 0x30045500 = some (.cacheDemote 5 1 0x100) ∧
    decodeWord 0x31140000 = some (.tktCnt 5) ∧
    decodeWord 0x31000001 = some (.tktWait) :=
  ⟨rfl, rfl, rfl, rfl, rfl, rfl, rfl, rfl, rfl, rfl, rfl, rfl, rfl, rfl, rfl, rfl, rfl, rfl, rfl, rfl, rfl, rfl, rfl, rfl, rfl⟩

/-- Words of the MEM family (spec/17). -/
theorem test_decode_mem_2 :
    decodeWord 0x31146002 = some (.tktRd 5 6) ∧
    decodeWord 0x321461C0 = some (.grantMint 5 6 7) ∧
    decodeWord 0x320050C1 = some (.grantSet 5 3) ∧
    decodeWord 0x322000C2 = some (.grantGet 8 3) ∧
    decodeWord 0x33105180 = some (.tlbopRng 4 5 6) ∧
    decodeWord 0x33B40001 = some (.tlbopTen 0x2D) ∧
    decodeWord 0x33000002 = some (.tlbopAll) ∧
    decodeWord 0x341461C0 = some (.dirtySnap 5 6 7) ∧
    decodeWord 0x34B53E81 = some (.dirtyRd 0x2D 0x13 0x3A) :=
  ⟨rfl, rfl, rfl, rfl, rfl, rfl, rfl, rfl, rfl⟩

/-- Words of the vector family (spec/18). -/
theorem test_decode_vector_1 :
    decodeWord 0x400420C0 = some (.vadd 1 2 3 0 0) ∧
    decodeWord 0x411C8898 = some (.vsub 7 8 0x22 3 0) ∧
    decodeWord 0x42083101 = some (.vmul 2 3 4 0 1) ∧
    decodeWord 0x4328B300 = some (.vfma 0xA 0xB 0xC 0 0) ∧
    decodeWord 0x440420C0 = some (.vmin 1 2 3 0 0) ∧
    decodeWord 0x45249901 = some (.vmax 9 9 0x24 0 1) ∧
    decodeWord 0x46187001 = some (.vun 6 7 0 1) ∧
    decodeWord 0x47083102 = some (.vcmp 2 3 4 0 2) ∧
    decodeWord 0x480420E0 = some (.vsel 1 2 3 4) ∧
    decodeWord 0x49041082 = some (.vlog 1 1 2 0 2) ∧
    decodeWord 0x4A146902 = some (.vshf 5 6 0x24 0 2) ∧
    decodeWord 0x4B081EC0 = some (.vcvt 2 1 0x3B 0 0) ∧
    decodeWord 0x4C187202 = some (.vscale 6 7 8 0 2) ∧
    decodeWord 0x4D9C3000 = some (.vred 0x27 3 0 0) ∧
    decodeWord 0x4E10500A = some (.vscan 4 5 1 2) ∧
    decodeWord 0x4F0420C0 = some (.vperm 1 2 3 0 0) ∧
    decodeWord 0x50042140 = some (.vslide 1 2 5 0 0) ∧
    decodeWord 0x511C8181 = some (.vbcast 7 8 6 0 1) ∧
    decodeWord 0x52949000 = some (.vmov 0x25 9 0) ∧
    decodeWord 0x530C1080 = some (.vmskLogic 3 1 2 0) ∧
    decodeWord 0x53106004 = some (.vmskLd 4 6) ∧
    decodeWord 0x53B53005 = some (.vmskSt 0x2D 0x13) ∧
    decodeWord 0x539C3006 = some (.vmskPop 0x27 3) ∧
    decodeWord 0x540420C0 = some (.vsh 1 2 3 0 0) ∧
    decodeWord 0x550C3300 = some (.vtag 3 3 0xC) :=
  ⟨rfl, rfl, rfl, rfl, rfl, rfl, rfl, rfl, rfl, rfl, rfl, rfl, rfl, rfl, rfl, rfl, rfl, rfl, rfl, rfl, rfl, rfl, rfl, rfl, rfl⟩

/-- Words of the vector family (spec/18). -/
theorem test_decode_vector_2 :
    decodeWord 0x562050C0 = some (.vacc 8 5 1 1 0 0) ∧
    decodeWord 0x57003008 = some (.vhist 3 0 1 0) ∧
    decodeWord 0x58083000 = some (.vfn 2 3 0 0) ∧
    decodeWord 0x59140100 = some (.viota 5 4 0 0) ∧
    decodeWord 0x5A0C4140 = some (.vclamp 3 4 5 0) ∧
    decodeWord 0x5B0420C1 = some (.vtrn 1 2 3 0 1) :=
  ⟨rfl, rfl, rfl, rfl, rfl, rfl⟩

/-- Words of the matrix family (spec/18). -/
theorem test_decode_matrix :
    decodeWord 0x60000040 = some (.mma 0 0 1 0 0 0) ∧
    decodeWord 0x61040000 = some (.mzero 1) ∧
    decodeWord 0x61140001 = some (.mzeroT 5) ∧
    decodeWord 0x620003C4 = some (.manch 0 0x3C4) ∧
    decodeWord 0x63FFFCFC = some (.mshape 0x7F 0x7F 0x3F) ∧
    decodeWord 0x64F3C000 = some (.mfmt 0x3C 0x3C) ∧
    decodeWord 0x6503C000 = some (.mldt 0 0x3C 0 0) ∧
    decodeWord 0x6600C000 = some (.msta 0 0 0xC 0 0 0) ∧
    decodeWord 0x67000000 = some (.mchk 0 0 0 0) ∧
    decodeWord 0x680C1000 = some (.mmov 3 1) ∧
    decodeWord 0x680BC010 = some (.mmovFmt 2 0x3C 0 0 0) ∧
    decodeWord 0x69000000 = some (.mscl 0) ∧
    decodeWord 0x69040001 = some (.msclOne 1) :=
  ⟨rfl, rfl, rfl, rfl, rfl, rfl, rfl, rfl, rfl, rfl, rfl, rfl, rfl⟩

/-- Words of the transfer family (spec/18). -/
theorem test_decode_transfer :
    decodeWord 0x80000005 = some (.xset 0 5) ∧
    decodeWord 0x81440000 = some (.xgo 1 1 0) ∧
    decodeWord 0x82000000 = some (.xclr) ∧
    decodeWord 0x82000001 = some (.xclrDrop) :=
  ⟨rfl, rfl, rfl, rfl⟩

/-- R223: words whose family byte or function no row takes. -/
theorem test_decode_none :
    decodeWord 0x10000FFF = none ∧ decodeWord 0x10000001 = none ∧ decodeWord 0xE0000000 = none ∧
    decodeWord 0x0000003F = none := ⟨rfl, rfl, rfl, rfl⟩

/-! ### Small states -/

/-- A running module with one bank, bank 0 of core 0, and a strand of it that executes a word. -/
def bankS (e : Strand) (B : Bank) : State :=
  { State.reset with phase := .running, cur := { bank := 0, strand := e }, banks := [(0, B)] }

/-- A live task in which nothing is under way. -/
def liveB : Bank := { Bank.idle with status := .live }

/-- A live task with these scalars. -/
def regB (r : KV Word) : Bank := { liveB with r := { Regs.zero with s := r } }

/-- A system core with these scalars, and its strand. -/
def sysS (r : KV Word) : State :=
  let B := { Bank.unlisted 1024 with r := { Regs.zero with s := r } }
  { State.reset with phase := .running, cur := { bank := 1024, strand := .c }, banks := [(1024, B)] }

/-- A running module in which an event's agent brings this. -/
def eventS (i : Input) : State := { State.reset with phase := .running, input := i }

/-- Nothing brought, but about this. -/
def about (n : Nat) : Input := { Input.none with who := n }

/-- Tables at 0x1000 to 0x3FFF that map the first GiB of tenant 0 by one leaf. -/
def paged (leaf : Nat) (s : State) : State :=
  let m := Memory.writeN (Memory.writeN [] 0x1000 (leBytes 8 0x2001)) 0x2000 (leBytes 8 0x3001)
  { s with mem := Memory.writeN m 0x3000 (leBytes 8 leaf), hub := [(offPTROOT 0, 0x1001)] }

/-- A leaf that is LOCAL, at 1 GiB, with every right; and the same for mode `m`. -/
def leafOf (m : Nat) : Nat := 0x400000E3 + 4 * m

/-- A bank whose control strand has passed a prefix that names space `p`. -/
def inSpace (p : BitVec 2) (B : Bank) : Bank :=
  { B with wc := { Walker.zero with pfx := some (encode (.pfx 0 0 p 0 0)) } }

/-- An access that has read nothing yet. -/
def acc0 : Access :=
  { id := 5, walk := 0, op := .ld, size := 4, lanes := [0x5000], scr := false, own := false, va := 0x5000, dst := 7,
    x := 0, y := 0, data := [], ord := 0, scope := 0, reqs := [], unsent := [], got := [], remote := false, policy := 0,
    touch := [] }

/-- An OPEN parcel of tenant 0 with handle 0x10000 in parcel register 7, and a scalar bound to it. -/
def parcelB : Bank := { liveB with r := { Regs.zero with s := [(1, 64)], bind := [(1, 8)], h := [(7, 0x10000)] } }

/-- A parcel of two granules. -/
def parcel0 : Parcel :=
  { id := 3, handle := 0x10000, tenant := 0, base := 0x100000, length := 8192, state := .opened, die := 0, order := 0, since := 0,
    peer := 0, span := none }

def parcelS : State := { bankS .c parcelB with parcels := { Parcels.reset with table := [parcel0] } }

/-- Whether checks pass, and something holds of what they leave. -/
def okWith (c : Checked) (f : State → List Nat → List Place → Bool) : Bool :=
  match c with
  | .ok u vas ps => f u vas ps
  | .bad _ => false

theorem checked_ok (c : Checked) (f : State → List Nat → List Place → Bool) (h : okWith c f = true) :
    ∃ u vas ps, c = .ok u vas ps ∧ f u vas ps = true := by
  cases c with
  | ok u vas ps => exact ⟨u, vas, ps, rfl, h⟩
  | bad r => simp [okWith] at h

/-! ### The spec's worked examples -/

/-- Whether a word or event answers a next state of which something holds. -/
def ends (i : Instr) (s : State) (f : State → Bool) : Bool :=
  match exec i s with
  | .next t => f t
  | _ => false

/-- Whether a word of the control strand leaves `x` in s3, from `a` in s1 and `b` in s2. -/
def gives (i : Instr) (a b x : Word) : Bool :=
  ends i (bankS .c (regB [(1, a), (2, b)])) (fun t => t.here.r.readS 3 == x)

/-- The edges worked under R250. -/
theorem test_div : gives (.div 3 1 2) (-7) 2 (-3) ∧ gives (.div 3 1 2) 5 0 0xFFFFFFFFFFFFFFFF := by decide +kernel
theorem test_rem : gives (.rem 3 1 2) (-7) 2 (-1) ∧ gives (.rem 3 1 2) (2 ^ 63) (-1) 0 := by decide +kernel
theorem test_remu : gives (.remu 3 1 2) 5 0 5 := by decide +kernel
theorem test_div_least : gives (.div 3 1 2) (2 ^ 63) (-1) (2 ^ 63) := by decide +kernel
theorem test_adds : gives (.adds 3 1 2) (2 ^ 63 - 1) 1 (2 ^ 63 - 1) := by decide +kernel
theorem test_mulh : gives (.mulh 3 1 2) (-1) 3 0xFFFFFFFFFFFFFFFF := by decide +kernel
theorem test_mulhu : gives (.mulhu 3 1 2) (2 ^ 63) 4 2 := by decide +kernel

/-- R250's table: counts, bytes in reverse order, and a shift count of which bits 63:6 are ignored. -/
theorem test_clz : gives (.clz 3 1) 1 0 63 ∧ gives (.clz 3 1) 0 0 64 := by decide +kernel
theorem test_ctz : gives (.ctz 3 1) 8 0 3 ∧ gives (.ctz 3 1) 0 0 64 := by decide +kernel
theorem test_bswap : gives (.bswap 3 1) 0x0102030405060708 0 0x0807060504030201 := by decide +kernel
theorem test_sll : gives (.sll 3 1 2) 1 65 2 := by decide +kernel
theorem test_sra : gives (.sra 3 1 2) (-8) 1 (-4) := by decide +kernel

/-- R251 to R255: `ori s6, s0, 0x800` and `movw s5, 0xBEEF, 3` as worked, a negative immediate, and a field. -/
theorem test_ori : gives (.ori 3 0 0x800) 0 0 2048 := by decide +kernel
theorem test_andi : gives (.andi 3 1 0xFC0) 0x7F 0 0x40 := by decide +kernel
theorem test_movw : gives (.movw 3 3 0xBEEF) 0 0 0xBEEF000000000000 := by decide +kernel
theorem test_bitf : gives (.bitf 3 1 12 3) 0xABCD 0 0xA := by decide +kernel

/-- The example under R266, without its completion increment: with f2 at 5, adding 3 leaves 8. -/
theorem test_flag_add :
    ends (.flagAdd 1 2) (bankS .c { regB [(1, 3)] with r := { Regs.zero with s := [(1, 3)], f := [(2, 5)] } })
      (fun t => t.here.r.readF 2 == 8) = true := by decide +kernel

/-- R260, R263: `jalr` writes its index and one, and continues at its target. -/
theorem test_jalr :
    ends (.jalr 3 1 1) (bankS .c { regB [(1, 4)] with words := 9, wc := { Walker.zero with pc := 7 } })
      (fun t => t.here.wc.pc == 5 && t.here.r.readS 3 == 8) = true := by decide +kernel

/-- R287, R288: `csr` gives the value before its write, here SLIP's at reset. -/
theorem test_csr :
    ends (.csr 3 1 csrSLIP) (bankS .c (regB [(1, 0x200)])) (fun t => t.here.r.readS 3 == 0x400) = true := by
  decide +kernel

/-- The worked example under R17 and R18: one address under a one-device and a four-device quad. -/
theorem test_physical_address :
    dieLocal 0 0x1234567ABC = (3, 0x48D159ABC) ∧ channelOf 0x48D159ABC = (0x3A, 0x123456BC) ∧
    dieLocal 2 0x1234567ABC = (0, 0x4B4567ABC) := by decide

/-- The worked example under R35: modules 5 and 40 have neighbour 223 in common and are not adjacent. -/
theorem test_graph :
    adjacent 5 40 = false ∧ adjacent 5 223 = true ∧ adjacent 40 223 = true ∧ pointOf 223 = (1, 7, 6) := by decide

/-- The example under R62: with vbase 0x40, a store to 0x1001234567 sets bit 4 of byte 0x246 of the bitmap. -/
theorem test_dirty_log :
    let s := { State.reset with hub := [(offDLOG 4, 2 ^ 127 + 41 * 2 ^ 120 + 0x40 * 2 ^ 93 + 0x10 * 2 ^ 56)] }
    (s.markDirty 4 0x1001234567 4).mem = [(0x100246, 0x10)] := by decide +kernel

/-- The worked example under R153: a batch's entries merge into two ranges. -/
theorem test_batch :
    let e := fun g k n => ({ tenant := 4, granule := g, kinds := k, faulters := List.replicate n (.ctl 0) } : FaultEntry)
    (mergeEntries (sortEntries [e 0x703 1 1, e 0x701 1 1, e 0x702 3 2, e 0x900 1 1])).map
      (fun r => (r.va, r.count, r.kinds, r.faulters.length)) =
      [(0x701000, 3, 3, 4), (0x900000, 1, 1, 1)] := by decide

/-- The worked example of `vcvt` (R337): 1.0, 3.0, 300.0 and −0.1 in f32 as f8p4se, saturating and with infinities. -/
theorem test_vcvt :
    let r : Rounding := { mode := 0, spec := false, random := 0 }
    [0x3F800000, 0x40400000, 0x43960000, 0xBDCCCCCD, 0].map (fun x => encodeTag 0x3C r (valueOf 12 x)) =
      [(0x40, 0), (0x4C, 0), (0x7E, flOVF + flINEXACT), (0xA5, flINEXACT), (0, 0)] ∧
    (encodeTag 0x3C { r with spec := true } (valueOf 12 0x43960000)).1 = 0x7F := by decide +kernel

/-- The example under R208: 1.1 as f8p3se is 0x41 exactly from 154 on. -/
theorem test_stochastic :
    (encodeTag 0x3B { mode := 4, spec := false, random := 154 } (valueOf 12 0x3F8CCCCD)).1 = 0x41 ∧
    (encodeTag 0x3B { mode := 4, spec := false, random := 153 } (valueOf 12 0x3F8CCCCD)).1 = 0x40 := by decide +kernel

/-- R107: 0.75 V at 600 MHz and 0.85 V at 750 MHz. -/
theorem test_voltage : voltOf 12 = 750 ∧ voltOf 18 = 850 := by decide

/-- R163, R165: a trap is taken at the handler's address, and `tret` goes on at the word that trapped. -/
theorem test_trap :
    let x : PendTrap := { strand := .c, code := 0x0B, tval := 5, walk := 7, pc := 3, deferred := false, arose := false }
    let B := (({ liveB with words := 64, wc := { Walker.zero with pc := 3, walk := 7 } } : Bank).csrPut csrTVEC (2 ^ 15 + 32))
    let H := B.enterHandler x
    H.wc.pc = 32 ∧ H.trap.handler = true ∧ (H.leaveHandler).wc.pc = 3 ∧ (H.leaveHandler).trap.handler = false := by
  decide +kernel

/-! ### Every hypothesis of the statements can be met: one theorem for each statement -/

theorem witness_AluBinary : CtlReady (bankS .c liveB) [63, 63, 0] := ⟨rfl, rfl, rfl⟩

theorem witness_AluDivide :
    (CtlReady (bankS .c liveB) [1, 2, 0] ∧ (bankS .c liveB).reg 0 = 0) ∧
    (CtlReady (bankS .c (regB [(2, 7)])) [1, 1, 2] ∧ (bankS .c (regB [(2, 7)])).reg 2 ≠ 0) ∧
    (let s := bankS .c (regB [(1, 0x8000000000000000), (2, 0xFFFFFFFFFFFFFFFF)])
     CtlReady s [3, 1, 2] ∧ s.reg 1 = BitVec.ofNat 64 (2 ^ 63) ∧ s.reg 2 = BitVec.allOnes 64) :=
  ⟨⟨⟨rfl, rfl, rfl⟩, rfl⟩, ⟨⟨rfl, rfl, rfl⟩, by decide⟩, ⟨rfl, rfl, rfl⟩, rfl, rfl⟩

theorem witness_AluUnary : CtlReady (bankS .c liveB) [63, 0] := ⟨rfl, rfl, rfl⟩

theorem witness_Immediates :
    CtlReady (bankS .c liveB) [63, 0] ∧ CtlReady (bankS .c liveB) [0] ∧ CtlReady (bankS .c liveB) [63, 0, 1, 2] ∧
    5 ≤ (5 : BitVec 4).toNat ∧ (62 : BitVec 6).toNat + (1 : BitVec 6).toNat < 64 ∧
    64 ≤ (63 : BitVec 6).toNat + (1 : BitVec 6).toNat :=
  ⟨⟨rfl, rfl, rfl⟩, ⟨rfl, rfl, rfl⟩, ⟨rfl, rfl, rfl⟩, by decide⟩

theorem witness_Predicates :
    CtlReady (bankS .c liveB) [1, 2, 64 + 15] ∧ CtlReady (bankS .c liveB) [1, 64 + 0] ∧
    CtlReady (bankS .c liveB) [64 + 1, 64 + 15, 64 + 0] ∧ CtlReady (bankS .c liveB) [1, 2, 3, 64 + 15] ∧
    CtlReady (bankS .c liveB) [64 + 1, 64 + 16, 64 + 0] ∧
    (11 : BitVec 4).toNat < 12 ∧ (5 : BitVec 4).toNat < 6 ∧ 12 ≤ (12 : BitVec 4).toNat ∧
    (15 : BitVec 6).toNat < 16 ∧ 16 ≤ (16 : BitVec 6).toNat ∧ 6 ≤ (6 : BitVec 4).toNat :=
  ⟨⟨rfl, rfl, rfl⟩, ⟨rfl, rfl, rfl⟩, ⟨rfl, rfl, rfl⟩, ⟨rfl, rfl, rfl⟩, ⟨rfl, rfl, rfl⟩, by decide⟩

/-- A conditional word that is taken backwards past word 0, forwards to index words, one past it, and one not taken;
a jump through a scalar to index words and past it; and the same words in handler mode. -/
theorem witness_PathWords :
    let s := bankS .c { regB [(1, 4), (2, 5)] with words := 4 }
    let h := bankS .c { regB [(1, 4)] with words := 4, trap := { TrapState.none with handler := true } }
    PathReady s [64 + 0] ∧ PathReady s [62, 64 + 3] ∧ PathReady s [1, 2] ∧ PathReady s [] ∧
    PathAlone h [62, 64 + 0] ∧ PathAlone h [62, 64 + 3] ∧ PathAlone h [1, 1] ∧ PathAlone h [] ∧
    (h.here.r.readP 0 != (0 : BitVec 1).getLsbD 0) = true ∧ (h.here.r.readP 3 != (0 : BitVec 1).getLsbD 0) = false ∧
    (0 ≤ h.here.wc.pc + (4 : BitVec 19).toInt ∧ h.here.wc.pc + (4 : BitVec 19).toInt ≤ h.here.words) ∧
    (h.reg 1 + (0 : BitVec 12).signExtend 64).toNat ≤ h.here.words ∧
    (s.here.r.readP 0 != (0 : BitVec 1).getLsbD 0) = true ∧ (s.here.r.readP 3 != (0 : BitVec 1).getLsbD 0) = false ∧
    (s.here.wc.pc + (-1 : BitVec 19).toInt < 0) ∧ ((s.here.words : Int) < s.here.wc.pc + (5 : BitVec 19).toInt) ∧
    (0 ≤ s.here.wc.pc + (4 : BitVec 19).toInt ∧ s.here.wc.pc + (4 : BitVec 19).toInt ≤ s.here.words) ∧
    (s.reg 1 + (0 : BitVec 12).signExtend 64).toNat ≤ s.here.words ∧
    s.here.words < (s.reg 2 + (0 : BitVec 12).signExtend 64).toNat :=
  ⟨⟨⟨rfl, rfl, rfl⟩, rfl, rfl, rfl⟩, ⟨⟨rfl, rfl, rfl⟩, rfl, rfl, rfl⟩, ⟨⟨rfl, rfl, rfl⟩, rfl, rfl, rfl⟩,
    ⟨⟨rfl, rfl, rfl⟩, rfl, rfl, rfl⟩, ⟨⟨rfl, rfl, rfl⟩, rfl⟩, ⟨⟨rfl, rfl, rfl⟩, rfl⟩, ⟨⟨rfl, rfl, rfl⟩, rfl⟩,
    ⟨⟨rfl, rfl, rfl⟩, rfl⟩, by decide⟩

theorem witness_PathFollowers :
    let s := bankS .v { liveB with words := 2, text := [(0, 0x17140000)], wv := { Walker.zero with path := [2] } }
    let t := { s with input := { about 0 with strand := .v } }
    let r := bankS .v { liveB with trap := { TrapState.none with skips := [0] } }
    isPathWord .exit = true ∧ ((s.bank 0).walker .v).path = [2] ∧ s.cur = { bank := 0, strand := .v } ∧
    ((t.bank 0).walker .v).path = [2] ∧ t.input.who = 0 ∧ t.input.strand = .v ∧ mayIssue t 0 .v = true ∧
    decodeWord ((t.bank 0).wordAt ((t.bank 0).walker .v).pc) = some .exit ∧
    (s.bank 0).trap.skips.contains ((s.bank 0).walker .v).walk = false ∧ (s.bank 0).poppable (qcPath .v) 1 ≠ 0 ∧
    (r.bank 0).trap.skips.contains ((r.bank 0).walker .v).walk = true :=
  ⟨rfl, rfl, rfl, rfl, rfl, rfl, rfl, rfl, rfl, by decide, rfl⟩

theorem witness_OtherStrandsSkip :
    (let s := bankS .v liveB
     let i := Instr.add 1 2 3
     i.isWord = true ∧ isSys s.cur.bank = false ∧ owner i ≠ some s.cur.strand ∧ isPathWord i = false ∧
       meets i = false ∧ owner i ≠ none) ∧
    (let s := bankS .c liveB
     let i := Instr.mma 0 0 0 0 0 0
     i.isWord = true ∧ isSys s.cur.bank = false ∧ owner i ≠ some s.cur.strand ∧ isPathWord i = false ∧
       meets i = false ∧ owner i ≠ none) := by decide

theorem witness_QueueMoves :
    let m : MqDesc := { base := 0, rho := 0, rowPitch := 0, tilePitch := 0 }
    let q := { Queues.empty with vq := [9], cq := List.replicate 31 0, mq := List.replicate 7 m }
    let s := bankS .c { liveB with q := { q with xq := List.replicate 15 0 } }
    CtlReady s [1] ∧ CtlReady s [1, 2] ∧ s.here.filledOf qcCq s.here.q.cq.length < 32 ∧
    s.here.filledOf qcXq s.here.q.xq.length < 16 ∧ s.here.mpushOut = false ∧
    s.here.filledOf qcMq s.here.q.mq.length < 8 ∧ s.here.q.vq = [9] ∧ s.here.poppable qcVq 1 ≠ 0 :=
  ⟨⟨rfl, rfl, rfl⟩, ⟨rfl, rfl, rfl⟩, by decide, by decide, rfl, by decide, rfl, by decide⟩

theorem witness_Flags :
    let s := bankS .c liveB
    CtlReady s [1] ∧ CtlReady s [] ∧ s.flagMay s.cur.bank = true := ⟨⟨rfl, rfl, rfl⟩, ⟨rfl, rfl, rfl⟩, rfl⟩

theorem witness_References :
    CtlReady parcelS [2, 1] ∧ CtlReady parcelS [2, 1, 3] ∧ (7 : BitVec 6).toNat < 8 ∧ 8 ≤ (8 : BitVec 6).toNat ∧
    parcelS.here.r.binding 1 ≠ 0 ∧ parcelS.here.r.binding 2 = 0 ∧
    (∃ q, parcelS.openEntry 0 (parcelS.here.r.binding 1 - 1) = some q) ∧
    (let s := bankS .c { liveB with r := { Regs.zero with bind := [(1, 1)] } }
     CtlReady s [2, 1] ∧ s.here.r.binding 1 ≠ 0 ∧ s.openEntry s.cur.bank (s.here.r.binding 1 - 1) = none) :=
  ⟨⟨rfl, rfl, rfl⟩, ⟨rfl, rfl, rfl⟩, by decide, by decide, by decide, rfl, ⟨_, rfl⟩, ⟨rfl, rfl, rfl⟩, by decide, rfl⟩

theorem witness_Counters : CtlReady (bankS .c liveB) [1, 2] ∧ (bankS .c liveB).here.histDone = true ∧
    (let s := bankS .c (regB [(2, 4096)])
     CtlReady s [1, 2] ∧ s.here.histDone = true ∧ s.instPresent (entryInst (bitsOf (s.reg 2).toNat 14 0)) = true ∧
       bitsOf (s.reg 2).toNat 17 15 < 6) := ⟨⟨rfl, rfl, rfl⟩, rfl, ⟨rfl, rfl, rfl⟩, rfl, by decide, by decide⟩

theorem witness_Random :
    CtlReady (bankS .c liveB) [1] ∧ (CtlReady (bankS .c (regB [(2, 1)])) [1, 2] ∧ (bankS .c (regB [(2, 1)])).reg 2 ≠ 0) ∧
    (CtlReady (bankS .c liveB) [1, 2] ∧ (bankS .c liveB).reg 2 = 0) :=
  ⟨⟨rfl, rfl, rfl⟩, ⟨⟨rfl, rfl, rfl⟩, by decide⟩, ⟨rfl, rfl, rfl⟩, rfl⟩

/-- System register 0x800 and one below it that the map does not list, a read, a plain write and a write that all
strands meet. -/
theorem witness_SystemRegisters :
    let s := bankS .c liveB
    CtlReady s [1, 2] ∧ 0x800 ≤ (0x800 : BitVec 12).toNat ∧ csrListed 0x7FF = false ∧ csrListed csrSLIP = true ∧
    (2 : BitVec 6) ≠ 0 ∧ csrMask csrSLIP ≠ 0 ∧ csrRefuses csrSLIP (s.reg 2) = false ∧
    csrListed csrMDEF = true ∧ csrMask csrMDEF ≠ 0 ∧ csrRefuses csrMDEF (s.reg 2) = false ∧
    meets (.csr 1 2 0x008) = true ∧ s.here.allHere = true := ⟨⟨rfl, rfl, rfl⟩, by decide⟩

/-- A precise trap of the vector strand and a deferred one, each ready to be taken. -/
theorem witness_TrapEntry :
    CtlReady (bankS .c liveB) [1] ∧
    ∀ d : Bool, ∀ st ∈ [BankStatus.live, .stopped],
      let t : PendTrap := { strand := if d then .c else .v, code := 7, tval := 5, walk := 0, pc := 0, deferred := d,
                             arose := false }
      let B := { liveB.csrPut csrTVEC 0x8000 with status := st, trap := { TrapState.none with pending := [t] } }
      let s := { bankS .c B with input := about 0 }
      s.input.who = 0 ∧ isSys 0 = false ∧ (s.bank 0).status = st ∧ (s.bank 0).nextTrap = some t ∧
        (s.bank 0).trap.handler = false ∧ s.trapReady 0 t = true ∧
        bitAt ((s.bank 0).csrGet csrTVEC).toNat 15 = true :=
  ⟨⟨rfl, rfl, rfl⟩, by decide⟩

theorem witness_TrapReturn :
    ((bankS .c liveB).cur.strand = .c ∧ (bankS .c liveB).here.trap.handler = false) ∧
    ∀ e : Fin 4, ∀ p ∈ [0, 1],
      let t : PendTrap := { PendTrap.zero with strand := Strand.ofCode e, pc := p }
      let B := liveB.csrPut csrTCAUSE (BitVec.ofNat 64 (256 * e))
      let s := bankS .c { B with trap := { TrapState.none with handler := true, taken := t } }
      s.cur.strand = .c ∧ s.here.trap.handler = true ∧ s.here.trap.taken.strand = t.strand ∧
        bitsOf (s.here.csrGet csrTCAUSE).toNat 9 8 = t.strand.code := by decide

theorem witness_YieldAndFences :
    let s := bankS .c liveB
    let t := bankS .c ((liveB.csrPut csrFENA 1).csrPut csrFSTAT 1)
    CtlReady s [] ∧ s.here.arithDone = true ∧ s.here.now.raised = 0 ∧ s.here.fstatAt &&& s.here.csrGet csrFENA = 0 ∧
    CtlReady t [] ∧ t.here.arithDone = true ∧ t.here.now.raised = 0 ∧ t.here.fstatAt &&& t.here.csrGet csrFENA ≠ 0 ∧
    (61 : BitVec 6).toNat < 62 ∧ 62 ≤ (62 : BitVec 6).toNat ∧ (5 : BitVec 3).toNat ≤ 5 ∧ (3 : BitVec 2) ≠ 0 ∧
    5 < (6 : BitVec 3).toNat ∧ s.here.trap.pending = [] :=
  ⟨⟨rfl, rfl, rfl⟩, rfl, rfl, rfl, ⟨rfl, rfl, rfl⟩, rfl, rfl, by decide⟩

/-- A header that names the strand or not, whose condition holds or not; one at which a strand waits; a prefix before a
MEM word, before a control word, and with a reserved field; a word that no row matches. -/
theorem witness_HeadersAndPrefixes :
    (let s := bankS .v liveB
     isSys s.cur.bank = false ∧ s.here.trap.handler = false ∧ maskNames 0 s.cur.strand = false ∧
     maskNames 4 s.cur.strand = true ∧ ¬ s.here.flagAt 0 = (1 : BitVec 20) ∧
     ¬ (s.here.flagAt 0 - (1 : BitVec 20)).toNat < 2 ^ 19 ∧ (s.here.flagAt 0 - (0 : BitVec 20)).toNat < 2 ^ 19 ∧
     s.here.out.departs = []) ∧
    (let s := bankS .v { liveB with out := { Outstanding.none with departs := [(0, 4)] } }
     isSys s.cur.bank = false ∧ s.here.trap.handler = false ∧ maskNames 4 s.cur.strand = true ∧
     (s.here.flagAt 0 - (0 : BitVec 20)).toNat < 2 ^ 19 ∧
     s.here.out.departs.filter (fun x => decide (x.1 = 0)) = [(0, 4)]) ∧
    (let B := { liveB with words := 1, text := [(0, 0xA8200001)], wv := { Walker.zero with stall := .header } }
     let s := { bankS .v (B.onRegs (·.writeF 1 1)) with input := { about 0 with strand := .v } }
     s.input.who = 0 ∧ s.input.strand = .v ∧ mayIssue s 0 .v = true ∧ ((s.bank 0).walker .v).stall = .header ∧
     decodeWord ((s.bank 0).wordAt ((s.bank 0).walker .v).pc) = some (.hwait 4 1 0 1) ∧ maskNames 4 .v = true ∧
     headerHolds ((s.bank 0).flagAt 1) 0 1 = true) ∧
    (let s := bankS .c { liveB with words := 2, text := [(1, 0x20144BFE)] }
     s.cur.strand = .c ∧ isSys s.cur.bank = false ∧ s.here.nextTag .c = some 1 ∧ (3 : BitVec 3).toNat ≤ 3 ∧
     (5 : BitVec 3).toNat ≤ 5 ∧ 3 < (4 : BitVec 3).toNat ∧ 5 < (6 : BitVec 3).toNat) ∧
    (let s := bankS .c { liveB with words := 2, text := [(1, 0x000C1080)] }
     s.cur.strand = .c ∧ isSys s.cur.bank = false ∧ s.here.nextTag .c ≠ some 1 ∧ s.here.nextTag .c ≠ some 4) ∧
    (let s := { bankS .c liveB with input := { Input.none with value := 0xE0000000 } }
     isSys s.cur.bank = false ∧ s.cur.strand = .c ∧ (s.input.value.toNat % 2 ^ 32) / 2 ^ 29 ∈ [0, 1, 7]) := by decide

/-- A request for four bytes of a peer. -/
def req0 : RemReq :=
  { va := 0x5000, peer := 2, off := 0x5000, token := 0, size := 4, fill := false, cached := false, policy := 0 }

/-- A control strand that stands at an `ldq` with one request that has no slot; with every slot of its core in use, or
none. -/
def slowS (full : Bool) : State :=
  let a := { acc0 with op := .ldq 3, remote := true, unsent := [req0] }
  let sl : Slot := { bank := 1, access := 9, req := req0, op := 1, sent := 0, ticket := none, pos := 0, held := false }
  { bankS .c { liveB with out := { Outstanding.none with acc := [a], dec := .issuing 5 } } with
    cores := if full then [(0, { Machine.Core.reset with slots := (List.range 8).map (fun i => (i, sl)) })] else [] }

/-- A load through the tables, a gather and a linear load, one that stands for want of a slot, a load of a reference in
an OPEN parcel, atomics, and descriptors. -/
theorem witness_ReadsIssue :
    let s := paged (leafOf 0) (bankS .c { (regB [(2, 0x5000)]).csrPut csrVSH 0 with q := { Queues.empty with oq := [0] } })
    let r := paged (leafOf 0) parcelS
    let an := s.here.annot .c
    (CtlReady s [1, 2] ∧ fmIllegal an.offset 2 (some 1) = false ∧
      (∃ u vas ps, memCheck (.ld 1 2 2 3) 0 s an .read 2 [(fmOffset an.offset 2 3).1] 4 false .may = .ok u vas ps ∧
        u.remoteRoom 0 an true 4 vas ps = true) ∧
      (∃ u vas ps, memCheck (.ldz 1 2 2 3) 0 s an .read 2 [(fmOffset an.offset 2 3).1] 4 false .may = .ok u vas ps ∧
        u.remoteRoom 0 an true 4 vas ps = true)) ∧
    (CtlReady r [3, 1] ∧ an.space ≠ 1 ∧ an.space ≠ 2 ∧
      (∃ u vas ps q, memCheck (.ldref 3 1 0) 0 r an .read 1 [(fmOffset an.offset 3 0).1] 8 true .never = .ok u vas ps ∧
        u.openEntry 0 ((u.bank 0).r.binding 1 - 1) = some q)) ∧
    (CtlReady s [2] ∧ (3 : BitVec 3).toNat < 4 ∧ s.here.out.dec = .none ∧
      s.here.filledOf (32 + 3) (KV.get [] s.here.q.lq 3).length < 16 ∧ s.here.poppable qcOq s.here.q.oq.length ≠ 0 ∧
      ∀ x : Fin 2, ∃ u vas ps, memCheck (.ldq 3 (BitVec.ofFin x) 3 2 0) 0 s an .read 2
          (queueDisps (BitVec.ofFin x) 3 (queueLanes s.here (BitVec.ofFin x) 3) 0 0) 8 false (queueRule (BitVec.ofFin x)) =
            .ok u vas ps ∧ u.remoteRoom 0 an true (8 * queueLanes s.here (BitVec.ofFin x) 3) vas ps = true) ∧
    (∀ full : Bool, let q := slowS full
     CtlReady q [2] ∧ q.here.out.dec = .issuing 5 ∧ ((q.takeAll 0 5).pump 0 5).lacksSlot 0 5 = full) ∧
    (CtlReady s [1, 2, 3] ∧ CtlReady s [1, 2, 3, 64 + 15] ∧ (8 : BitVec 4).toNat ≤ 8 ∧ 2 ≤ (2 : BitVec 2).toNat ∧
      (∃ u vas ps, memCheck (.amo 1 2 3 8 2) 0 s an .atomic 2 [0] 4 false .may = .ok u vas ps ∧
        u.remoteRoom 0 an false 4 vas ps = true) ∧
      (∃ u vas ps, memCheck (.cas 1 2 3 15 3) 0 s an .atomic 2 [0] 8 false .may = .ok u vas ps ∧
        u.remoteRoom 0 an false 8 vas ps = true)) ∧
    (s.here.mpushOut = false ∧ s.here.filledOf qcMq s.here.q.mq.length + 8 ≤ 8 ∧
      ∃ u vas ps, memCheck (.mpush 2 7) 0 s an .read 2 ((List.range 8).map (fun (j : Nat) => 16 * (j : Int))) 16 false
        .never = .ok u vas ps) := by
  refine ⟨⟨⟨rfl, rfl, rfl⟩, rfl, ⟨_, _, _, rfl, rfl⟩, ⟨_, _, _, rfl, rfl⟩⟩,
    ⟨⟨rfl, rfl, rfl⟩, by decide, by decide, ⟨_, _, _, _, rfl, rfl⟩⟩,
    ⟨⟨rfl, rfl, rfl⟩, by decide, rfl, by decide, by decide, fun x => ?_⟩, fun full => ?_,
    ⟨⟨rfl, rfl, rfl⟩, ⟨rfl, rfl, rfl⟩, by decide, by decide, ⟨_, _, _, rfl, rfl⟩, ⟨_, _, _, rfl, rfl⟩⟩,
    rfl, by decide, ⟨_, _, _, rfl⟩⟩
  · match x with
    | 0 => exact ⟨_, _, _, rfl, rfl⟩
    | 1 => exact checked_ok _ (fun u vas ps => u.remoteRoom 0 _ true _ vas ps) (by decide +kernel)
  · cases full
    · exact ⟨⟨rfl, rfl, rfl⟩, rfl, by decide +kernel⟩
    · exact ⟨⟨rfl, rfl, rfl⟩, rfl, by decide +kernel⟩

/-- The word of an `ldref`. -/
def mark0 : RefMark := { pc := 0, pfx := none, pushes := 0, base := 1, bind := 8, old := 64, new := 64 }

/-- An access of each kind that may be performed, a reference of 0, and one of 1, which is malformed: the conditions hold
of the first, and of an atomic in a scratchpad. -/
theorem witness_LoadsLand : (∀ m ∈ [[], [(0x5000, 1)]],
    let a := { acc0 with op := .ldref 4096 mark0, size := 8, lanes := (List.range 8).map (0x5000 + ·) }
    let s := { bankS .c { liveB with out := { Outstanding.none with acc := [a] } } with
                input := { about 0 with sub := 5 }
                mem := m }
    s.accReady 0 a = true ∧ s.poisoned a = false ∧ ofLeBytes ((s.accBytes 0 a).take 8) = m.length) ∧
    ∀ o ∈ [AccOp.ld, .ldz, .ldref 4096 mark0, .ldq 3, .mpush 8], ∀ p ∈ [(o, false), (.amo 0, true)],
    let a := { acc0 with op := p.1, scr := p.2 }
    let s := { bankS .c { liveB with out := { Outstanding.none with acc := [a] } } with input := { about 0 with sub := 5 } }
    s.input.who = 0 ∧ a.id = s.input.sub ∧ (s.bank 0).out.acc.find? (fun x => x.id = s.input.sub) = some a ∧
      a.remote = false ∧ s.accReady 0 a = true ∧ s.input.check ≠ .fail ∧ s.poisoned a = false := by decide

/-- A read of a system core in hub register space. -/
theorem witness_LoadsLand_hub :
    let a := { acc0 with size := 8, lanes := [hubBase] }
    let s := { sysS [] with banks := [(1024, { Bank.unlisted 1024 with out := { Outstanding.none with acc := [a] } })]
                            input := { about 1024 with sub := 5 } }
    s.input.who = 1024 ∧ a.id = s.input.sub ∧ (s.bank 1024).out.acc.find? (fun x => x.id = s.input.sub) = some a ∧
      a.remote = false ∧ s.accReady 1024 a = true ∧ s.input.check ≠ .fail ∧ s.poisoned a = false ∧
      (isSys 1024 && a.lanes.any inHub) = true := by decide +kernel

/-- A store through the tables to the last four bytes of a granule; one to the end of a window; one of a reference; one
from a queue. -/
theorem witness_StoresIssue :
    (let s := paged (leafOf 0) (bankS .c (regB [(2, 0x5FF0)]))
     let an := s.here.annot .c
     CtlReady s [1, 2] ∧ fmIllegal an.offset 2 none = false ∧
     ∃ u va pa, memCheck (.st 1 2 2 3) 0 s an .write 2 [(fmOffset an.offset 2 3).1] 4 false .may = .ok u [va] [.mem pa]) ∧
    (let s := bankS .c (inSpace 1 ((regB [(2, 0xFF8)]).csrPut csrSPLIM 0x1000))
     let an := s.here.annot .c
     CtlReady s [1, 2] ∧ fmIllegal an.offset 2 none = false ∧ an.offset < 2 ∧
     ∃ va sa own, memCheck (.st 1 2 3 0) 0 s an .write 2 [(fmOffset an.offset 3 0).1] 8 false .may =
       .ok s [va] [.scr sa own]) ∧
    (let s := paged (leafOf 0) parcelS
     let an := s.here.annot .c
     CtlReady s [1, 1] ∧ fmIllegal an.offset 1 none = false ∧ an.space ≠ 1 ∧ an.space ≠ 2 ∧
     (∃ u va p q, memCheck (.stref 1 1 1) 0 s an .write 1 [(fmOffset an.offset 3 1).1] 8 true .never = .ok u [va] [p] ∧
       p.isRem = false ∧ u.openEntry 0 ((u.bank 0).r.binding 1 - 1) = some q ∧ (s.reg 1).toNat < q.length) ∧
     s.here.r.binding 1 = s.here.r.binding 1 ∧ 64 ≤ (s.reg 1).toNat ∧ (s.reg 1).toNat < 2 ^ 40) ∧
    (let s := paged (leafOf 0) (bankS .c { (regB [(2, 0x5000)]).csrPut csrVSH 0 with q := { Queues.empty with sq := [(1, [0])] } })
     let an := s.here.annot .c
     CtlReady s [2] ∧ 4 ≤ (5 : BitVec 3).toNat ∧ (5 : BitVec 3).toNat < 6 ∧ KV.get [] s.here.q.sq 1 = [0] ∧
     s.here.poppable (37 + 1) 1 ≠ 0 ∧
     ∃ u vas ps, memCheck (.stq 5 0 3 2 0) 0 s an .write 2 (queueDisps 0 3 (queueLanes s.here 0 3) 0 0) 8 false
       .oneGranule = .ok u vas ps ∧ ps.any Place.isRem = false) := by
  refine ⟨⟨⟨rfl, rfl, rfl⟩, rfl, ⟨_, _, _, rfl⟩⟩, ⟨⟨rfl, rfl, rfl⟩, rfl, by decide, ⟨_, _, _, rfl⟩⟩,
    ⟨⟨rfl, rfl, rfl⟩, rfl, by decide, by decide, ⟨_, _, _, _, rfl, rfl, rfl, by decide⟩, rfl, by decide, by decide⟩,
    ⟨⟨rfl, rfl, rfl⟩, by decide, by decide, rfl, by decide, ⟨_, _, _, rfl, rfl⟩⟩⟩

/-- Addresses in local scratchpad space: misaligned, and one past a window of 4,096 bytes; and in global space: 2^57 and a
misaligned one. -/
theorem witness_LoadsTrap :
    (∀ a : Fin 2, let s := bankS .c (inSpace 1 ((regB [(2, if a = 0 then 0xFFE else 0x1000)]).csrPut csrSPLIM 0x1000))
     let an := s.here.annot .c
     let x := addTo (s.reg 2).toNat (fmOffset an.offset 2 0).1
     s.cur.strand = .c ∧ isSys s.cur.bank = false ∧ s.here.anyPending [1, 2] = false ∧ s.here.out.denied = none ∧
     fmIllegal an.offset 2 (some 1) = false ∧ an.space = 1 ∧
     (if a = 0 then x % 4 ≠ 0 else x % 4 = 0 ∧ s.here.windowSize < x + 4)) ∧
    (∀ a : Fin 2, let s := bankS .c (regB [(2, if a = 0 then 0x200000000000000 else 0x1FFFFFFFFFFFFFD)])
     let an := s.here.annot .c
     let x := addTo (s.reg 2).toNat (fmOffset an.offset 2 0).1
     s.cur.strand = .c ∧ isSys s.cur.bank = false ∧ s.here.anyPending [1, 2] = false ∧ s.here.out.denied = none ∧
     fmIllegal an.offset 2 (some 1) = false ∧ an.space = 0 ∧ s.here.r.binding 2 = 0 ∧
     (if a = 0 then 2 ^ 57 ≤ x else x < 2 ^ 57 ∧ x % 4 ≠ 0)) := by decide

/-- A `scop` whose checks pass; and one at its wheel position. -/
theorem witness_Scops :
    (let s := paged (leafOf 0) (bankS .c (regB [(2, 0x5000)]))
     let an := s.here.annot .c
     s.here.out.scop = none ∧ an.space ≠ 1 ∧ an.space ≠ 2 ∧ CtlReady s [1, 2] ∧ CtlReady s [2, 3] ∧
     CtlReady s [1, 2, 3] ∧ 2 ≤ (2 : BitVec 4).toNat ∧ (6 : BitVec 4).toNat ≤ 6 ∧
     (∃ u vas ps, memCheck (.scopLd 1 2 2) 0 s an .read 2 [0] 4 false .neverTransit = .ok u vas ps) ∧
     (∃ u vas ps, memCheck (.scopSt 2 3 3) 0 s an .write 2 [0] 8 false .neverTransit = .ok u vas ps) ∧
     (∃ u vas ps, memCheck (.scopRmw 1 2 3 6 3) 0 s an .atomic 2 [0] 8 false .neverTransit = .ok u vas ps)) ∧
    (∀ op : Fin 7,
     let r : ScopRec :=
       { id := 5, walk := 0, op := op, size := 4, pa := 0x5000, va := 0x5000, dst := 7, x := 1, ready := some 4095 }
     let s := { bankS .c { liveB with out := { Outstanding.none with scop := some r } } with
                input := about 0
                time := tickStart 4096 }
     s.input.who = 0 ∧ (s.bank 0).out.scop = some r ∧ 4095 < wheelTick s.time ∧
     wheelHolds 0 (s.bank 0).place.wheel (wheelTick s.time % 4096) = true ∧ s.poisonAt r.pa = false ∧ s.writes = [] ∧
     s.input.check ≠ .fail) :=
  ⟨⟨rfl, by decide, by decide, ⟨rfl, rfl, rfl⟩, ⟨rfl, rfl, rfl⟩, ⟨rfl, rfl, rfl⟩, by decide, by decide, ⟨_, _, _, rfl⟩,
    ⟨_, _, _, rfl⟩, ⟨_, _, _, rfl⟩⟩, by decide⟩

/-- A `scop` of a system core in hub register space. -/
theorem witness_Scops_hub :
    let r : ScopRec :=
      { id := 5, walk := 0, op := 0, size := 8, pa := hubBase, va := 0x5000, dst := 7, x := 1, ready := some 5119 }
    let s := { sysS [] with banks := [(1024, { Bank.unlisted 1024 with out := { Outstanding.none with scop := some r } })]
                            input := about 1024, time := tickStart 5120 }
    (s.bank 1024).out.scop = some r ∧ 5119 < wheelTick s.time ∧
      wheelHolds 1024 (s.bank 1024).place.wheel (wheelTick s.time % 4096) = true ∧ s.poisonAt r.pa = false ∧
      s.writes = [] ∧ s.input.check ≠ .fail ∧ (isSys 1024 && inHub r.pa) = true := by decide +kernel

theorem witness_Hints : CtlReady (bankS .c liveB) [0] ∧ fmIllegal ((bankS .c liveB).here.annot .c).offset 0 none = false :=
  ⟨⟨rfl, rfl, rfl⟩, rfl⟩

/-- A minted token whose window is the tenant's own, and each reason why there is none: no window, another tenant's,
a right that it lacks, a module past 992. -/
theorem witness_TicketsGrantsParcels :
    (let s := bankS .c liveB
     CtlReady s [1] ∧ CtlReady s [1, 2] ∧ CtlReady s [] ∧ CtlReady s [2] ∧ s.here.out.tkt = [] ∧
     gwinValid (s.hubReg (offGWIN (bitsOf (s.reg 2).toNat 63 52))) = false) ∧
    (∀ k : Fin 4,
     let w := 2 ^ 127 + 2 ^ 123 + 2 ^ 115 * (if k = 1 then 1 else 0) + 2 ^ 109 * 12
     let s := { bankS .c (regB [(2, if k = 2 then 0x2000000000000 else 0x1000000000000), (3, if k = 3 then 993 else 992)])
                with hub := [(offGWIN 0, w)] }
     s.cur.strand = .c ∧ isSys s.cur.bank = false ∧ s.here.anyPending [1, 2, 3] = false ∧
     gwinValid (s.hubReg (offGWIN (bitsOf (s.reg 2).toNat 63 52))) = true ∧
     (gwinTenant w = s.here.place.vi ↔ k ≠ 1) ∧
     (bitsOf (s.reg 2).toNat 51 48 &&& gwinRights w = bitsOf (s.reg 2).toNat 51 48 ↔ k ≠ 2) ∧
     (bitsOf (s.reg 3).toNat 9 0 ≤ 992 ↔ k ≠ 3)) :=
  ⟨⟨⟨rfl, rfl, rfl⟩, ⟨rfl, rfl, rfl⟩, ⟨rfl, rfl, rfl⟩, ⟨rfl, rfl, rfl⟩, rfl, rfl⟩, by decide⟩

/-- Two banks of one die that claim the same parcel, in one ac or, with `n` 1, the second in the next. -/
def claimS (n : Nat) : State :=
  let B := fun (k : Nat) => { regB [(2, 0x10000)] with out := { Outstanding.none with dec := .claiming k (1000 * k) 2 } }
  { bankS .c (B 5) with
    banks := [(0, B 5), (1, B (5 + n))]
    parcels := { Parcels.reset with table := [{ parcel0 with state := .arrived }] } }

/-- The smallest parcel over a PARCEL page; nothing to claim, a parcel that has arrived, claimed by two banks of which the
first or second executes; a parcel that is free to go, and one that is not OPEN; and a `post` whose one entry has been tried,
or has been admitted. -/
theorem witness_ParcelWords :
    (let s := paged (leafOf 4) (bankS .c (regB [(2, 0x100000), (3, 4096)]))
     CtlReady s [2, 3, 64 + 1] ∧ (7 : BitVec 6).toNat < 8 ∧ (s.reg 2).toNat % 4096 = 0 ∧ (s.reg 3).toNat % 4096 = 0 ∧
     s.here.deniedHere = none ∧ 4096 ≤ (s.reg 3).toNat ∧ (s.reg 3).toNat ≤ 2 ^ 36 ∧ (s.reg 2).toNat + (s.reg 3).toNat ≤ 2 ^ 57 ∧
     (∃ u xs, xlatAll 0 .write ((List.range 1).map (fun g => 0x100000 + 4096 * g)) s = (u, xs) ∧
       xs.all (fun x => pmakePage x.2) = true ∧ u.parcels.table.length < 16384) ∧ s.parcels.table = []) ∧
    (let s := bankS .c (regB [(2, 0x10000)])
     let u := { claimS 0 with parcels := Parcels.reset }
     CtlReady s [2, 64 + 1] ∧ s.here.out.dec = .none ∧ u.here.out.dec = .claiming 5 5000 2 ∧ u.acOf 0 ≠ 5 ∧
     u.claimed 0 2 = none ∧
     (∀ b : Fin 2, let t := { claimS 0 with cur := { bank := b, strand := .c } }
      let q := { parcel0 with state := .arrived }
      let c : Claim := { bank := b, ac := 5, at_ := 5000, parcel := q }
      t.cur.strand = .c ∧ isSys t.cur.bank = false ∧ t.here.anyPending [2, 64 + 1] = false ∧
      t.here.out.dec = .claiming 5 5000 2 ∧ t.acOf 0 ≠ 5 ∧ t.claimed b 2 = some q ∧ t.claimAhead c = false ∧
      ((t.rivals c).all (fun d => decide (b.val ≤ d.bank)) = decide (b = 0))) ∧
     ∀ d : Decision, (bankS .c { liveB with out := { Outstanding.none with dec := d } }).here.out.dec = d) ∧
    (CtlReady parcelS [] ∧ parcelS.openEntry 0 0 = none ∧
      ∃ q, parcelS.openEntry 0 7 = some q ∧ parcelS.parcelBusy q = false) ∧
    (let B := { parcelB.csrPut (csrRL0 + 7) 0x5001 with out := { Outstanding.none with dec := .declined 0 } }
     let s := { parcelS with banks := [(0, B)] }
     CtlReady s [1, 64 + 1] ∧ s.openEntry 0 0 = none ∧ (∃ q, s.openEntry 0 7 = some q) ∧
     s.listBad 0 [5] (s.here.routeList 7) = false ∧ s.here.out.dec = .declined 0 ∧
     (listEntries (s.here.routeList 7)).drop (0 + 1) = []) ∧
    (let B := { parcelB.csrPut (csrRL0 + 7) 0x5001 with out := { Outstanding.none with dec := .admitted 0x40003 } }
     let s := { parcelS with banks := [(0, B)] }
     CtlReady s [1, 64 + 1] ∧ s.listBad 0 [5] (s.here.routeList 7) = false ∧ s.here.out.dec = .admitted 0x40003 ∧
     ∃ q, s.openEntry 0 7 = some q ∧ s.parcelBusy q = false) :=
  ⟨⟨⟨rfl, rfl, rfl⟩, by decide, rfl, rfl, rfl, by decide, by decide, by decide, ⟨_, _, rfl, rfl, by decide⟩, rfl⟩,
    ⟨⟨rfl, rfl, rfl⟩, rfl, rfl, by decide, rfl, by decide +kernel, fun _ => rfl⟩, ⟨⟨rfl, rfl, rfl⟩, rfl, ⟨_, rfl, rfl⟩⟩,
    ⟨⟨rfl, rfl, rfl⟩, rfl, ⟨_, rfl⟩, rfl, rfl, rfl⟩, ⟨⟨rfl, rfl, rfl⟩, rfl, rfl, ⟨_, rfl, rfl⟩⟩⟩

/-- A task and a system core; a range of no bytes and of one; words inside and past a bitmap. -/
theorem witness_PrivilegedWords :
    (CtlReady (bankS .c liveB) [1, 2, 3] ∧ CtlReady (bankS .c liveB) [1] ∧ CtlReady (bankS .c liveB) []) ∧
    (let s := sysS [(2, 7)]
     let v : Inval := { tenant := some 0, lo := 0, hi := 4096 }
     SysReady s [1, 3, 2] ∧ SysReady s [1] ∧ SysReady s [] ∧ (s.reg 3).toNat = 0 ∧ (s.reg 2).toNat ≠ 0 ∧
     (s.invalidate v).invalBusy v = false) ∧
    (let s := { sysS [(2, 0), (3, 1)] with hub := [(offDLOG 0, 2 ^ 120 * 18)] }
     SysReady s [1, 2, 4] ∧ s.dirtyWord 0 0 = some 0 ∧ s.dirtyBusy 0 0 = false ∧ s.dirtyWord 0 1 = none) :=
  ⟨⟨⟨rfl, rfl, rfl⟩, ⟨rfl, rfl, rfl⟩, ⟨rfl, rfl, rfl⟩⟩,
    ⟨⟨rfl, rfl, rfl⟩, ⟨rfl, rfl, rfl⟩, ⟨rfl, rfl, rfl⟩, rfl, by decide, rfl⟩, ⟨rfl, rfl, rfl⟩, rfl, rfl, rfl⟩

/-- Vector registers 1 to 3 of a tag. -/
def vecB (t : BitVec 6) : Bank :=
  { liveB with r := { Regs.zero with v := [(1, { bits := 0, tag := t }), (2, { bits := 0x0102, tag := t }),
    (3, { bits := 0xFF01, tag := t })] } }

/-- Bits that are illegal, tags that are not accepted, a level that is not there, and a word that issues. -/
theorem witness_VectorWordsIssue :
    (∃ plan, vecPlanOf (.vadd 1 2 3 0 2) = some plan) ∧ (Instr.vadd 1 2 3 0 2).legal = false ∧
    (bankS .v (vecB 1)).cur.strand = .v ∧ isSys (bankS .v (vecB 1)).cur.bank = false ∧
    (let s := bankS .v (vecB 0)
     (Instr.vadd 1 2 3 0 0).legal = true ∧ (planVadd 1 2 3 0 0 s.here.vecView s.freeCtr).tagOk = false) ∧
    (let s := bankS .v (vecB 12)
     let p := planVfma 1 2 3 0 0 s.here.vecView s.freeCtr
     VecTagged s (.vfma 1 2 3 0 0) p ∧ s.here.level < p.level) ∧
    (let s := bankS .v (vecB 1)
     VecReady s (.vadd 1 2 3 0 0) (planVadd 1 2 3 0 0 s.here.vecView s.freeCtr)) :=
  ⟨⟨_, rfl⟩, rfl, rfl, rfl, ⟨rfl, rfl⟩, ⟨⟨rfl, rfl, rfl, by decide +kernel⟩, by decide +kernel⟩,
    ⟨⟨rfl, rfl, rfl, rfl⟩, by decide, by decide, rfl, rfl⟩⟩

/-- Each word in a strand that may issue it, with lanes of 8 bits, signed and unsigned. -/
theorem witness_VectorIntegers : ∀ t : Fin 2,
    let s := bankS .v (vecB (BitVec.ofNat 6 (t + 1)))
    let V := s.here.vecView
    tagInt (V.opTag 2) = true ∧ VecReady s (.viota 1 1 0 0) (planViota 1 1 0 0 V 0) ∧
    VecReady s (.vadd 1 2 3 0 1) (planVadd 1 2 3 0 1 V 0) ∧ VecReady s (.vsub 1 2 3 0 1) (planVsub 1 2 3 0 1 V 0) ∧
    VecReady s (.vmul 1 2 3 0 1) (planVmul 1 2 3 0 1 V 0) ∧ VecReady s (.vmin 1 2 3 0 0) (planPick false 1 2 3 0 0 V 0) ∧
    VecReady s (.vmax 1 2 3 0 0) (planPick true 1 2 3 0 0 V 0) ∧ VecReady s (.vlog 1 2 3 0 5) (planVlog 1 2 3 0 5 V 0) ∧
    VecReady s (.vshf 1 2 3 0 4) (planVshf 1 2 3 0 4 V 0) ∧ (2 : BitVec 3).toNat ≤ 2 ∧
    VecReady s (.vun 1 2 0 2) (planVun 1 2 0 2 V 0) := by
  intro t
  match t with
  | 0 | 1 =>
    exact ⟨rfl, ⟨⟨rfl, rfl, rfl, rfl⟩, by decide, by decide, rfl, rfl⟩, ⟨⟨rfl, rfl, rfl, rfl⟩, by decide, by decide, rfl, rfl⟩,
      ⟨⟨rfl, rfl, rfl, rfl⟩, by decide, by decide, rfl, rfl⟩, ⟨⟨rfl, rfl, rfl, rfl⟩, by decide, by decide, rfl, rfl⟩,
      ⟨⟨rfl, rfl, rfl, rfl⟩, by decide, by decide, rfl, rfl⟩, ⟨⟨rfl, rfl, rfl, rfl⟩, by decide, by decide, rfl, rfl⟩,
      ⟨⟨rfl, rfl, rfl, rfl⟩, by decide, by decide, rfl, rfl⟩, ⟨⟨rfl, rfl, rfl, rfl⟩, by decide, by decide, rfl, rfl⟩,
      by decide, ⟨⟨rfl, rfl, rfl, rfl⟩, by decide, by decide, rfl, rfl⟩⟩

/-- A word in flight that writes v1 and m2 and pushes into vq. -/
def job0 (i : Instr) : VecJob :=
  { id := 4, walk := 3, mark := { pc := 3, path := [], pops := 0 }, instr := i, lq := [], cq := none,
    dstV := some (1, { bits := 7, tag := 1 }), dstM := some (2, 5), push := some (39, 9), hist := [(1, 1)], flags := 0,
    checked := false }

theorem witness_VectorWordCompletes :
    (let s := { bankS .v { liveB with vec := [job0 (.vmov 1 2 0)] } with input := about 0 }
     s.input.who = 0 ∧ (s.bank 0).vec = [job0 (.vmov 1 2 0)] ∧
     ((job0 (.vmov 1 2 0)).checked = false ∨ s.input.check ≠ .fail)) ∧
    (let j := { job0 (.vadd 1 2 3 0 0) with checked := true }
     let s := { bankS .v { liveB with vec := [j] } with input := { about 0 with check := .fail } }
     s.input.who = 0 ∧ (s.bank 0).vec = [j] ∧ j.checked = true ∧ s.input.check = .fail) := by decide +kernel

/-- A descriptor of the first byte of the window. -/
def desc0 : MqDesc := { base := 0, rho := 0, rowPitch := 8, tilePitch := 0 }

/-- Formats that `mma` does not accept, a level that is not there, a footprint that fits and one that does not. -/
theorem witness_MatrixWordsIssue :
    (let s := bankS .m liveB
     let p := planMma 0 1 0 0 s.here.matView
     (∃ plan, matPlanOf (.mma 0 0 1 0 0 0) = some plan) ∧ MatAt s (.mma 0 0 1 0 0 0) ∧ p.tagOk = false) ∧
    (let s := bankS .m { liveB with mat := { MatState.start with fa := 1, fb := 2 } }
     let p := planMma 8 8 0 0 s.here.matView
     (∃ plan, matPlanOf (.mma 0 8 8 0 0 0) = some plan) ∧ MatAt s (.mma 0 8 8 0 0 0) ∧ p.tagOk = true ∧
       s.here.level < p.level) ∧
    (∀ c : Fin 2,
     let s := bankS .m { liveB.csrPut csrSPLIM 0x1000 with
       q := { Queues.empty with mq := [{ desc0 with base := if c = 0 then 0x1000 - 1024 else 0x1000 - 1023 }] } }
     let p : MatPlan := .one (fun d => rowsFoot d 128 8 false)
     (matPlanOf (.mscl 0)).isSome = true ∧ s.cur.strand = .m ∧ isSys s.cur.bank = false ∧ (Instr.mscl 0).legal = true ∧
       p.tagOk = true ∧ p.level ≤ s.here.level ∧ s.here.mat.window.length < 8 ∧ p.pops ≤ s.here.q.mq.length ∧
       ((s.here.firstInvalid (p.ranges (s.here.q.mq.take p.pops))).isNone ↔ c = 0)) :=
  ⟨⟨⟨_, rfl⟩, ⟨rfl, rfl, rfl⟩, by decide⟩, ⟨⟨_, rfl⟩, ⟨rfl, rfl, rfl⟩, by decide, by decide⟩, by decide⟩

/-- A command in the window. -/
def win0 (i : Instr) (g : Bool) : MatWin :=
  { id := 4, walk := 0, mark := { pc := 0, path := [], pops := 0 }, instr := i, descs := [desc0], m := 1, n := 1, k := 1,
    fa := 1, fb := 1, ranges := [], begun := g }

/-- A command that may begin, and one of each kind that has begun. -/
theorem witness_MatrixCommands :
    (let c := win0 (.mscl 0) false
     let s := { bankS .m { liveB with mat := { MatState.start with window := [c] } } with input := about 0 }
     s.input.who = 0 ∧ (s.bank 0).mat.window = [c] ∧ s.matMayBegin 0 c = true) ∧
    (∀ i ∈ [Instr.mshape 1 2 3, .mfmt 1 2, .mzero 1, .mzeroT 7, .mmov 7 6, .manch 1 5, .mmovFmt 7 1 1 0 0, .msclOne 1,
        .mma 1 0 1 0 0 0, .mldt 7 1 0 0, .msta 1 15 1 0 0 0, .mchk 1 15 0 1],
     let c := win0 i true
     let s := { bankS .m { liveB with mat := { MatState.start with window := [c] } } with input := about 0 }
     s.input.who = 0 ∧ s.input.check = .pass ∧ (s.bank 0).mat.window = [c] ∧ c.begun = true) := by decide

/-- Staging fields of a copy of 16 bytes from the window's last ones to global memory. -/
def staging0 : Staging := { src := 0xFF0, dst := 0x5000, shape := 0x100000010, pitch := 0, layout := 0, ctr := 0 }

theorem witness_TransferWords :
    (let s := bankS .x { liveB with q := { Queues.empty with xq := List.replicate 6 1 } }
     XferAt s (.xset 0 5) ∧ (5 : BitVec 3).toNat + 1 ≤ s.here.q.xq.length ∧ XferAt s .xclr ∧ XferAt s .xclrDrop ∧
     XferAt s (.xgo 1 2 1) ∧ s.here.xfer.staging.ok 1 = false) ∧
    (let s := bankS .x { liveB.csrPut csrSPLIM 0x1000 with xfer := { staging := staging0, window := [] } }
     XferAt s (.xgo 1 2 1) ∧ (s.here.annot .x).space < 2 ∧ s.here.xfer.staging.ok 1 = true ∧
     s.here.firstInvalid (s.here.xfer.staging.ranges 1) = none ∧ s.here.xferDepth < 8) ∧
    (let s := bankS .x { liveB.csrPut csrSPLIM 0xFFF with xfer := { staging := staging0, window := [] } }
     XferAt s (.xgo 1 2 1) ∧ (s.here.annot .x).space < 2 ∧ s.here.xfer.staging.ok 1 = true ∧
     ∃ x, s.here.firstInvalid (s.here.xfer.staging.ranges 1) = some x) :=
  ⟨⟨⟨rfl, rfl, rfl⟩, by decide, ⟨rfl, rfl, rfl⟩, ⟨rfl, rfl, rfl⟩, ⟨rfl, rfl, rfl⟩, rfl⟩,
    ⟨⟨rfl, rfl, rfl⟩, by decide, rfl, rfl, by decide⟩, ⟨⟨rfl, rfl, rfl⟩, by decide, rfl, ⟨_, rfl⟩⟩⟩

/-- A command of one granule. -/
def xwin0 : XferWin :=
  { id := 4, walk := 0, st := staging0, flag := some 15, dir := 1, ord := 0, scope := 0, policy := 0, ranges := [], flight := [], gidx := 0,
    mask := 0, record := false, held := false, dropped := false, count := none }

/-- A granule that may start, one whose writes are visible, and a command whose granules are complete. -/
theorem witness_TransferGranules :
    (let s := { bankS .x { liveB with xfer := { staging := staging0, window := [xwin0] } } with input := about 0 }
     s.input.who = 0 ∧ s.input.ok = false ∧ (s.bank 0).xferHead = some xwin0 ∧ s.mayStart 0 xwin0 = true ∧
     xwin0.startable = [0]) ∧
    (let f : Flight := { g := 0, id := 5, src := none, dst := some 0x5000, ready := true, moved := true, ids := [6] }
     let c := { xwin0 with flight := [f] }
     let s := { bankS .x { liveB with xfer := { staging := staging0, window := [c] } } with input := about 0 }
     s.input.who = 0 ∧ s.xferAt 0 s.input.sub = some c ∧ c.flight.find? (fun x => x.g = s.input.third) = some f ∧
     f.ready = true ∧ f.moved = true ∧
     s.writes.all (fun w => ! f.ids.contains w.id || (! w.scr && w.dies.contains (dieOf 0))) = true) ∧
    (let c := { xwin0 with gidx := 1 }
     let s := { bankS .x { liveB with xfer := { staging := staging0, window := [c] } } with input := about 0 }
     s.input.who = 0 ∧ s.xferAt 0 s.input.sub = some c ∧ c.flight = [] ∧ c.finished = true ∧ c.dropped = false ∧
     c.held = false ∧ c.flag = some 15 ∧ c.st.ctr = 0 ∧ (s.bank 0).out.faults = [] ∧
     s.commandAt 0 c.walk c.endScope = true) := by decide

/-- A task whose word has been decided so far, with an entry of route list 7. -/
def decB (d : Decision) (list : Word) : Bank :=
  { liveB.csrPut (csrRL0 + 7) list with out := { Outstanding.none with dec := d } }

/-- A job of bank 0 at a service. -/
def svcJob : Job :=
  { number := 3, asker := .bank 0, tenant := 0, k := 1, occupies := true, share := none, since := 0, sinceAc := 0, id := 0,
    walk := 0, desc := [], va := 0, done := 0, ending := 0, stage := 0, ids := [], flags := 0, fault := none, denied := false,
    fmax := 0, level := 0, work := JobWork.none }

/-- Whether `engreq` refuses the list. -/
def badList (l : Word) : Bool :=
  let s := bankS .c (decB .none l)
  let es := listEntries (s.here.routeList 7)
  s.listBad s.cur.bank [1, 2, 3, 4] (s.here.routeList 7) || es.any (fun e => decide (entryKind e ≠ entryKind (es.headD 0)))

/-- A holder that lacks one place or none. -/
def holder0 (held : Nat) (offered : Bool) : Holder :=
  { asker := .bank 0, tenant := 0, k := 2, held := held, offered := offered, list := 0, since := 0, sinceAc := 0 }

/-- A list of one entry and one that names nothing; a request that has been admitted, refused, and declined at its only
entry; a job that a handle names; an entry to remove at the hub, held there or not, and one for another module. -/
theorem witness_ServiceRequests :
    (badList 0x1000 = false ∧ badList 0 = true ∧ (listEntries ((bankS .c (decB .none 0x1000)).here.routeList 7)).drop (0 + 1) = []) ∧
    (∀ d ∈ [Decision.admitted 5, .refused 5, .declined 0],
     let s := bankS .c (decB d 0x1000)
     s.cur.strand = .c ∧ isSys s.cur.bank = false ∧ s.here.anyPending [1, 2, 64 + 15] = false ∧ (15 : BitVec 6).toNat < 16 ∧
       s.here.out.dec = d) ∧
    (let s := bankS .c (regB [(2, 0x300001000)])
     let t := { s with svc := { Services.reset with inst := [(0x1000, { Inst.empty with jobs := [svcJob] })] } }
     CtlReady s [1, 2] ∧ s.handleJob s.cur.bank (s.reg 2) = none ∧ CtlReady t [1, 2] ∧
       t.handleJob t.cur.bank (t.reg 2) = some (0x1000, svcJob)) ∧
    (let s := bankS .c (decB .none 0x5006)
     let t := { s with svc := { Services.reset with inst := [(instBellows, { Inst.empty with holds := [holder0 0 false] })] } }
     CtlReady s [] ∧ (7 : BitVec 6).toNat < 10 ∧ s.unholdAt s.cur.bank 7 = none ∧
       s.here.refusals 7 < max 1 s.here.esc ∧ max 1 s.here.esc ≤ (s.here.setRefusals 7 4).refusals 7 ∧
       s.unholdAt s.cur.bank 9 = some (instBellows, .bank 0) ∧ (s.inst instBellows).holder (.bank 0) = none ∧
       ((t.inst instBellows).holder (.bank 0)).isSome = true) :=
  ⟨by decide +kernel, by decide, ⟨⟨rfl, rfl, rfl⟩, rfl, ⟨rfl, rfl, rfl⟩, rfl⟩, ⟨rfl, rfl, rfl⟩, by decide +kernel⟩

/-- A region asked for, decided and not, and one to end. -/
theorem witness_PowerRegions :
    (∀ d ∈ [Decision.none, .admitted 5, .declined 0],
     let s := bankS .c (decB d 0)
     s.cur.strand = .c ∧ isSys s.cur.bank = false ∧ s.here.anyPending [64 + 15] = false ∧ (15 : BitVec 6).toNat < 16 ∧
       1 ≤ (4 : BitVec 3).toNat ∧ (4 : BitVec 3).toNat ≤ 4 ∧ s.here.allHere = true ∧ s.here.out.dec = d) ∧
    (let s := { bankS .c liveB with svc := { Services.reset with inst := [(instBellows, { Inst.empty with jobs := [svcJob] })] } }
     CtlReady s [] ∧ Meet s ∧ (s.inst instBellows).jobs.find? (fun j => j.asker.same (.bank s.cur.bank)) = some svcJob) :=
  ⟨by decide, ⟨rfl, rfl, rfl⟩, .inl rfl, rfl⟩

/-- A barrier not arrived at, one that is complete, and one at which the only member waits, blocked and split. -/
theorem witness_Barriers :
    (∀ d ∈ [Decision.none, .admitted 0],
     let s := bankS .c (decB d 0)
     s.cur.strand = .c ∧ isSys s.cur.bank = false ∧ s.here.anyPending [] = false ∧ 1 ≤ (5 : BitVec 3).toNat ∧
       (5 : BitVec 3).toNat ≤ 5 ∧ (15 : BitVec 6).toNat < 16 ∧ s.here.out.dec = d ∧
       s.here.out.splits.any (fun x => decide (x.1 = 8 * 15 + 5)) = false ∧ s.here.histDone = true) ∧
    (∀ f ∈ [15, 16, 17],
     let B := { liveB with out := { Outstanding.none with splits := [(125, f)], arrive := [(125, 1)] } }
     let s := { bankS .c B with input := { about 0 with sub := 125 } }
     let n := (s.bank 0).arrivals 125
     s.input.who = 0 ∧ s.input.sub = 125 ∧ (s.bank 0).out.splits.any (fun x => decide (x.1 = 125)) = true ∧
       (s.members 0 (125 % 8)).all (fun c => decide ((s.bank c).place.group = (s.bank 0).place.group) &&
         decide (n ≤ (s.bank c).arrivals 125) && s.arrivalDone c 125 (125 % 8)) = true ∧
       0 ∈ s.members 0 (125 % 8) ∧ (s.bank 0).arrivals 125 = n ∧
       (s.bank 0).out.splits.find? (fun x => decide (x.1 = 125)) = some (125, f)) := by decide

/-- Four strands at `pwr.rel`, and a vector whose message may be sent. -/
theorem witness_RendezvousAndInterrupts :
    (let B := { liveB with words := 1, text := [(0, encode .pwrRel)], wc := { Walker.zero with stall := .rendezvous } }
     let s := { bankS .c B with input := about 0 }
     s.input.who = 0 ∧ mayIssue s 0 .c = true ∧ (s.bank 0).allHere = true ∧ (s.bank 0).wc.stall = .rendezvous ∧
       decodeWord ((s.bank 0).wordAt (s.bank 0).wc.pc) = some .pwrRel ∧ meets .pwrRel = true ∧ isSys 0 = false ∧
       (s.bank 0).trap.handler = false ∧ (s.inst instBellows).jobs.find? (fun j => j.asker.same (.bank 0)) = none) ∧
    (let s := { bankS .c { liveB with out := { Outstanding.none with intrs := [(61, 3, 2)] } } with
                input := { about 0 with sub := 61 },
                host := { HostIf.reset with vis := [(0, { Vi.reset with masked := [] })] } }
     s.input.who = 0 ∧ s.intrsOf (s.bank 0).place.vi s.input.sub = [(0, 3, 2)] ∧
       s.earlierAllAt 0 3 2 4 = true ∧ (s.ifc (s.bank 0).place.vi).masked.contains 61 = false) := by decide

/-- A try of bank 0 at instance 0x1000. -/
def try0 (k : Nat) : Try :=
  { asker := .bank 0, tenant := 0, k := k, pos := 0, first := 0x1000, list := 0, desc := [], va := 0, id := 0, walk := 0,
    cycle := 0, ptry := Packet.zero, gwin := 0 }

/-- A state with one instance at key 0x1000 and an event there, `ac` cycles of its cluster after reset. -/
def instS (x : Inst) (ac : Nat) : State :=
  let p := { Power.reset with clusters := [(0, { Cluster.reset with ac := ac })] }
  { bankS .c (liveB.csrPut csrHOLD 0x100) with svc := { Services.reset with inst := [(0x1000, x)] }, power := p, input := { about 0x1000 with sub := 3 } }

/-- A try of a region of level 4 that is admitted; a region that has run for E. -/
theorem witness_PowerRegions_decided :
    (let u := { try0 4 with va := 4, first := instBellows, list := 9 }
     let s := { bankS .c liveB with
                svc := { Services.reset with inst := [(instBellows, { Inst.empty with tries := [u], cycle := 1, begun := true })] }
                input := about instBellows, time := 1000 }
     s.input.size = 0 ∧ (s.inst instBellows).begun = true ∧ s.nextTry instBellows (s.inst instBellows) = some u ∧
       u.asker = .bank 0 ∧ u.va < 8 ∧ levelUnits u.va (s.fmaxOf (clusterOf 0)) < 256 ∧
       (s.inst instBellows).offered u.asker = 0 ∧
       s.admits instBellows (s.inst instBellows) u.tenant (levelUnits u.va (s.fmaxOf (clusterOf 0))) u.pos = true) ∧
    (let s := { bankS .c liveB with
                svc := { Services.reset with inst := [(instBellows, { Inst.empty with jobs := [svcJob] })] }
                input := about instBellows, time := 4000000000 }
     (s.inst instBellows).jobs.find? (fun j => j.occupies && s.jobOverdue instBellows j) = some svcJob ∧
       svcJob.asker = .bank 0 ∧ (s.inst instBellows).jobs.find? (fun i => i.asker.same (.bank 0)) = some svcJob) := by
  decide +kernel

/-- A try that fits and one that does not; a holder that lacks the one free place; one whose window has ended; a job
past E; a job that is done; a quota within the places that the reserve leaves, and one that no kind has. -/
theorem witness_Services :
    (∀ k ∈ [3, 4],
     let s := instS { Inst.empty with tries := [try0 k], cycle := 1, begun := true } 1
     s.input.who = 0x1000 ∧ s.input.size = 0 ∧ (s.inst 0x1000).begun = true ∧ s.nextTry 0x1000 (s.inst 0x1000) = some (try0 k) ∧
       entryKind 0x1000 ∈ [1, 2, 4] ∧ (s.inst 0x1000).offered (.bank 0) = 0 ∧
       s.admits 0x1000 (s.inst 0x1000) 0 k 0 = decide (k = 3)) ∧
    (let s := instS { Inst.empty with jobs := [svcJob], holds := [holder0 1 false] } 0
     s.input.who = 0x1000 ∧ (s.inst 0x1000).holds = [holder0 1 false] ∧ (holder0 1 false).held + 1 = (holder0 1 false).k ∧
       (s.inst 0x1000).begun = false ∧ (s.inst 0x1000).freePlaces (entryKind 0x1000) = 1) ∧
    (let s := instS { Inst.empty with holds := [holder0 2 true] } 256
     s.input.who = 0x1000 ∧ (s.inst 0x1000).holds = [holder0 2 true] ∧ s.windowEnded false (holder0 2 true) = true) ∧
    (let s := instS { Inst.empty with jobs := [svcJob] } 4096
     s.input.who = 0x1000 ∧ entryKind 0x1000 ∈ [1, 2, 3, 4] ∧
       (s.inst 0x1000).jobs.find? (fun j => (j.occupies || decide (j.ending = 0 ∧ entryKind 0x1000 ≤ 4)) &&
         s.jobOverdue 0x1000 j) = some svcJob) ∧
    (let j := { svcJob with ending := 1, stage := 2 }
     let s := instS { Inst.empty with jobs := [j] } 0
     s.input.who = 0x1000 ∧ s.jobAt 0x1000 s.input.sub = some j ∧ j.ending ≠ 0 ∧ j.fault = none ∧ 2 ≤ j.stage ∧
       s.jobWritesAt j j.endScope = true ∧ s.copyAwaited j = false) ∧
    (let s := eventS { about 0 with value := 0x10002 }
     let v := s.input.value.toNat &&& 0x0FFF0FFF
     ((List.range 256).map (fun n => if n = 0 then v / 2 ^ 16 % 2 ^ 12 else (s.quota 1 n).1)).foldl (· + ·) 0 ≤
         svcPlaces 1 - svcReserve 1 ∧ v / 2 ^ 16 % 2 ^ 12 ≤ svcPlaces 1 ∧ v % 2 ^ 12 ≤ svcPlaces 1 ∧
         v / 2 ^ 16 % 2 ^ 12 ≤ v % 2 ^ 12) ∧
    (let v := (eventS { about 0 with value := 4 }).input.value.toNat &&& 0x0FFF0FFF
     svcPlaces 1 < v % 2 ^ 12) := by decide +kernel

/-- Quotas that are refused, by each ground: the sum of the minima, min and max above P, and min above max. -/
theorem witness_Services_quota :
    ∀ x ∈ [(0xFFF0000, 0), (0xFFF0000, 1), (0xFFF, 2), (0x30001, 3)],
      let s := eventS { about 0 with value := BitVec.ofNat 128 x.1 }
      let v := s.input.value.toNat &&& 0x0FFF0FFF
      let lo := v / 2 ^ 16 % 2 ^ 12
      let hi := v % 2 ^ 12
      let sum := ((List.range 256).map (fun n => if n = 0 then lo else (s.quota 1 n).1)).foldl (· + ·) 0
      (x.2 = 0 → svcPlaces 1 - svcReserve 1 < sum) ∧ (x.2 = 1 → svcPlaces 1 < lo) ∧ (x.2 = 2 → svcPlaces 1 < hi) ∧
        (x.2 = 3 → hi ≠ 0 ∧ hi < lo) := by decide +kernel

/-- Dies at a stage of their authentication. -/
def diesS (stage time : Nat) (i : Input) : State :=
  { State.reset with phase := .dies, time := time, input := i,
                     boot := { Boot.reset with dies := [0, 1, 2, 3].map (fun d => (d, { DieAuth.reset with stage := stage })) } }

theorem witness_BootAndDies :
    State.reset.phase = .inReset ∧
    ((diesS 1 0 (about 3)).input.who = 3 ∧ (diesS 1 0 (about 3)).phase = .dies ∧ ((diesS 1 0 (about 3)).die 3).stage = 1) ∧
    ((diesS 2 0 (about 3)).input.who = 3 ∧ ((diesS 2 0 (about 3)).die 3).stage = 2) ∧
    100000000000 ≤ (diesS 1 100000000000 (about 3)).time - ((diesS 1 100000000000 (about 3)).die 3).since ∧
    (let s := diesS 3 0 { Input.none with sub := 2, size := 2, list := [1, 2, 2, 2, 2, 3, 0, 9, 0, 0, 0, 0, 0, 0, 0, 0] }
     s.phase = .dies ∧ s.present ≠ [] ∧ s.input.sub = 2 ∧ s.input.size = 2 ∧
     ∀ d, d ∈ s.present → (s.die d).stage = 3 ∧ s.input.list.getD (2 * d) 0 % 65536 ≤ 2 ∧
       2 ≤ s.input.list.getD (2 * d + 1) 0 % 65536 ∧ bitAt s.input.third d = false) := by decide

/-- A port that is trained. -/
def linkS (l : Link) (i : Input) : State :=
  { State.reset with phase := .running, input := i, fab := { Fabric.reset with links := [(3, { l with trained := true })] } }

/-- A data flit that is next and one that is not; a control flit, the first and a later one. -/
theorem witness_FlitsReceived :
    (∀ q : Fin 2,
     let s := linkS Link.reset { about 3 with flit := { Flit.zero with seq := q } }
     s.input.who = 3 ∧ (s.link 3).trained = true ∧ (s.link 3).training = false ∧ s.input.flit.kind = 0 ∧
       (s.input.flit.seq = (s.link 3).rxSeq ↔ q = 0)) ∧
    (let s := linkS { Link.reset with rxCtl := some 4 } { about 3 with flit := { Flit.zero with kind := 1, seq := 5 } }
     GoodControl s) :=
  ⟨by decide, ⟨rfl, rfl⟩, rfl, fun c h => by cases (show some 4 = some c from h); decide, rfl⟩

/-- What each of a port's own events waits for; and packets for this module and for a neighbour. -/
theorem witness_LinkEvents :
    (let s := { linkS { Link.reset with buf := [{ seq := 0, vc := 0, pos := 0, payload := [], txc := 3, from_ := none }] } (about 3) with time := 2000000 }
     s.input.who = 3 ∧ (s.link 3).carries ∧ (s.link 3).buf ≠ [] ∧ 2000000 ≤ s.time - (s.link 3).ackAt ∧
       ∀ f ∈ (s.link 3).buf, f.txc < 4) ∧
    (let s := linkS { Link.reset with discards := 16 } (about 3)
     (s.link 3).carries ∧ 16 ≤ (s.link 3).discards) ∧
    (∀ ok : Bool,
     let s := linkS { Link.reset with training := true } { about 3 with ok := ok }
     (s.link 3).training = true ∧ s.input.ok = ok ∧ (s.link 3).queue = []) ∧
    (let s := linkS Link.reset { about 3 with ok := true }
     (s.link 3).carries ∧ (s.link 3).switching = false ∧ s.input.ok = true) ∧
    (∀ lo ∈ [65535, 65536],
     let s := { eventS { about 30 with sub := lo, third := 65536 } with
                boot := { Boot.reset with dies := [0, 1, 2, 3].map (fun d => (d, { DieAuth.reset with fabHi := 65535 })) } }
     s.input.who = 30 ∧ s.input.sub = lo ∧ s.input.third = 65536 ∧ s.phase = .running ∧
       30 < (neighbours s.boot.moduleNo).length ∧ s.boot.fenced.contains (30 / 8) = false ∧
       (Nat.max s.fabricRange.1 lo ≤ Nat.min s.fabricRange.2 65536 ↔ lo = 65535)) ∧
    (let p := { Packet.zero with op := 1 }
     p.dest = (eventS { Input.none with packet := p }).boot.moduleNo ∧ p.inter = 0x3FF ∧ ∃ i, opEvent p.op = some i) ∧
    (let p := { Packet.zero with op := 1, dest := 2 }
     let s := { linkS { Link.reset with training := true } { Input.none with packet := p } with hub := [(offRTAB 2, 1 + 2 ^ 40 + 2 ^ 42 * 3)] }
     p.dest ≠ s.boot.moduleNo ∧ p.inter = 0x3FF ∧ s.input.sub % 4 ≠ 3 ∧ bitAt (s.hubReg (offRTAB 2)) 0 = true ∧
       (rtHops (s.hubReg (offRTAB 2)) = 1 ∨ rtHops (s.hubReg (offRTAB 2)) = 2) ∧ rtPort (s.hubReg (offRTAB 2)) = 3 ∧
       s.portUp 3 = true ∧ (s.link 3).training = true) := by
  refine ⟨⟨rfl, ⟨rfl, rfl⟩, by decide, by decide, by decide⟩, ⟨⟨rfl, rfl⟩, by decide⟩, by decide, ⟨⟨rfl, rfl⟩, rfl, rfl⟩,
    by decide +kernel, ⟨rfl, rfl, ⟨_, rfl⟩⟩, by decide, rfl, by decide, rfl, by decide, rfl, rfl, rfl⟩

/-- The sixteenth flit of a row that is discarded, and a retrain that is due. -/
theorem witness_LinkEvents_retrain :
    (let s := linkS { Link.reset with discards := 15 } { about 3 with flit := { Flit.zero with kind := 1 } }
     s.input.who = 3 ∧ (s.link 3).trained = true ∧ (s.link 3).training = false ∧ s.input.flit.kind ≠ 0 ∧
       15 ≤ (s.link 3).discards) ∧
    (let s := linkS { Link.reset with due := true } (about 3)
     s.input.who = 3 ∧ (s.link 3).trained = true ∧ (s.link 3).training = false ∧ (s.link 3).due = true) := by decide +kernel

/-- The fields of a token of window 0, epoch 0 and every right. -/
theorem token_fields (x : Nat) (h : x < 2 ^ 36) :
    bitsOf (15 * 2 ^ 48 + x) 63 36 = 15 * 2 ^ 12 ∧ bitsOf (15 * 2 ^ 48 + x) 35 0 = x ∧
    bitsOf (15 * 2 ^ 48 + x) 63 52 = 0 ∧ bitsOf (15 * 2 ^ 48 + x) 47 36 = 0 ∧
    ∀ r, r < 4 → bitAt (15 * 2 ^ 48 + x) (48 + r) = true := by
  refine ⟨by simp only [bitsOf]; omega, by simp only [bitsOf]; omega, by simp only [bitsOf]; omega,
    by simp only [bitsOf]; omega, fun r hr => ?_⟩
  match r, hr with
  | 0, _ | 1, _ | 2, _ | 3, _ => simp only [bitAt, decide_eq_true_eq]; omega

/-- A packet with a token of module 0 that its key makes for module 0 and tenant 0. -/
def askP (body : List Byte) : Packet :=
  { Packet.zero with token := 15 * 2 ^ 48 + State.reset.tokenCode (15 * 2 ^ 12) 0 0, body := body }

/-- A window of one granule at 0x5000, of tenant 0 and every right. -/
def window0 : Nat := 2 ^ 127 + 15 * 2 ^ 123 + 2 ^ 109 * 12 + 2 ^ 64 * 5

/-- A module with a window of one granule at 0x5000, of every right, that is asked this. -/
def askS (ps : Parcels) (body : List Byte) : State :=
  let s := paged (leafOf 0) (eventS { Input.none with packet := askP body })
  { s with hub := (offGWIN 0, window0) :: s.hub, parcels := ps }

/-- The grant checks pass for any request within the window, whatever else the module holds. -/
theorem grant_ok (s : State) (body : List Byte) (r size : Nat) (hr : r < 4) (hs : size ≤ 4096)
    (hc : s.tokenCode (15 * 2 ^ 12) 0 0 = State.reset.tokenCode (15 * 2 ^ 12) 0 0)
    (hw : s.hubReg (offGWIN 0) = window0) (hp : s.hubReg offGEPOCH = 0) :
    s.grantCheck (askP body).token 0 0 r 0 size = 0 := by
  have hx : State.reset.tokenCode (15 * 2 ^ 12) 0 0 < 2 ^ 36 := Nat.mod_lt _ (by decide)
  obtain ⟨h1, h2, h3, h4, h5⟩ := token_fields _ hx
  have hv : gwinValid window0 = true := by decide
  have hr' : bitAt (gwinRights window0) r = true := by
    match r, hr with
    | 0, _ | 1, _ | 2, _ | 3, _ => decide
  have hg : gwinSize window0 = 4096 := by decide
  have he : bitsOf 0 11 0 = 0 := by decide
  simp only [State.grantCheck, askP, h1, hw, h2, h3, h4, h5 r hr, hv, hc, hr', hg, hp, he]
  simp; omega

theorem ask_ok (ps : Parcels) (body : List Byte) (r size : Nat) (hr : r < 4) (hs : size ≤ 4096) :
    (askS ps body).grantCheck (askP body).token 0 0 r 0 size = 0 :=
  grant_ok _ body r size hr hs rfl rfl rfl

/-- The body of a request of 4 bytes: its size and, for a write, four bytes from byte 32 on; for a read-modify-write a
byte of function and width. -/
def askBody (n fw : Nat) : List Byte :=
  leBytes 2 n ++ leBytes 1 fw ++ List.replicate 5 0 ++ leBytes 8 0x10000 ++ List.replicate 16 0 ++ [1, 2, 3, 4]

/-- A delivery of two granules of which none has arrived. -/
def delivery0 : Delivery :=
  { entry := 3, handle := 0x10000, sender := none, peer := 0, inc := 0, token := 0, die := 0, off := 0, length := 8192, done := 0,
    vi := 0, core := 0, read := none, queue := [], at_ := 0, job := 0, waiting := false, held := [] }

/-- The state after the translation of a request's page. -/
def askT (body : List Byte) (k : AccKind) : State := ((askS Parcels.reset body).translate none false 0 0x5000 k).1

theorem ask_served (body : List Byte) (r size : Nat) (k : AccKind) (hr : r < 4) (hs : size ≤ 4096)
    (hk : (askS Parcels.reset body).requestOk (askP body) = true)
    (hp : (askS Parcels.reset body).translate none false 0 0x5000 k = (askT body k, .phys 0x40005000 0)) :
    ServedHere (askS Parcels.reset body) r size k (askT body k) 0x40005000 := by
  refine ⟨hk, ask_ok _ _ r size hr hs, 0, by decide, ?_⟩
  have h3 : bitsOf (askS Parcels.reset body).input.packet.token 63 52 = 0 :=
    (token_fields _ (Nat.mod_lt _ (by decide))).2.2.1
  have hw : (askS Parcels.reset body).hubReg (offGWIN 0) = window0 := rfl
  have ht : gwinTenant window0 = 0 := by decide
  have hb : gwinBase window0 = 0x5000 := by decide
  rw [h3, hw, ht, hb]
  exact hp

/-- A module that has taken a request in, at a physical address whose port has served it. -/
def takenS (body : List Byte) : State :=
  let q : OwnerReq := { id := 9, packet := askP body, pa := 0x40005000, die := 0, tenant := 0, va := 0x5000 }
  { eventS { Input.none with ok := true, sub := 9 } with fab := { Fabric.reset with inbox := [q] } }

/-- A module whose window's page lies in CXL memory, that is asked this. -/
def cxlS (body : List Byte) : State :=
  let s := paged (2 ^ 42 + 0xE3) (eventS { Input.none with packet := askP body })
  { s with hub := (offGWIN 0, window0) :: s.hub
           boot := { Boot.reset with cxlUp := [(0, true)], cxlSize := [(0, 2 ^ 30)] } }

theorem cxl_served (body : List Byte) (t : State)
    (hk : (cxlS body).requestOk (askP body) = true)
    (hp : (cxlS body).translate none false 0 0x5000 .read = (t, .phys (2 ^ 42 + 0x5000) 0)) :
    ServedHere (cxlS body) 0 4 .read t (2 ^ 42 + 0x5000) := by
  refine ⟨hk, grant_ok _ body 0 4 (by decide) (by decide) rfl rfl rfl, 0, by decide, ?_⟩
  have h3 : bitsOf (cxlS body).input.packet.token 63 52 = 0 :=
    (token_fields _ (Nat.mod_lt _ (by decide))).2.2.1
  have hw : (cxlS body).hubReg (offGWIN 0) = window0 := rfl
  have ht : gwinTenant window0 = 0 := by decide
  have hb : gwinBase window0 = 0x5000 := by decide
  rw [h3, hw, ht, hb]
  exact hp

/-- A request without a window; a read, a write and read-modify-writes that ingress accepts, and what their ports have
served; a parcel's try and its data. -/
theorem witness_PeerRequests :
    (let s := eventS { Input.none with packet := { Packet.zero with body := askBody 4 0 } }
     s.requestOk s.input.packet = true ∧ s.input.ok = false ∧
     ∀ r : Fin 3, s.grantCheck s.input.packet.token s.input.packet.source s.input.packet.tenant r s.input.packet.addr 4 ≠ 0) ∧
    (ServedHere (askS Parcels.reset (askBody 4 0)) 0 (leAt (askBody 4 0) 0 2) .read (askT (askBody 4 0) .read) 0x40005000 ∧
      (askT (askBody 4 0) .read).input = (askS Parcels.reset (askBody 4 0)).input ∧
      (askS Parcels.reset (askBody 4 0)).input.ok = false ∧ (askT (askBody 4 0) .read).portOf 0x40005000 ≠ none) ∧
    (let s := cxlS (askBody 4 0)
     let t := (s.translate none false 0 0x5000 .read).1
     s.input.ok = false ∧ t.input = s.input ∧ t.portOf (2 ^ 42 + 0x5000) = none ∧ t.queued t.nextId = false ∧
     ServedHere s 0 (leAt s.input.packet.body 0 2) .read t (2 ^ 42 + 0x5000)) ∧
    (let s := takenS (askBody 0 6)
     s.input.ok = true ∧ s.queued 9 = false ∧ ∃ q, s.fab.inbox.find? (fun q => q.id = s.input.sub) = some q ∧
      q.packet = askP (askBody 0 6) ∧
      (∃ v old, s.rmwAt (peerTag q.die q.tenant q.va) q.pa 4
        (fun m => some (amoOp 1 (8 * 4) m (leAt (askBody 0 6) 8 8 % 2 ^ (8 * 4)))) = some (v, old)) ∧
      (∃ v old, s.rmwAt (peerTag q.die q.tenant q.va) q.pa 4
        (fun m => if m = 0x10000 then some 0 else none) = some (v, old))) ∧
    (ServedHere (askS Parcels.reset (askBody 4 0)) 1 (leAt (askBody 4 0) 0 2) .write (askT (askBody 4 0) .write) 0x40005000 ∧
      (askT (askBody 4 0) .write).input = (askS Parcels.reset (askBody 4 0)).input ∧
      1 ≤ leAt (askBody 4 0) 0 2 ∧ ((askBody 4 0).drop 32).length = leAt (askBody 4 0) 0 2) ∧
    (let t := askT (askBody 0 6) .atomic
     ServedHere (askS Parcels.reset (askBody 0 6)) 2 4 .atomic t 0x40005000 ∧
      t.input = (askS Parcels.reset (askBody 0 6)).input ∧ rmwSize (askP (askBody 0 6)) = 4 ∧
      t.portOf 0x40005000 ≠ none) ∧
    (let s := askS Parcels.reset (askBody 1 0)
     s.requestOk s.input.packet = true ∧ s.grantCheck (askP (askBody 1 0)).token 0 0 3 0 (leAt (askBody 1 0) 16 8) = 0 ∧
     s.instPresent (instPRU ((1 - 1) % 4)) = true) ∧
    (let s := askS { Parcels.reset with table := [parcel0], deliveries := [delivery0] } (askBody 4 0)
     s.requestOk s.input.packet = true ∧
     s.receiving (fun d => decide (d.handle = leAt s.input.packet.body 8 8 ∧ d.peer = s.input.packet.source ∧
       d.off ≤ s.input.packet.addr ∧ s.input.packet.addr + 4 ≤ d.off + d.length)) = some delivery0 ∧
     s.grantCheck (askP (askBody 4 0)).token 0 0 3 0 4 = 0 ∧ delivery0.waiting = false ∧
     delivery0.done + 4 < delivery0.length ∧ s.parcels.table.find? (fun q => q.id = delivery0.entry) = some parcel0 ∧
     ∃ pa, s.hubXlat 0 (0x100000 + (0 - 0)) .write = .ok pa) := by
  refine ⟨⟨by decide +kernel, rfl, fun r => (by decide : (1 : Nat) ≠ 0)⟩,
    ⟨ask_served _ 0 4 _ (by decide) (by decide) (by decide +kernel) (Prod.ext rfl (by decide +kernel)), rfl, rfl, by decide⟩,
    ⟨rfl, rfl, by decide, rfl, cxl_served _ _ (by decide +kernel) (Prod.ext rfl (by decide +kernel))⟩,
    ⟨rfl, rfl, _, rfl, rfl, ⟨_, _, rfl⟩, ⟨_, _, rfl⟩⟩,
    ⟨ask_served _ 1 4 _ (by decide) (by decide) (by decide +kernel) (Prod.ext rfl (by decide +kernel)), rfl, by decide, by decide⟩,
    ⟨ask_served _ 2 4 _ (by decide) (by decide) (by decide +kernel) (Prod.ext rfl (by decide +kernel)), rfl, by decide, by decide⟩,
    ⟨by decide +kernel, ask_ok _ _ 3 _ (by decide) (by decide), rfl⟩,
    ⟨rfl, rfl, ask_ok _ _ 3 4 (by decide) (by decide), rfl, by decide, rfl, ⟨_, rfl⟩⟩⟩

/-- A request at a served port that reads poison, and one that does not; a packet of a delivery that waits at the ports,
and one that they have served. -/
theorem witness_PeerRequests_served :
    (let s := takenS (askBody 4 0)
     let q : OwnerReq := { id := 9, packet := askP (askBody 4 0), pa := 0x40005000, die := 0, tenant := 0, va := 0x5000 }
     s.fab.inbox.find? (fun q => q.id = s.input.sub) = some q ∧ s.queued q.id = false ∧ s.poisonAt q.pa = false ∧
       s.input.check ≠ .fail ∧ ({ s.input with check := .fail } : Input).check = .fail) ∧
    (let s := askS { Parcels.reset with table := [parcel0], deliveries := [delivery0] } (askBody 4 0)
     let u : State := { s.markDirty 0 (0x100000 + (0 - 0)) 4 with nextId := s.nextId + 1 }
     (match s.hubXlat 0 (0x100000 + (0 - 0)) .write with
      | .ok pa => (u.enqueueAll 0 s.nextId (spanLines64 [(pa, 4)])).queued s.nextId
      | _ => false) = true) ∧
    (∀ n : Fin 2,
     let p := askP (askBody 4 0)
     let d := { delivery0 with queue := [(9, 0x40100000, p)], done := 8188 * n }
     let s := { eventS { Input.none with ok := true, sub := 9, third := 3 } with
                parcels := { Parcels.reset with table := [parcel0], deliveries := [d] } }
     s.input.size ≠ 1 ∧ s.receiving (fun d => decide (d.entry = s.input.third)) = some d ∧
       d.queue.find? (fun x => x.1 = s.input.sub) = some (s.input.sub, 0x40100000, p) ∧ s.queued s.input.sub = false ∧
       s.freeGranule 0x40100000 = false ∧ (d.done + leAt p.body 0 2 < d.length ↔ n = 0) ∧
       s.parcels.table.find? (fun q => q.id = d.entry) = some parcel0) :=
  ⟨⟨rfl, rfl, by decide, by decide, rfl⟩, by decide +kernel, fun
    | 0 | 1 => ⟨by decide, rfl, rfl, rfl, by decide, by decide, rfl⟩⟩

/-- A slot and a ticket that hold a request of 4 bytes, and its access. -/
def slot0 : Slot := { bank := 0, access := 5, ticket := none, req := req0, op := 1, sent := 0, pos := 0, held := false }
def acc1 : Access := { acc0 with reqs := [req0] }
def tkt0 (st : TktState) : Ticket := { state := st, access := 5, req := req0, owner := 2, ownerInc := 0, number := 9, tkind := 0 }

/-- Bank 0 with an access outstanding, and a slot of core 0 that holds its request. -/
def remS (o : Outstanding) (i : Input) : State :=
  let s := bankS .c { liveB with out := { o with acc := [acc1] } }
  { s with input := i, cores := [(0, { Machine.Core.reset with slots := [(0, slot0)] })] }

/-- Parcels with one delivery that bank 0 has posted. -/
def sentPs (st : ParcelState) : Parcels :=
  { Parcels.reset with table := [{ parcel0 with state := st }], deliveries := [{ delivery0 with sender := some (0, 2) }] }

theorem witness_RequestEnds :
    (∀ code : Fin 4,
     let s := remS Outstanding.none { Input.none with packet := { Packet.zero with addr := code } }
     SlotNamed s slot0 ∧ bitsOf s.input.packet.addr 7 0 = code ∧
       (s.bank slot0.bank).out.acc.find? (fun a => a.id = slot0.access) = some acc1 ∧
       (acc1.reqs ++ acc1.unsent).contains slot0.req = true) ∧
    (let s := { remS Outstanding.none (about 0) with time := 2 ^ 40 }
     s.input.who = 0 ∧ s.input.sub = 0 ∧ s.input.size ≠ 1 ∧
       (s.core 0).slots.find? (fun x => x.1 = 0) = some (0, slot0) ∧
       s.timeoutUs * 1000000 ≤ s.time - slot0.sent ∧ slot0.op ≠ 5 ∧
       (s.bank slot0.bank).out.acc.find? (fun a => a.id = slot0.access) = some acc1) ∧
    (let p := { Packet.zero with source := 2, body := [9, 0, 2] }
     let s := remS { Outstanding.none with tkt := [(0, tkt0 .wait)] } { Input.none with packet := p }
     s.responseOk s.input.packet = true ∧ (s.bank 0).ticketOf p.source (leAt p.body 0 2) = some 0 ∧
       (s.bank 0).out.tkt.find? (fun x => x.1 = 0) = some (0, tkt0 .wait) ∧
       noticeReserved p.body = true ∧ leAt p.body 2 1 = 2 ∧
       (s.bank 0).out.acc.find? (fun a => a.id = (tkt0 .wait).access) = some acc1 ∧
       (acc1.reqs ++ acc1.unsent).contains (tkt0 .wait).req = true) ∧
    (let r : Retry := { id := 4, bank := 0, access := 5, req := req0, ticket := none, at_ := 0 }
     let s := { remS Outstanding.none { Input.none with sub := 4 } with fab := { Fabric.reset with retries := [r] } }
     s.fab.retries.find? (fun r => r.id = s.input.sub) = some r ∧ r.at_ ≤ s.time ∧
       (s.slotFor r.bank).isSome = true) ∧
    (let s := remS { Outstanding.none with tkt := [(3, tkt0 .shadow)] } { about 0 with sub := 3 }
     s.input.who = 0 ∧ s.input.sub = 3 ∧ (s.bank 0).out.tkt.find? (fun x => x.1 = 3) = some (3, tkt0 .shadow) ∧
       (tkt0 .shadow).state = .shadow ∧ (s.bank 0).olderOnLine (tkt0 .shadow).access (tkt0 .shadow).req = false ∧
       s.shadowReady 0 (tkt0 .shadow).access = true ∧ (s.slotFor 0).isSome = true) ∧
    (let d := { delivery0 with sender := some (0, 2) }
     let s := { remS Outstanding.none { Input.none with packet := { Packet.zero with body := leBytes 8 0x10000 } } with parcels := sentPs .inTransit }
     s.responseOk s.input.packet = true ∧
       s.parcels.deliveries.find? (fun d => d.sender.isSome && decide (d.handle = leAt s.input.packet.body 0 8 ∧
         d.peer = s.input.packet.source)) = some d ∧
       s.parcels.table.find? (fun p => p.id = d.entry) = some { parcel0 with state := .inTransit } ∧
       d.sender = some (0, 2)) ∧
    (let d := { delivery0 with sender := some (0, 2) }
     let s := { remS Outstanding.none { Input.none with sub := 3 } with parcels := sentPs .bounced }
     s.parcels.table.find? (fun p => p.id = s.input.sub) = some { parcel0 with state := .bounced } ∧
       s.parcels.deliveries.find? (fun d => d.sender.isSome && decide (d.entry = s.input.sub)) = some d ∧
       d.sender = some (0, 2)) :=
  ⟨fun
     | 0 | 1 | 2 | 3 => ⟨⟨rfl, by decide, by decide, by decide, rfl, rfl, by decide⟩, rfl, rfl, by decide⟩,
   ⟨rfl, rfl, by decide, rfl, by decide, by decide, rfl⟩, ⟨rfl, rfl, rfl, by decide, rfl, rfl, by decide⟩,
   ⟨rfl, by decide, rfl⟩, ⟨rfl, rfl, rfl, rfl, rfl, rfl, rfl⟩, ⟨rfl, rfl, rfl, rfl⟩, ⟨rfl, rfl, rfl⟩⟩

/-- A fabric copy that awaits a response, and one that holds a ticket. -/
theorem witness_RequestEnds_copies :
    ∀ st ∈ [CopyState.sent, .ticket],
      let c : CopyReq :=
        { peer := 2, off := 0, token := 0, size := 64, inc := 0, state := st, at_ := 0, data := [], number := 9 }
      let j := { svcJob with work := { JobWork.none with copy := some c } }
      let p := { Packet.zero with source := 2, core := 512, slot := 3, body := [9, 0, 2] }
      let s := { eventS { Input.none with packet := p } with
                 svc := { Services.reset with inst := [(4 * 4096, { Inst.empty with jobs := [j] })] } }
      s.responseOk p = true ∧ 512 ≤ p.core ∧ bitsOf p.addr 7 0 ≤ 4 ∧ bitsOf p.addr 15 10 = 0 ∧ bitsOf p.addr 63 32 = 0 ∧
        noticeReserved p.body = true ∧
        (st = .sent → s.copyFor p.core (fun j c => decide (c.state = .sent ∧ c.peer = p.source ∧ j.slotByte = p.slot)) =
          some (4 * 4096, j, c)) ∧
        (st = .ticket → s.copyFor p.core (fun _ c => decide (c.state = .ticket ∧ c.peer = p.source ∧
          c.number = leAt p.body 0 2)) = some (4 * 4096, j, c)) := by decide +kernel

/-- A write of four bytes that is applied on some dies. -/
def write0 (scr : Bool) (dies : List Nat) : Write :=
  { WriteTag.make { WriteTag.other 0 with scr := scr } 5 0x5000 [1, 2, 3, 4] with dies := dies, ord := if dies = [] then none else some 0 }

/-- A running module with that write in flight. -/
def writeS (w : Write) (e : Nat) : State := { eventS { about e with sub := 5 } with writes := [w] }

theorem witness_WritesAndGrants :
    (let w := write0 true []
     let s := writeS w 0
     s.input.who = 0 ∧ s.writes.find? (fun u => u.id = s.input.sub) = some w ∧ s.mayApply w 0 = true ∧
       s.fab.answers = [] ∧ w.scr = true) ∧
    (let w := write0 false [0, 1, 2, 3]
     let s := writeS w 4
     s.input.who = 4 ∧ s.writes.find? (fun u => u.id = s.input.sub) = some w ∧ s.mayApply w 4 = true ∧
       s.fab.answers = [] ∧ w.scr = false ∧ s.freeGranule w.addr = false ∧ w.isModuleRelease = false ∧
       ∀ d ∈ s.allDies, d = 4 ∨ d ∈ w.dies) ∧
    (let w := { write0 false [] with writer := .ctl 0 }
     let s := { writeS w 0 with power := { Power.reset with free := (List.range 4).map (fun d => (d * 2 ^ 18, true)) } }
     s.writes.find? (fun u => u.id = s.input.sub) = some w ∧ s.mayApply w 0 = true ∧ w.scr = false ∧ w.bytes ≠ [] ∧
       s.freeGranule w.addr = true) ∧
    (let w := write0 false []
     let s := writeS w 0
     s.input.who = 0 ∧ s.writes.find? (fun u => u.id = s.input.sub) = some w ∧ s.mayApply w 0 = true ∧
       w.scr = false ∧ s.freeGranule w.addr = false ∧ w.isModuleRelease = false ∧ ∃ d ∈ s.allDies, d ≠ 0 ∧ d ∉ w.dies) ∧
    (let s := eventS { about 7 with value := 1 }
     s.input.value.toNat % 65536 = 1 ∧ 7 ≠ s.boot.moduleNo ∧ s.hubReg (offPEERINC 7) ≠ 1) ∧
    (eventS (about 0)).input.who = (eventS (about 0)).boot.moduleNo ∧
    (let v := (eventS { about 0 with value := BitVec.ofNat 128 window0 }).input.value.toNat / 2 ^ 64 * 2 ^ 64
     gwinValid v = true) ∧
    (∀ d ∈ Parcels.reset.deliveries, d.sender.isSome = true) := by decide +kernel

/-- A module release that reaches a free granule. -/
theorem witness_WritesAndGrants_lost :
    let w := { write0 false [] with rel := some 4 }
    let s := { writeS w 0 with power := { Power.reset with free := (List.range 4).map (fun d => (d * 2 ^ 18, true)) } }
    s.writes.find? (fun u => u.id = s.input.sub) = some w ∧ s.mayApply w 0 = true ∧ w.bytes ≠ [] ∧
      s.freeGranule w.addr = true ∧ w.isModuleRelease = true := by decide +kernel

/-- A running module whose interface 0 stands like this, in service with a memory window of 1 GiB over the first one of
tenant 0. -/
def viS (v : Vi) (i : Input) : State :=
  let s := paged (leafOf 0) (eventS i)
  { s with hub := (offVICFG 0, 2 ^ 127 + 30 * 2 ^ 79) :: s.hub, host := { HostIf.reset with vis := [(0, v)] } }

/-- An interface whose completion area is on and whose vectors are unmasked; with `n` entries not consumed. -/
def onV (n : Nat) : Vi := { Vi.reset with cqCtl := 2 ^ 31, unread := n, masked := [] }

theorem witness_HostInterface :
    (∀ n ∈ [0, 63],
     let s := viS (onV n) { about 0 with data := List.replicate 64 0 }
     s.input.who = 0 ∧ s.input.third ≠ 1 ∧ s.launchTaken 0 s.input.sub s.input.data = true ∧
       ((s.ifc 0).free - (s.ifc 0).reserved < 2 ↔ n = 63) ∧ (s.ifc 0).waits = [] ∧ (s.ifc 0).stuck = false ∧
       (s.ifc 0).posted = []) ∧
    (let s := viS (onV 0) { about 0 with data := List.replicate 60 0 }
     s.launchTaken 0 s.input.sub s.input.data = false ∧ (s.ifc 0).masked.contains 63 = false ∧
       (s.ifc 0).dropped < 0xFFFF) ∧
    (let s := viS { onV 0 with dropped := 0xFFFF } { about 0 with data := List.replicate 60 0 }
     s.launchTaken 0 s.input.sub s.input.data = false ∧ 0xFFFF ≤ (s.ifc 0).dropped) ∧
    (∀ x ∈ [0x7000, 0x8000, 0x8018],
     let s := viS Vi.reset { about 0 with third := 1, sub := x, size := 8 }
     s.input.third = 1 ∧ (s.input.sub + s.input.size ≤ 0x8000 ↔ x = 0x7000) ∧
       (s.input.sub + s.input.size ≤ 0x8014 ∨ 0x8018 ≤ s.input.sub)) ∧
    (∀ v ∈ [0, 2 ^ 31],
     let s := viS Vi.reset { about 0 with value := BitVec.ofNat 128 v }
     (bitAt (s.input.value.toNat &&& 0x80007E0F) 31 = true ↔ v = 2 ^ 31) ∧ (s.ifc 0).cqOn = false) ∧
    (let s := viS Vi.reset { about 0 with sub := 0x100, size := 8 }
     let u := s.updIfc 0 (fun v => { v with waits := [.read s.input.sub 8] })
     s.input.size = 8 ∧ s.input.sub + 8 ≤ viMsize (s.hubReg (offVICFG 0)) ∧ (s.ifc 0).waits = [] ∧
       (s.ifc 0).stuck = false ∧ (s.ifc 0).posted = [] ∧
       (u.hostXlat 0 .read [] (granuleSpans 8 (viMbase (s.hubReg (offVICFG 0)) + s.input.sub) 8)).2 =
         .ok [(0x40000100, 8)]) ∧
    (let s := viS Vi.reset { about 0 with sub := 0x200, data := List.replicate 8 1 }
     let u := s.updIfc 0 (fun v => { v with waits := [.write s.input.sub s.input.data] })
     s.input.sub + 8 ≤ viMsize (s.hubReg (offVICFG 0)) ∧
       (u.hostXlat 0 .write [] (granuleSpans 8 (viMbase (s.hubReg (offVICFG 0)) + s.input.sub) 8)).2 =
         .ok [(0x40000200, 8)]) ∧
    (let s := { eventS (about 3) with boot := { Boot.reset with capability := List.replicate 128 0 } }
     s.input.who = 3 ∧ s.boot.capability.length = 128) := by decide +kernel

/-- A read of the memory window whose page's ports take it in, and one that they have served. -/
theorem witness_HostInterface_reads :
    (let s := viS Vi.reset { about 0 with sub := 0x100, size := 8 }
     let u := s.updIfc 0 (fun v => { v with waits := [.read s.input.sub 8] })
     let w := (u.hostXlat 0 .read [] (granuleSpans 8 (viMbase (s.hubReg (offVICFG 0)) + s.input.sub) 8)).1
     (w.askPorts 0 [(0x40000100, 8)]).queued w.nextId = true) ∧
    (let s := viS { Vi.reset with waits := [.reading 9 [(0x40000100, 8)]] } { about 0 with third := 1 }
     s.input.who = 0 ∧ s.input.third = 1 ∧ (s.ifc 0).stuck = false ∧
       (s.ifc 0).waits = [.reading 9 [(0x40000100, 8)]] ∧ s.queued 9 = false) := by decide +kernel

/-- A running module whose interface 0 has received this request. -/
def spdmS (q : List Byte) : State := viS Vi.reset { about 0 with data := q }

/-- Requests that each clause is about: algorithms, a certificate of slot 0 and of another, a challenge of either, and
the measurements that are answered and not. -/
theorem witness_Attestation :
    (leAt (spdmS (List.replicate 8 0 ++ [0x80, 0, 0, 0])).input.data 8 4 &&& 0x80 = 0x80) ∧
    (leAt (spdmS [0, 0, 0]).input.data 2 1 % 16 = 0 ∧ leAt (spdmS [0, 0, 0]).input.data 2 1 = 0) ∧
    (leAt (spdmS [0, 0, 1]).input.data 2 1 % 16 ≠ 0 ∧ leAt (spdmS [0, 0, 1]).input.data 2 1 ≠ 0) ∧
    (leAt (spdmS [0, 0, 1, 0xFF]).input.data 2 1 % 2 = 1 ∧ leAt (spdmS [0, 0, 1, 0xFF]).input.data 3 1 = 0xFF) ∧
    (leAt (spdmS [0, 0, 0, 0xFF]).input.data 2 1 % 2 = 0) := by decide

/-- A pre-copy job in a phase. -/
def precopy0 (ph : MigPhase) (begun : Bool) : Precopy :=
  { job := 0, phase := ph, threshold := 4, limit := 3, round := 1, begun := begun, reported := 0, todo := [], key := 0, count := 0, stopped := [],
    parked := [], sent := false, parcels := [] }

/-- A running module in which that job of interface 0 is under way. -/
def migS (p : Precopy) : State := viS { onV 0 with precopy := some p } (about 0)

theorem witness_Migration :
    (∀ ok : Bool, let s := viS Vi.reset { about 0 with ok := ok }
     s.input.who = 0 ∧ s.input.ok = ok ∧ (s.ifc 0).noPrecopy = true) ∧
    (let s := migS (precopy0 .rounds false)
     s.input.who = 0 ∧ (s.ifc 0).precopy = some (precopy0 .rounds false) ∧ (precopy0 .rounds false).sends = true ∧
       s.input.list = [] ∧ (precopy0 .rounds false).begun = false ∧ ∃ u gs, s.snapAll 0 = some (u, gs)) ∧
    (let x : Session := { job := 0, key := 0, resend := [] }
     let s := viS { Vi.reset with session := some x } { about 0 with granule := { Input.none.granule with va := 0x5000 } }
     s.input.who = 0 ∧ s.input.size ≠ 1 ∧ s.input.size ≠ 2 ∧ (s.ifc 0).session = some x ∧
       (s.translate none false 0 (s.input.granule.va / 4096 * 4096) .write).2 = .phys 0x40005000 0) ∧
    (∀ k : Fin 3,
     let p := { precopy0 (if k = 2 then .final else .rounds) true with reported := if k = 1 then 5 else 0 }
     let s := migS p
     (s.ifc 0).precopy = some p ∧ p.begun = true ∧ p.todo = [] ∧
       (k = 0 → p.phase = .rounds ∧ p.reported ≤ p.threshold) ∧ (k = 1 → p.threshold < p.reported ∧ p.round < p.limit) ∧
       (k = 2 → p.phase = .final ∧ p.sent = false)) ∧
    (let p := { precopy0 .final true with sent := true }
     (migS p).input.who = 0 ∧ ((migS p).ifc 0).precopy = some p ∧ p.phase = .final ∧ p.sent = true) ∧
    (let s := migS (precopy0 .stopping false)
     (s.ifc 0).precopy = some (precopy0 .stopping false) ∧ (precopy0 .stopping false).phase = .stopping ∧ s.openGroups 0 = []) ∧
    (let s := migS (precopy0 .final false)
     (s.ifc 0).precopy = some (precopy0 .final false) ∧ (precopy0 .final false).phase = .final ∧ (s.ifc 0).cqOn = true) := by
  refine ⟨by decide, ⟨rfl, rfl, rfl, rfl, rfl, ⟨_, _, rfl⟩⟩, ⟨rfl, by decide, by decide, rfl, by decide +kernel⟩,
    by decide +kernel, ⟨rfl, rfl, rfl, rfl⟩, ⟨rfl, rfl, rfl⟩, ⟨rfl, rfl, rfl⟩⟩

/-- A session that receives the tenant's context key. -/
theorem witness_Migration_key :
    let x : Session := { job := 0, key := 0, resend := [] }
    let s := viS { Vi.reset with session := some x } { about 0 with size := 2, ok := true }
    s.input.who = 0 ∧ s.input.size = 2 ∧ s.input.ok = true ∧ (s.ifc 0).session = some x := ⟨rfl, rfl, rfl, rfl⟩

/-- A launch record of one task a core: cores a cluster, clusters, priority, flags and ETA. -/
def record0 (c l prio flags eta : Nat) : List Byte :=
  leBytes 8 0x1000 ++ leBytes 4 1 ++ leBytes 8 0 ++ leBytes 4 (1 + 2 ^ 8 * c + 2 ^ 16 * l + 2 ^ 24) ++ leBytes 1 prio ++ leBytes 1 0 ++
    leBytes 2 flags ++ leBytes 8 eta ++ leBytes 8 0 ++ leBytes 2 1 ++ leBytes 2 1 ++ leBytes 16 0

/-- A launch of bank 0's. -/
def launch0 (r : List Byte) : Launch := { asker := .bank 0, vi := 0, window := 0, seq := 0, record := r, job := 0, ac := 0 }

/-- A group with identifier 7 on these banks. -/
def group7 (r : List Byte) (bs : List Nat) (how : Leave) : Group :=
  { (launch0 r).group 7 bs [] none with leave := how, text := [encode .pwrRel], loaded := true }

/-- A bank of that group. -/
def bank7 (st : BankStatus) : Bank :=
  let p := { Bank.idle.place with group := 7 }
  { Bank.idle with status := st, place := p }

/-- A module with the launch before the Chanter, its interface 0 in the four-device view with 256 cores and priority 7. -/
def chanterS (r : List Byte) (gs : KV Group) (idle : KV Bool) (bs : KV Bank) : State :=
  let c := { Chanter.reset with queue := [launch0 r], groups := gs, idle := idle }
  { viS (onV 0) Input.none with hub := [(offVICFG 0, 2 ^ 127 + 2 * 2 ^ 125 + 256 * 2 ^ 115 + 7 * 2 ^ 112)], chanter := c, banks := bs }

/-- What the Chanter decides such a launch by: the first check that fails, and the cost and victims of the plan. -/
def decides (s : State) (r : List Byte) : Nat × Option (Nat × Nat) :=
  let l := launch0 r
  let u := s.leaveChanter l
  (u.launchCheck l (u.launchDies l), (u.plan l.record (u.launchDies l)).map (fun p => (p.cost, p.victims.length)))

/-- A launch whose record is no record; one for which there is no room; one that a victim of cost 4 makes room for; one
that fits. A drain that is over time, a watchdog that has run out, and a group that is saved. -/
theorem witness_ChanterDecides :
    (chanterS [] [] [] []).chanter.queue = [launch0 []] ∧ (launch0 []).asker = .bank 0 ∧
    (chanterS [] [] [] []).launchesIn 0 = true ∧
    (decides (chanterS [] [] [] []) []).1 = 1 ∧
    (let r := record0 8 16 1 0 0
     decides (chanterS r [] [(0, false), (1, false)] []) r = (0, none)) ∧
    (let r := record0 8 16 1 0 0
     let g := group7 (record0 1 1 0 2 (2 ^ 64 - 1)) [0, 1] .stay
     let s := chanterS r [(7, g)] [(0, false), (1, false)] [(0, bank7 .placed), (1, bank7 .placed)]
     decides s r = (0, some (4, 1)) ∧ recTokens r < 4) ∧
    (let r := record0 1 1 0 0 0
     decides (chanterS r [] [] []) r = (0, some (0, 0))) ∧
    (let g := group7 (record0 1 1 0 1 0) [0] .drain
     let c := { Chanter.reset with groups := [(7, g)] }
     ∀ slots : Fin 2,
     let s := { eventS { Input.none with sub := 7 } with
                chanter := c, banks := [(0, bank7 .live)], hub := [(offCHSAVE, slots)], time := 50000000 }
     s.group s.input.sub = some g ∧ g.id = s.input.sub ∧ g.leave = .drain ∧ g.closed = false ∧ g.late = false ∧
       bitsOf (s.hubReg offCHCFG) 15 0 * 1000000 ≤ s.time - g.since ∧ s.canCheckpoint g = decide (slots = 1)) ∧
    (∀ how ∈ [Leave.stay, Leave.kill],
     let g := group7 (record0 1 1 0 1 0) [0] how
     let c := { Chanter.reset with groups := [(7, g)] }
     let B := { bank7 .live with n := { AcCounts.zero with watchdog := 2 ^ 26 } }
     let s := { eventS (about 0) with chanter := c, banks := [(0, B)] }
     s.input.who = 0 ∧ (s.bank 0).status = .live ∧ isSys 0 = false ∧ (s.bank 0).watchLimit ≤ (s.bank 0).n.watchdog ∧
       s.group (s.bank 0).place.group = some g ∧ g.leave = how) ∧
    (let g := group7 (record0 1 1 0 1 0) [0] .checkpoint
     let c := { Chanter.reset with groups := [(7, g)] }
     let s := { eventS { Input.none with sub := 7 } with chanter := c, banks := [(0, bank7 .stopped)], hub := [(offCHSAVE, 1)] }
     s.group s.input.sub = some g ∧ g.id = s.input.sub ∧ s.canSave g = true ∧ s.held g = [0]) := by decide +kernel

/-- A context record of one header, with its tag under the key of interface 0. -/
def context0 : List Byte :=
  List.replicate 32 0 ++ (leBytes 16 (Config.gmac (Config.contextKey 0) (List.replicate 64 0)).toNat ++ List.replicate 16 0)

/-- Bytes give back the number that they hold. -/
theorem ofLe_le (n v : Nat) : ofLeBytes (leBytes n v) = v % 256 ^ n := by
  induction n generalizing v with
  | zero => simp [leBytes, ofLeBytes, Nat.mod_one]
  | succ n ih =>
    simp only [leBytes, ofLeBytes, ih, BitVec.toNat_ofNat, Nat.pow_succ, Nat.mul_comm (256 ^ n) 256, Nat.mod_mul,
      show 2 ^ 8 = 256 from rfl]

theorem context0_tag : Machine.tagOk (Config.contextKey 0) context0 = true := by
  have h1 : leAt context0 32 16 = ofLeBytes (leBytes 16 (Config.gmac (Config.contextKey 0) (List.replicate 64 0)).toNat) := rfl
  have h2 : context0.take 32 ++ List.replicate 16 0 ++ context0.drop 48 = List.replicate 64 0 := rfl
  simp only [Machine.tagOk, h1, h2, ofLe_le, decide_eq_true_eq]
  exact Nat.mod_eq_of_lt (Config.gmac (Config.contextKey 0) (List.replicate 64 0)).isLt

/-- A context record of group 7 in the four-device view, of one task, with its launch record. -/
def context1 (version seq cap : Nat) : List Byte :=
  leBytes 4 magicFCTX ++ leBytes 2 version ++ leBytes 2 0 ++ leBytes 8 cap ++ leBytes 8 192 ++ leBytes 8 seq ++
    List.replicate 16 0 ++ leBytes 8 7 ++ leBytes 4 0 ++ [1, 1, 1, 1] ++
    (leBytes 2 11 ++ List.replicate 6 0 ++ leBytes 8 64 ++ record0 1 1 0 1 0) ++ List.replicate 48 0

/-- A module with that record at 0x8000 and a write of go that names it; with some dies fenced. -/
def restoreS (version seq cap : Nat) (fenced : List Nat) : State :=
  { eventS { Input.none with value := 0x8001 } with
    mem := Memory.writeN [] 0x8000 (context1 version seq cap)
    boot := { Boot.reset with fenced := fenced } }

/-- What a restore of that record goes by: version, sequence, what the module offers, and the placement. -/
def restores (version seq cap : Nat) (fenced : List Nat) : Option (Bool × Bool × Bool × Option (List Nat)) :=
  let s := restoreS version seq cap fenced
  let v := s.input.value.toNat
  let u := s.setHub offCHRST (putBits (putBits (putBits 0 63 56 (bitsOf v 63 56)) 51 6 (bitsOf v 51 6)) 55 52 1)
  (u.groupRecords (bitsOf v 51 6 * 64)).map (fun rs =>
    let h := rs.headD []
    let shaped := (sectionOf h 11).take 20 ++ leBytes 4 (leAt h 60 4) ++ (sectionOf h 11).drop 24
    (rs.all (fun r => decide (leAt r 4 2 = 1)),
     rs.all (fun r => decide (KV.get 0 s.chanter.restored (leAt h 48 8) < leAt r 24 8)),
     rs.all (fun r => u.offers (leAt r 8 8)), u.restorePlan (bitsOf (leAt h 8 8) 6 5) shaped))

/-- Another version, a sequence number that is not above the last, a capability the module lacks, no die with idle banks; and
a record that is restored to bank 0. -/
theorem restores_table :
    (restores 2 1 0x40 []).map (·.1) = some false ∧ (restores 1 0 0x40 []).map (·.2.1) = some false ∧
    (restores 1 1 0x41 []).map (fun x => (x.1, x.2.1, x.2.2.1)) = some (true, true, false) ∧
    restores 1 1 0x40 [0, 1, 2, 3] = some (true, true, true, none) ∧
    restores 1 1 0x40 [] = some (true, true, true, some [0]) :=
  ⟨by decide +kernel, by decide +kernel, by decide +kernel, by decide +kernel, by decide +kernel⟩

/-- A module with group 7 on bank 0, which is at a status. -/
def lifeS (st : BankStatus) (i : Input) : State :=
  let g := group7 (record0 1 1 0 1 0) [0] .stay
  let c := { Chanter.reset with groups := [(7, g)] }
  { eventS i with chanter := c, banks := [(0, bank7 st)] }

/-- An access that waits at a port. -/
def port0 : PortReq := { tenant := 0, id := 4, channel := 13 }

theorem witness_TaskLife :
    (let s := lifeS .placed (about 0)
     let g := group7 (record0 1 1 0 1 0) [0] .stay
     s.input.who = 0 ∧ s.group (s.bank 0).place.group = some g ∧ (s.bank 0).status = .placed ∧ g.closed = false ∧
       s.windowFits 0 = true ∧ s.releasedLaunch g = true ∧ s.hasFaulter (.loader g.id) = false ∧
       s.chanter.restore = none ∧ g.loaded = true) ∧
    (let s := lifeS .filled (about 0)
     s.input.who = 0 ∧ (s.bank 0).status = .filled ∧ (s.bank 0).quiet = true) ∧
    (let s := lifeS .live (about 0)
     s.input.who = 0 ∧ s.taskDone 0 = true) ∧
    (let s := lifeS .ended (about 0)
     s.input.who = 0 ∧ (s.bank 0).status = .ended ∧ s.keeper 0 = none) ∧
    (∀ k : Fin 3,
     let s := { eventS { Input.none with value := if k = 0 then 0 else 1 } with hub := [(offCHRST, if k = 1 then 2 ^ 52 else 0)] }
     let v := s.input.value.toNat
     let u := s.setHub offCHRST (putBits (putBits (putBits 0 63 56 (bitsOf v 63 56)) 51 6 (bitsOf v 51 6)) 55 52 1)
     (bitAt v 0 = true ↔ k ≠ 0) ∧ (bitsOf (s.hubReg offCHRST) 55 52 = 1 ↔ k = 1) ∧
       u.groupRecords (bitsOf v 51 6 * 64) = none) ∧
    (bitAt (restoreS 1 1 0x40 []).input.value.toNat 0 = true ∧
      bitsOf ((restoreS 1 1 0x40 []).hubReg offCHRST) 55 52 ≠ 1 ∧
      (restores 2 1 0x40 []).map (·.1) = some false ∧ (restores 1 0 0x40 []).map (·.2.1) = some false ∧
      (restores 1 1 0x41 []).map (fun x => (x.1, x.2.1, x.2.2.1)) = some (true, true, false) ∧
      restores 1 1 0x40 [0, 1, 2, 3] = some (true, true, true, none) ∧
      restores 1 1 0x40 [] = some (true, true, true, some [0])) ∧
    (let g := group7 (record0 1 1 0 1 0) [0] .stay
     let s := lifeS .placed { Input.none with ok := true }
     let t := { s with chanter := { s.chanter with restore := some (7, [context0]) } }
     t.chanter.restore = some (7, [context0]) ∧ t.group 7 = some g ∧ g.closed = false ∧ t.input.ok = true ∧
       [context0].all sectionsKnown = true ∧ [context0].all (Machine.tagOk (t.contextKey g.vi)) = true) :=
  ⟨by decide, by decide, by decide, by decide, by decide +kernel,
   ⟨by decide +kernel, by decide +kernel, restores_table⟩,
   rfl, rfl, rfl, rfl, rfl, (Bool.and_eq_true _ _).mpr ⟨context0_tag, rfl⟩⟩

/-- A bank whose group's text is read, and one whose group's next part waits at the ports. -/
theorem witness_TaskLife_text :
    ∀ n ∈ [0, 1],
      let g := { group7 (record0 1 1 0 1 0) [0] .stay with
                 text := if n = 0 then [encode .pwrRel] else [], loaded := false, reading := if n = 0 then none else some (4, 0) }
      let s := { lifeS .placed (about 0) with
                 chanter := { Chanter.reset with groups := [(7, g)] }
                 svc := { Services.reset with ports := [(3, [port0])] } }
      s.input.who = 0 ∧ s.group (s.bank 0).place.group = some g ∧ s.group g.id = some g ∧ (s.bank 0).status = .placed ∧
        g.closed = false ∧ s.windowFits 0 = true ∧ s.releasedLaunch g = true ∧ s.hasFaulter (.loader g.id) = false ∧
        s.chanter.restore = none ∧ (g.nextText.2 = 0 ↔ n = 0) ∧ s.queued 4 = true := by decide +kernel

/-- A ring register; a core whose tenant has a share of two positions; a quad that an access in flight reaches, and one
that none does; a port in the middle of its round. -/
theorem witness_SlotTables :
    (let s := eventS { Input.none with sub := 0x8000000 + 0x1000 * 3 + 0x100 * 7 + 8 * 31 }
     s.input.sub = offRSLOT 3 7 31) ∧
    (let s := { bankS .c liveB with input := about 0, hub := [(offADMVI 0, 2)] }
     s.input.who = 0 ∧ (s.ownedBy 0).length = 0 ∧ s.shareOf 0 = 2 ∧ 2 ≤ (s.unownedOn (0 / 128)).length) ∧
    (let s := writeS (write0 false []) 0
     let old := s.hubReg (offQMODE 0)
     s.input.who = 0 ∧ s.input.ok = false ∧ s.svc.modes = [] ∧ s.quadBusy 0 old (s.qmodeValue old s.input.value.toNat) = true) ∧
    (let s := eventS (about 0)
     let old := s.hubReg (offQMODE 0)
     s.quadBusy 0 old (s.qmodeValue old s.input.value.toNat) = false) ∧
    (let s := { eventS (about 3) with svc := { Services.reset with slot := [(3, 1)], ports := [(3, [port0])] } }
     s.input.who = 3 ∧ KV.get 0 s.svc.slot 3 = 1 ∧ KV.get [] s.svc.ports 3 = [port0]) := by decide +kernel

/-- A write of QMODE behind one that waits. -/
theorem witness_SlotTables_waiting :
    let s := { writeS (write0 false []) 1 with svc := { Services.reset with modes := [(0, 0)] } }
    s.svc.modes = (0, 0) :: [] ∧ s.input.ok = false ∧
      s.quadBusy 0 (s.hubReg (offQMODE 0)) (s.qmodeValue (s.hubReg (offQMODE 0)) 0) = true := by decide +kernel

/-- A module whose cluster 0 stands like this at 10 us, with PCLUS at step code, fmax code and auto. -/
def powerS (c : Cluster) (step fmax auto : Nat) : State :=
  { eventS (about 0) with time := 10000000, power := { Power.reset with clusters := [(0, c)] }, hub := [(offPCLUS 0, step * 2 ^ 25 + fmax * 2 ^ 20 + auto)] }

/-- The frequency, the cap, the stall ratio and whether auto is set. -/
def sample (s : State) : Nat × Nat × Nat × Bool := (s.mhz 0, s.fcap 0, (s.cluster 0).ratio, bitAt (s.hubReg (offPCLUS 0)) 0)

/-- Samples that lower, stay, lower, raise and stay; steps that are done; droops and the end of a stretch. -/
theorem witness_PowerControl :
    (let s := powerS Cluster.reset 12 8 1
     s.input.who = 0 ∧ (s.cluster 0).ctl = .steady ∧ 10000000 ≤ s.time - (s.cluster 0).since ∧
       sample s = (600, 500, 256, true)) ∧
    sample (powerS Cluster.reset 12 12 0) = (600, 600, 256, false) ∧
    (sample (powerS Cluster.reset 12 12 1) = (600, 600, 256, true) ∧
      bitsOf ((powerS Cluster.reset 12 12 1).hubReg offPWRCFG) 31 24 ≤ 256) ∧
    (let s := powerS { Cluster.reset with live := 100 } 12 16 1
     sample s = (600, 700, 0, true) ∧ 0 < bitsOf (s.hubReg offPWRCFG) 31 24 ∧ s.voltTarget 0 (s.stepCode 0 + 1) = some 767) ∧
    (let s := powerS { Cluster.reset with live := 256, stalled := 100 } 12 12 1
     sample s = (600, 600, 100, true) ∧ bitsOf (s.hubReg offPWRCFG) 23 16 < 100 ∧ 100 < bitsOf (s.hubReg offPWRCFG) 31 24) ∧
    (∀ k ∈ [CtlState.vup, CtlState.vdn, CtlState.fup, CtlState.fdn], ∀ off : Bool,
     let s := powerS { Cluster.reset with ctl := k, stopped := off } 12 12 1
     s.input.who = 0 ∧ (s.cluster 0).stopped = off ∧ 2000000 ≤ s.time - (s.cluster 0).stepAt ∧ (s.cluster 0).target < 1024 ∧ (s.cluster 0).ctl = k) ∧
    (∀ on : Bool,
     let s := powerS { Cluster.reset with stretched := on } 12 12 1
     (s.cluster 0).stretched = on ∧ (s.cluster 0).quiet = 0 ∧ (s.cluster 0).stretch = 0) ∧
    (powerS Cluster.reset 12 12 1).hubReg (offPCLUS 0) < 2 ^ 64 ∧
    (let v := (eventS { Input.none with value := 0x20A00000 }).input.value.toNat
     bitsOf v 31 24 ≤ bitsOf v 23 16) ∧
    (let v := (eventS { Input.none with value := 0xA0200000 }).input.value.toNat
     bitsOf v 23 16 < bitsOf v 31 24) := by decide +kernel

/-- The granules of a bank are free where every one of them is listed so. -/
theorem rows_free (s : State) (key : Nat)
    (h : s.power.free = (Config.bankGranules key).map (fun g => (key / 4096 * 2 ^ 18 + g, true)) := by rfl) :
    s.rowsFree key = true := by
  have get : ∀ (gs : List Nat) (g : Nat), g ∈ gs →
      KV.get false (gs.map (fun g => (key / 4096 * 2 ^ 18 + g, true))) (key / 4096 * 2 ^ 18 + g) = true := by
    intro gs g hg
    induction gs with
    | nil => cases hg
    | cons x xs ih =>
      simp only [KV.get, List.map_cons] at ih ⊢
      by_cases hx : key / 4096 * 2 ^ 18 + x = key / 4096 * 2 ^ 18 + g
      · exact if_pos hx
      · have m := ih (List.mem_of_ne_of_mem (fun e => hx (by rw [e])) hg)
        exact (if_neg hx).trans m
  simp only [State.rowsFree, h, List.all_eq_true]
  exact fun g hg => get _ g hg

theorem witness_Refresh :
    (let s := eventS { about 2 with value := 2 }
     s.input.who = 2 ∧ bitAt s.input.value.toNat 1 = true) ∧
    (let s := { eventS (about 2) with power := { Power.reset with loading := [(2, true)] } }
     s.input.who = 2 ∧ KV.get false s.power.loading 2 = true ∧ s.fab.answers = []) ∧
    (let s := { eventS (about 5) with time := Config.refreshBase }
     s.refreshInterval 5 ≤ s.time - KV.get 0 s.power.refreshed 5 ∧ bitAt (s.hubReg (offREFCFG (5 / 4096))) 0 = false) ∧
    (let s := { eventS (about 5) with
                time := Config.refreshBase
                hub := [(offREFCFG 0, 1)]
                power := { Power.reset with free := (Config.bankGranules 5).map (fun g => (5 / 4096 * 2 ^ 18 + g, true)) } }
     s.refreshInterval 5 ≤ s.time - KV.get 0 s.power.refreshed 5 ∧ bitAt (s.hubReg (offREFCFG (5 / 4096))) 0 = true ∧
       s.rowsFree 5 = true) ∧
    (∀ k : Fin 2,
     let s := { eventS { about 5 with celsius := 110 } with power := { Power.reset with temps := if k = 0 then [] else [(5, 107)] } }
     105 < s.input.celsius ∧ (KV.get 25 s.power.temps 5 ≤ 105 ↔ k = 0)) :=
  ⟨by decide, by decide, ⟨Nat.le_refl _, rfl⟩, ⟨Nat.le_refl _, rfl, rows_free _ 5⟩, by decide⟩

/-- A write in flight to a granule that returns to use. -/
theorem witness_Refresh_lost :
    let w := write0 false []
    let s := { writeS w 0 with power := { Power.reset with free := (List.range 4).map (fun d => (d * 2 ^ 18, true)), loading := (List.range 4).map (fun d => (d, true)) } }
    s.fab.answers = [] ∧ w.scr = false ∧ w.bytes ≠ [] ∧ ∃ d : Fin 4, s.returns d w.addr = true ∧ KV.get false s.power.loading d = true := by decide +kernel

theorem witness_HubRegisters :
    (let s := { eventS Input.none with hub := [(offADMSEL, 2 ^ 63 + 0x1000 * 2 ^ 33 + 3)] }
     let sel := s.hubReg offADMSEL
     s.instPresent (entryInst (bitsOf sel 47 33)) = true ∧ bitsOf sel 2 0 < 6 ∧ bitAt sel 24 = false ∧ bitAt sel 63 = true) ∧
    bitAt ((eventS Input.none).hubReg offADMSEL) 63 = false ∧
    (let s := eventS { Input.none with sub := offCHCFG, value := 0x40 }
     s.input.size = 0 ∧ s.input.sub = offCHCFG ∧ s.hubReg offCHCFG < 2 ^ 16) ∧
    (let s := eventS { about 0 with size := 1, sub := 0x8000, value := 0x12345 }
     s.input.who = 0 ∧ s.input.size = 1 ∧ s.input.sub = 0x8000) ∧
    (∀ ok : Bool,
     let s := viS { Vi.reset with pending := [63], masked := [63] } { about 0 with size := 2, sub := 63, ok := ok }
     s.input.who = 0 ∧ s.input.size = 2 ∧ s.input.sub = 63 ∧ s.input.ok = ok ∧ (s.ifc 0).pending.contains 63 = true) := by
  decide +kernel

/-- An entry of a last level that counts through a MIGRATE leaf of class 0. -/
def entry0 : TlbEntry := { place := lastLevel 0, tenant := 0, va := 0x5000, size := 4096, leaf := leafOf 3, count := 16, reported := false }

/-- A batch whose range waits on bank 0's control strand. -/
def range0 : FaultRange := { tenant := 0, va := 0x5000, count := 1, kinds := 1, faulters := [.ctl 0], answered := false }
def batch0 : Batch := { die := 0, serial := 1, time := 0, ranges := [range0] }
def fault0 : LocalFault := { xfer := none, va := 0x5008, kind := .readMiss, age := 2048, handler := false }

theorem witness_FaultCollection :
    (let s := { eventS (about 0) with tlb := [entry0] }
     s.input.who = 0 ∧ s.tlb = [entry0] ∧ entry0.place = lastLevel 0 ∧ leafMode entry0.leaf = 3 ∧ entry0.reported = false ∧
       2 ^ (leafMclass entry0.leaf + 4) ≤ entry0.count ∧ s.faults.delivered = [] ∧
       s.openBatch 0 = { entries := [], since := 0, waiting := [] }) ∧
    (let o : OpenBatch := { entries := [{ tenant := 0, granule := 5, kinds := 1, faulters := [] }], since := 0, waiting := [] }
     let s := { eventS (about 0) with time := 4000000, faults := { Collectors.reset with dies := [(0, o)] } }
     s.input.who = 0 ∧ (s.openBatch 0).entries ≠ [] ∧ s.faults.closed.any (fun b => b.die = 0) = false ∧
       4000000 ≤ s.time - (s.openBatch 0).since) ∧
    (let s := { eventS Input.none with faults := { Collectors.reset with closed := [batch0] }, hub := [(offFCBUF, 0x100010)] }
     s.faults.closed = batch0 :: [] ∧ s.fcRoom = true) ∧
    (∀ v : Fin 2,
     let B := { liveB with out := { Outstanding.none with faults := [fault0] } }
     let s := { bankS .c B with input := { Input.none with value := BitVec.ofNat 128 (2 ^ 24 + v) }, faults := { Collectors.reset with delivered := [batch0] } }
     s.input.value.toNat % 4 = v.val ∧
       s.faults.delivered.find? (fun x => x.serial % 2 ^ 40 = bitsOf s.input.value.toNat 63 24) = some batch0 ∧
       batch0.ranges[bitsOf s.input.value.toNat 23 16]? = some range0 ∧ range0.answered = false ∧ range0.kinds ≠ 64 ∧
       range0.faulters = [.ctl 0] ∧
       (s.bank 0).out.faults.find? (fun f => decide (f.xfer = none) && f.within range0) = some fault0) ∧
    (let B := { liveB with out := { Outstanding.none with faults := [fault0] } }
     let s := { bankS .c B with input := about 0 }
     s.input.who = 0 ∧ (s.bank 0).status = .live ∧ fault0 ∈ (s.bank 0).out.faults ∧
       bitsOf ((s.bank 0).csrGet csrFSWITCH).toNat 15 0 ≤ fault0.age) ∧
    (let B := { liveB with n := { AcCounts.zero with idle := 256 } }
     let s := { bankS .c B with input := about 0 }
     (s.bank 0).status = .live ∧ isSys 0 = false ∧ 256 ≤ (s.bank 0).n.idle ∧ s.nothingOut 0 = true ∧
       (s.bank 0).activeTraps = []) := by decide +kernel

/-- A strand that may issue, at a word that decodes and at one that does not; a strand that may not; an event; no turn
at all. -/
theorem witness_StepRunsDecoded :
    (∀ k : Fin 3,
     let B := { liveB with words := if k = 2 then 0 else 1, text := [(0, if k = 1 then 0xE0000000 else encode (.add 1 2 3))] }
     let s := { bankS .c B with agenda := [{ ps := 0, act := .strand 0 .c }] }
     let u := State.elapse { s with agenda := [] } 0
     let t : State := { u with cur := { bank := 0, strand := .c } }
     let w := (t.bank 0).wordAt ((t.bank 0).walker .c).pc
     s.agenda = { ps := 0, act := .strand 0 .c } :: [] ∧ (mayIssue t 0 .c = true ↔ k ≠ 2) ∧
       (k = 0 → decodeWord w = some (.add 1 2 3)) ∧ (k = 1 → decodeWord w = none)) ∧
    Instr.droop.isWord = false ∧ (Instr.add 1 2 3).isWord = true ∧
    (State.reset.agenda = [] ∧ State.reset.phase = .inReset) := by decide +kernel

/-- The strand of a task whose word it passes alone, at once; and one of a system core. -/
theorem witness_StepRunsDecoded_engines :
    (let B := { liveB with words := 1, text := [(0, encode (.add 1 2 3))] }
     let s := { bankS .c B with agenda := [{ ps := 0, act := .strand 0 .c }] }
     let v := State.noteReady { s with agenda := [] }
     let t := (v.elapse 0).acting 0 .c
     v.dueScop (v.time + 0) = none ∧ mayIssue t 0 .c = true ∧ t.clocked 0 = true ∧ isSys 0 = false ∧
       decodeWord ((t.bank 0).wordAt ((t.bank 0).walker .c).pc) = some (.add 1 2 3) ∧ t.passers 0 (.add 1 2 3) = [.c] ∧
       (t.bank 0).now.issued.contains .c = false ∧ t.engineFree 0 .c = true ∧
       (t.chooseAll 0 [.c]).isSome = true) ∧
    (let s := { sysS [] with agenda := [{ ps := 0, act := .strand 1024 .c }] }
     let v := State.noteReady { s with agenda := [] }
     let t := (v.elapse 0).acting 1024 .c
     v.dueScop (v.time + 0) = none ∧ t.clocked 1024 = true ∧ isSys 1024 = true) ∧
    (let s := { bankS .c liveB with agenda := [{ ps := 0, act := .event .pathFollow (about 0) }] }
     let v := State.noteReady { s with agenda := [] }
     let u := { v.elapse 0 with input := about 0 }
     v.dueScop (v.time + 0) = none ∧ Instr.pathFollow.isWord = false ∧ u.eventClocked .pathFollow 0 = true ∧
       passesWords .pathFollow = true) := by decide +kernel

/-- A well-formed instruction. -/
theorem witness_RoundTrip : (Instr.ld 5 4 2 0x3FE).wf = true := by decide

/-- The state after reset is in canonical form, and its step goes on. -/
theorem witness_StepKeepsMemory : State.reset.memOk = true ∧ ∃ t, step State.reset = .next t := ⟨rfl, _, rfl⟩

end Sys2Proof.Tests
end

section
/-! The hub's registers, an interface's registers and the counters of the services: what their operations
leave in them and what they leave as it was; and O54, which rests on that. -/

namespace Sys2Proof.Machine

open Sys2Proof Host

/-! ### Interfaces -/

@[simp] theorem State.ifc_updIfc_same (s : State) (n : Nat) (f : Vi → Vi) : (s.updIfc n f).ifc n = f (s.ifc n) := by
  simp [State.ifc, State.updIfc, State.setIfc]

@[simp] theorem State.ifc_updIfc_ne (s : State) {n m : Nat} (f : Vi → Vi) (h : m ≠ n) :
    (s.updIfc n f).ifc m = s.ifc m := by
  simp [State.ifc, State.updIfc, State.setIfc, KV.get_put_ne _ h]

theorem onlyInterface_updIfc (s : State) (n : Nat) (f : Vi → Vi) : OnlyInterface n s (s.updIfc n f) :=
  ⟨rfl, rfl, fun _ h => s.ifc_updIfc_ne f h⟩

@[simp] theorem Vi.mem_masked_maskVector (v : Vi) (k : Nat) : k ∈ (v.maskVector k true).masked := by
  by_cases h : k ∈ v.masked <;> simp [Vi.maskVector, h]

@[simp] theorem Vi.maskVector_sent (v : Vi) (k : Nat) : (v.maskVector k true).sent = v.sent := rfl

/-- A vector whose mask bit is cleared while its message is pending sends the message (R51). -/
theorem Vi.maskVector_clear_pending {v : Vi} {k : Nat} (h : v.pending.contains k = true) :
    v.maskVector k false = { v with masked := v.masked.filter (· ≠ k), pending := v.pending.filter (· ≠ k),
                                    sent := v.sent ++ [k] } := by
  have hp : k ∈ v.pending := by simpa using h
  simp [Vi.maskVector, Vi.raise, hp]

/-! ### Counters of the services -/

@[simp] theorem Inst.at_cycle (x : Inst) (c : Nat) : (x.at_ c).cycle = c := by
  unfold Inst.at_
  split
  · assumption
  · rfl

theorem Inst.at_of_cycle {x : Inst} {c : Nat} (h : x.cycle = c) : x.at_ c = x := if_pos h

@[simp] theorem State.inst_cycle (s : State) (k : Nat) : (s.inst k).cycle = s.cycleOf k := Inst.at_cycle _ _

/-- What is put for the present decision cycle reads back as it was put. -/
theorem State.inst_setInst_same {s : State} {k : Nat} {x : Inst} (h : x.cycle = s.cycleOf k) :
    (s.setInst k x).inst k = x := by
  have hc : (s.setInst k x).cycleOf k = s.cycleOf k := rfl
  rw [State.inst, hc]
  simpa [State.setInst] using Inst.at_of_cycle h

@[simp] theorem Inst.snap_cycle (x : Inst) (vi n : Nat) : (x.snap vi n).2.cycle = x.cycle := rfl

@[simp] theorem Inst.counter_snap_same (x : Inst) (vi n : Nat) :
    (x.snap vi n).2.counter vi n = KV.get 0 x.recent (8 * vi + n) := by
  simp [Inst.snap, Inst.counter]

theorem Inst.counter_snap_ne (x : Inst) {vi n v m : Nat} (h : 8 * v + m ≠ 8 * vi + n) :
    (x.snap vi n).2.counter v m = x.counter v m := by
  simp [Inst.snap, Inst.counter, KV.get_put_ne _ h]

/-- What a snapshot leaves is what the next read in the decision cycle finds. -/
theorem State.inst_setInst_snap (s : State) (k vi n : Nat) :
    (s.setInst k ((s.inst k).snap vi n).2).inst k = ((s.inst k).snap vi n).2 :=
  State.inst_setInst_same (by simp)

/-- ADMDAT with ADMSEL's snapshot bit set, at a counter of one interface that is there (R97). -/
theorem State.admdat_snapshot {s : State}
    (hk : s.instPresent (entryInst (bitsOf (s.hubReg offADMSEL) 47 33)) = true)
    (hn : bitsOf (s.hubReg offADMSEL) 2 0 < 6) (hsum : bitAt (s.hubReg offADMSEL) 24 = false)
    (hsnap : bitAt (s.hubReg offADMSEL) 63 = true) :
    let k := entryInst (bitsOf (s.hubReg offADMSEL) 47 33)
    let x := (s.inst k).snap (bitsOf (s.hubReg offADMSEL) 32 25) (bitsOf (s.hubReg offADMSEL) 2 0)
    s.admdat = (s.setInst k x.2, x.1) := by
  simp [State.admdat, hk, Nat.not_le.mpr hn, hsum, hsnap]

/-- A read of ADMDAT that is not a snapshot leaves the state as it was, whatever ADMSEL selects (R97). -/
theorem State.admdat_state_of_no_snapshot {s : State} (h : bitAt (s.hubReg offADMSEL) 63 = false) :
    s.admdat.1 = s := by
  simp only [State.admdat, h]
  split
  · rfl
  · split <;> rfl

/-! ### Fields of a hub register -/

/-- A mask without the low `w` bits finds nothing in a number of `w` bits. -/
theorem and_eq_zero_of_lt {v w m : Nat} (hv : v < 2 ^ w) (hm : 2 ^ w ∣ m) : v &&& m = 0 := by
  have hlt : v &&& m < 2 ^ w := Nat.lt_of_le_of_lt Nat.and_le_left hv
  rw [← Nat.mod_eq_of_lt hlt, Nat.and_mod_two_pow, Nat.mod_eq_zero_of_dvd hm, Nat.and_zero]

/-- The mask of bits `k` to `w - 1` keeps of a number of `w` bits what stands at bit `k` and above. -/
theorem and_highBits {v w k : Nat} (hv : v < 2 ^ w) (hk : k ≤ w) : v &&& (2 ^ w - 2 ^ k) = 2 ^ k * (v / 2 ^ k) := by
  have hmask : 2 ^ w - 2 ^ k = 2 ^ k * (2 ^ (w - k) - 1) := by
    rw [Nat.mul_sub, ← Nat.pow_add, Nat.add_sub_cancel' hk, Nat.mul_one]
  refine Nat.eq_of_testBit_eq fun i => ?_
  rw [Nat.testBit_and, hmask, Nat.testBit_two_pow_mul, Nat.testBit_two_pow_mul, Nat.testBit_two_pow_sub_one,
    Nat.testBit_div_two_pow]
  by_cases hi : i < w
  · by_cases hki : k ≤ i
    · simp [hki, Nat.sub_lt_sub_right hki hi]
    · simp [hki]
  · have hhigh : v.testBit i = false :=
      Nat.testBit_lt_two_pow (Nat.lt_of_lt_of_le hv (Nat.pow_le_pow_right (by decide) (Nat.le_of_not_lt hi)))
    simp only [hhigh, Bool.false_and]
    by_cases hki : k ≤ i <;> simp [hki, hhigh]

/-- Without its bits from `k` upward, a number is what it leaves modulo `2 ^ k`. -/
theorem sub_and_highBits {v w k : Nat} (hv : v < 2 ^ w) (hk : k ≤ w) : v - (v &&& (2 ^ w - 2 ^ k)) = v % 2 ^ k := by
  rw [and_highBits hv hk, Nat.mod_eq_sub]

theorem readBits_whole (n : Nat) : readBits 0 n = 2 ^ (8 * n) - 1 := by simp [readBits]

/-- PCLUS after a read of all of it: the counts above bit 39 are cleared (R4). -/
theorem State.hubReg_pclusRead {s : State} {cl : Nat} (h : s.hubReg (offPCLUS cl) < 2 ^ 64) :
    (s.pclusRead cl 0 8).1.hubReg (offPCLUS cl) = s.hubReg (offPCLUS cl) % 2 ^ 40 := by
  have hread : s.hubReg (offPCLUS cl) &&& readBits 0 8 = s.hubReg (offPCLUS cl) := by
    rw [readBits_whole, Nat.and_two_pow_sub_one_eq_mod, Nat.mod_eq_of_lt h]
  rw [State.pclusRead, State.hubReg_setHub_same, hread, sub_and_highBits h (by decide)]

/-- A plain write of a register that is not a token balance changes that register alone (R4). -/
theorem State.plainWrite_eq_setHub {s : State} {f : HubFam} {r v : Nat} (h : r < 0x6000000 ∨ 0x6000800 ≤ r) :
    s.plainWrite f r v = s.setHub r (((v &&& f.rw) ||| (s.hubReg r &&& (2 ^ 128 - 1 - f.rw - f.w1c))) |||
      (s.hubReg r &&& f.w1c &&& (2 ^ 128 - 1 - v))) := by
  have hn : s.noteTokens r = s := if_neg (by omega)
  rw [State.plainWrite, hn]

/-- A register whose fields are its low `w` bits, all of them plain, takes the low `w` bits written (R4). -/
theorem State.plainWrite_lowBits {s : State} {f : HubFam} {r v w : Nat} (h : r < 0x6000000 ∨ 0x6000800 ≤ r)
    (hw : w ≤ 128) (hrw : f.rw = 2 ^ w - 1) (hclr : f.w1c = 0) (hold : s.hubReg r < 2 ^ w) :
    s.plainWrite f r v = s.setHub r (v % 2 ^ w) := by
  have hkept : s.hubReg r &&& (2 ^ 128 - 1 - f.rw - f.w1c) = 0 := by
    refine and_eq_zero_of_lt hold ?_
    have hmask : 2 ^ 128 - 1 - f.rw - f.w1c = 2 ^ 128 - 2 ^ w := by rw [hrw, hclr]; omega
    exact hmask ▸ Nat.dvd_sub (Nat.pow_dvd_pow 2 hw) (Nat.dvd_refl _)
  rw [State.plainWrite_eq_setHub h, hkept, hclr, hrw, Nat.and_two_pow_sub_one_eq_mod]
  simp

/-! ### Rows -/

theorem exec_admdatRead (s : State) : exec .admdatRead s = .next s.admdat.1 := rfl

theorem exec_pclusRead (s : State) : exec .pclusRead s = .next (s.pclusRead s.input.who 0 8).1 := rfl

theorem exec_registerWrite_hub {s : State} {f : HubFam} (hsize : s.input.size = 0)
    (hf : plainFams.find? (fun f => f.has s.input.sub) = some f) :
    exec .registerWrite s = .next (s.plainWrite f (f.regOf s.input.sub) s.input.value.toNat) := by
  show execRegisterWrite s = _
  simp [execRegisterWrite, hsize, hf]

theorem exec_registerWrite_bar {s : State} (hsize : s.input.size = 1) : exec .registerWrite s =
    .next (s.updIfc s.input.who (·.barWrite s.input.sub s.input.value.toNat)) := by
  show execRegisterWrite s = _
  simp [execRegisterWrite, hsize]

theorem exec_registerWrite_mask {s : State} (hsize : s.input.size = 2) : exec .registerWrite s =
    .next (s.updIfc s.input.who (·.maskVector (s.input.sub % 64) s.input.ok)) := by
  show execRegisterWrite s = _
  simp [execRegisterWrite, hsize]

/-- The family of CHCFG. -/
def chcfgFam : HubFam := { base := 0x400, stride := 4, count := 1, width := 4, rw := 0xFFFF, w1c := 0 }

theorem find_plainFams_offCHCFG : plainFams.find? (fun f => f.has offCHCFG) = some chcfgFam := by decide

theorem registerWrite_chcfg {s : State} (hsize : s.input.size = 0) (hsub : s.input.sub = offCHCFG)
    (hold : s.hubReg offCHCFG < 2 ^ 16) :
    exec .registerWrite s = .next (s.setHub offCHCFG (s.input.value.toNat % 2 ^ 16)) := by
  have hreg : chcfgFam.regOf offCHCFG = offCHCFG := rfl
  rw [exec_registerWrite_hub hsize (hsub ▸ find_plainFams_offCHCFG), hsub, hreg,
    State.plainWrite_lowBits (by decide) (by decide) rfl rfl hold]

theorem Vi.barWrite_cqBase (v : Vi) (x : Nat) : (v.barWrite 0x8000 x).cqBase = x % 2 ^ 64 / 4096 * 4096 := rfl

/-- Settles O54: each clause is what the row does to one register, and that register's own lemma. -/
theorem hubRegisters : Obligations.HubRegisters := by
  unfold Obligations.HubRegisters
  refine ⟨fun s => ⟨fun hk hn hsum hsnap => ?snapshot, fun hsnap => ?noSnapshot⟩,
    fun s cl hwho hreg => ?pclus,
    fun s hsize hsub hold => ?chcfg,
    fun s vi hwho hsize hsub => ?cqbase,
    fun s vi k hwho hsize hsub hk => ⟨fun hok => ?masks, fun hok hp => ?unmasks⟩⟩
  case snapshot =>
    refine ⟨_, exec_admdatRead s, ?_⟩
    rw [State.admdat_snapshot hk hn hsum hsnap]
    refine ⟨?_, rfl, rfl, fun v m hne => ?_⟩
    · rw [State.inst_setInst_snap, Inst.counter_snap_same]
    · rw [State.inst_setInst_snap, Inst.counter_snap_ne _ hne]
  case noSnapshot => rw [exec_admdatRead, State.admdat_state_of_no_snapshot hsnap]
  case pclus =>
    subst hwho
    exact ⟨_, exec_pclusRead s, rfl, State.hubReg_pclusRead hreg⟩
  case chcfg => exact ⟨_, registerWrite_chcfg hsize hsub hold, rfl, s.hubReg_setHub_same _ _⟩
  case cqbase =>
    subst hwho
    refine ⟨_, exec_registerWrite_bar hsize, onlyInterface_updIfc .., ?_⟩
    rw [State.ifc_updIfc_same, hsub, Vi.barWrite_cqBase]
  case masks =>
    subst hwho hsub
    refine ⟨_, exec_registerWrite_mask hsize, onlyInterface_updIfc .., ?_⟩
    simp [Nat.mod_eq_of_lt hk, hok]
  case unmasks =>
    subst hwho hsub
    refine ⟨_, exec_registerWrite_mask hsize, onlyInterface_updIfc .., ?_⟩
    rw [State.ifc_updIfc_same, Nat.mod_eq_of_lt hk, hok, Vi.maskVector_clear_pending hp]
    simp

end Sys2Proof.Machine
end

section
/-! Boot, the dies' authentication and the end of training: what the operations of chapter 02 change and what they
leave (O40). -/

namespace Sys2Proof.Machine

open Sys2Proof Host

/-! ### Folds over the state -/

/-- A fold keeps what each of its steps keeps. -/
theorem foldl_keeps {σ α β : Type} {g : σ → β} {f : σ → α → σ} (h : ∀ s a, g (f s a) = g s) (l : List α) (s : σ) :
    g (l.foldl f s) = g s := by
  induction l generalizing s with
  | nil => rfl
  | cons a l ih => exact (ih (f s a)).trans (h s a)

/-- What the step of one element brings about and the steps of the others keep holds after a fold over a list that has
the element. -/
theorem foldl_establishes {σ α : Type} [DecidableEq α] {P : σ → Prop} {f : σ → α → σ} {a : α} (hset : ∀ s, P (f s a))
    (hkeep : ∀ s b, a ≠ b → P s → P (f s b)) {l : List α} (h : a ∈ l) (s : σ) : P (l.foldl f s) := by
  suffices hgen : ∀ s, P s ∨ a ∈ l → P (l.foldl f s) from hgen s (.inr h)
  clear h s
  induction l with
  | nil => simp
  | cons b l ih =>
    intro s hs
    refine ih (f s b) ?_
    by_cases hb : a = b
    · exact .inl (hb ▸ hset s)
    · exact hs.imp (hkeep s b hb) (fun hm => (List.mem_cons.mp hm).resolve_left hb)

/-! ### A die's authentication -/

@[simp] theorem State.updDie_boot (s : State) (d : Nat) (f : DieAuth → DieAuth) :
    (s.updDie d f).boot = { s.boot with dies := KV.put s.boot.dies d (f (s.die d)) } := rfl

@[simp] theorem State.die_updDie_same (s : State) (d : Nat) (f : DieAuth → DieAuth) :
    (s.updDie d f).die d = f (s.die d) := KV.get_put_same _ _ _ _

theorem State.die_updDie_ne (s : State) {d e : Nat} (f : DieAuth → DieAuth) (h : e ≠ d) :
    (s.updDie d f).die e = s.die e := KV.get_put_ne _ h

@[simp] theorem State.die_fence_same (s : State) (d n : Nat) :
    (s.fence d n).die d = { s.die d with stage := 4, result := n } :=
  s.die_updDie_same d (fun x => { x with stage := 4, result := n })

theorem State.die_fence_ne (s : State) {d e : Nat} (n : Nat) (h : e ≠ d) : (s.fence d n).die e = s.die e :=
  s.die_updDie_ne (fun x => { x with stage := 4, result := n }) h

theorem State.mem_fenced_fence (s : State) (d n e : Nat) :
    e ∈ (s.fence d n).boot.fenced ↔ e ∈ s.boot.fenced ∨ e = d := by
  by_cases h : d ∈ s.boot.fenced <;> simp [State.fence, h]
  rintro rfl
  exact h

theorem State.stage_challengeDie_same (s : State) (d : Nat) (x : BitVec 512) :
    ((s.challengeDie d x).die d).stage = 1 := by simp [State.challengeDie, State.die]

theorem State.die_challengeDie_ne (s : State) {d e : Nat} (x : BitVec 512) (h : e ≠ d) :
    (s.challengeDie d x).die e = s.die e := KV.get_put_ne _ h

/-! ### NO_DIE (R27) -/

/-- NO_DIE ends the boot and reports it, and leaves all else. -/
theorem State.noDieLeft_cases (s : State) : s.noDieLeft = s ∨ s.noDieLeft = s.bootEnds .noDie 2 := by
  unfold State.noDieLeft
  split
  · exact .inr rfl
  · exact .inl rfl

@[simp] theorem State.noDieLeft_die (s : State) (d : Nat) : s.noDieLeft.die d = s.die d := by
  obtain h | h := s.noDieLeft_cases <;> simp [h, State.bootEnds, State.die]

@[simp] theorem State.noDieLeft_fenced (s : State) : s.noDieLeft.boot.fenced = s.boot.fenced := by
  obtain h | h := s.noDieLeft_cases <;> simp [h, State.bootEnds]

@[simp] theorem State.noDieLeft_images (s : State) : s.noDieLeft.boot.images = s.boot.images := by
  obtain h | h := s.noDieLeft_cases <;> simp [h, State.bootEnds]

@[simp] theorem State.noDieLeft_incarnation (s : State) : s.noDieLeft.boot.incarnation = s.boot.incarnation := by
  obtain h | h := s.noDieLeft_cases <;> simp [h, State.bootEnds]

theorem State.noDieLeft_phase (s : State) : s.noDieLeft.phase = s.phase ∨ s.noDieLeft.phase = .noDie := by
  obtain h | h := s.noDieLeft_cases <;> rw [h]
  · exact .inl rfl
  · exact .inr rfl

/-- Die `d` is fenced with a result (R23, R29). -/
def FencedWith (d n : Nat) (t : State) : Prop :=
  (t.die d).stage = 4 ∧ (t.die d).result = n ∧ t.boot.fenced.contains d = true

theorem fencedWith_fence (s : State) (d n : Nat) : FencedWith d n (s.fence d n).noDieLeft := by
  have hd : d ∈ (s.fence d n).boot.fenced := (s.mem_fenced_fence d n d).mpr (.inr rfl)
  simp [FencedWith, hd]

/-! ### BOOT_START (R26 steps 1 to 3) -/

/-- A choice between two propositions says one of them in each case. -/
theorem ite_iff_branches {p q r : Prop} [Decidable p] : (if p then q else r) ↔ (p → q) ∧ (¬p → r) := by
  by_cases h : p <;> simp [h]

/-- The exchange with die `d` has begun, or the die is fenced. -/
def DieStarted (d : Nat) (t : State) : Prop :=
  (t.die d).stage = 1 ∨ ((t.die d).stage = 4 ∧ t.boot.fenced.contains d = true)

theorem dieStarted_challengeDie (s : State) (d : Nat) (x : BitVec 512) : DieStarted d (s.challengeDie d x) :=
  .inl (s.stage_challengeDie_same d x)

theorem dieStarted_challengeDie_ne {s : State} {d e : Nat} (x : BitVec 512) (hne : e ≠ d) (h : DieStarted e s) :
    DieStarted e (s.challengeDie d x) := by
  rw [DieStarted, s.die_challengeDie_ne x hne]
  exact h

theorem dieStarted_fence (s : State) (d n : Nat) : DieStarted d (s.fence d n) :=
  .inr ⟨by simp, by simpa using (s.mem_fenced_fence d n d).mpr (.inr rfl)⟩

theorem dieStarted_fence_ne {s : State} {d e : Nat} (n : Nat) (hne : e ≠ d) (h : DieStarted e s) :
    DieStarted e (s.fence d n) := by
  rw [DieStarted, s.die_fence_ne n hne]
  refine h.imp_right (And.imp_right fun he => ?_)
  simpa using (s.mem_fenced_fence d n e).mpr (.inl (by simpa using he))

theorem dieStarted_startDies (s : State) (bank : Nat) {d : Nat} (hd : d < 4) : DieStarted d (s.startDies bank) := by
  have hm : d ∈ [0, 1, 2, 3] := by simp; omega
  unfold State.startDies
  refine foldl_establishes (fun s => ?_) (fun s e hne h => ?_) hm s
  · split
    · exact dieStarted_challengeDie s d _
    · exact dieStarted_fence s d 2
  · split
    · exact dieStarted_challengeDie_ne _ hne h
    · exact dieStarted_fence_ne 2 hne h

@[simp] theorem State.startDies_phase (s : State) (bank : Nat) : (s.startDies bank).phase = s.phase := by
  refine foldl_keeps (g := State.phase) (fun s d => ?_) [0, 1, 2, 3] s
  split <;> rfl

@[simp] theorem State.startDies_images (s : State) (bank : Nat) : (s.startDies bank).boot.images = s.boot.images := by
  refine foldl_keeps (g := fun s => s.boot.images) (fun s d => ?_) [0, 1, 2, 3] s
  split <;> rfl

@[simp] theorem State.startDies_incarnation (s : State) (bank : Nat) :
    (s.startDies bank).boot.incarnation = s.boot.incarnation := by
  refine foldl_keeps (g := fun s => s.boot.incarnation) (fun s d => ?_) [0, 1, 2, 3] s
  split <;> rfl

/-- BOOT_START without a second stage, or without an image for target 5 or 6, ends in reset. -/
theorem exec_bootStart_fails {s : State} (hp : s.phase = .inReset)
    (h : ∀ bank, s.bootBank = some bank →
      ¬((s.targetImage bank 5).isSome = true ∧ (s.targetImage bank 6).isSome = true)) :
    exec .bootStart s = .next (s.bootEnds .bootFail 1) := by
  show execBootStart s = _
  cases hb : s.bootBank with
  | none => simp [execBootStart, hp, hb]
  | some bank =>
    have hmiss : s.targetImage bank 5 = none ∨ s.targetImage bank 6 = none := by
      obtain h5 | h6 := Decidable.not_and_iff_not_or_not.mp (h bank hb)
      · exact .inl (Option.not_isSome_iff_eq_none.mp h5)
      · exact .inr (Option.not_isSome_iff_eq_none.mp h6)
    simp [execBootStart, hp, hb, hmiss]

/-- BOOT_START with each image it needs begins the exchanges. -/
theorem exec_bootStart_begins {s : State} {bank : Nat} (hp : s.phase = .inReset) (hb : s.bootBank = some bank)
    (h5 : (s.targetImage bank 5).isSome = true) (h6 : (s.targetImage bank 6).isSome = true) :
    exec .bootStart s = .next (State.startDies
      { s with phase := .dies, boot := { s.boot with images := s.loadedImages bank } } bank).noDieLeft := by
  show execBootStart s = _
  have h5' : s.targetImage bank 5 ≠ none := Option.isSome_iff_ne_none.mp h5
  have h6' : s.targetImage bank 6 ≠ none := Option.isSome_iff_ne_none.mp h6
  simp [execBootStart, hp, hb, h5', h6']

theorem bootStart_fails {s : State} (hp : s.phase = .inReset)
    (h : ∀ bank, s.bootBank = some bank →
      ¬((s.targetImage bank 5).isSome = true ∧ (s.targetImage bank 6).isSome = true)) :
    Goes .bootStart s (fun t => t.phase = .bootFail ∧ t.boot.i3c = s.boot.i3c ++ [1] ∧
      t.boot.incarnation = s.boot.incarnation ∧ t.boot.images = s.boot.images) :=
  ⟨_, exec_bootStart_fails hp h, rfl, rfl, rfl, rfl⟩

theorem bootStart_begins {s : State} {bank : Nat} (hp : s.phase = .inReset) (hb : s.bootBank = some bank)
    (h5 : (s.targetImage bank 5).isSome = true) (h6 : (s.targetImage bank 6).isSome = true) :
    Goes .bootStart s (fun t => (t.phase = .dies ∨ t.phase = .noDie) ∧ t.boot.images = s.loadedImages bank ∧
      t.boot.incarnation = s.boot.incarnation ∧
      ∀ d, d < 4 → (t.die d).stage = 1 ∨ ((t.die d).stage = 4 ∧ t.boot.fenced.contains d = true)) := by
  refine ⟨_, exec_bootStart_begins hp hb h5 h6, ?_, by simp, by simp, fun d hd => ?_⟩
  · simpa using State.noDieLeft_phase (State.startDies _ bank)
  · simpa [DieStarted] using dieStarted_startDies _ bank hd

/-! ### The exchange (R29) -/

/-- What DIE_AUTH_REPLY finds: 0 where the reply is in time and all of its checks hold, else the result of the first
that fails. -/
def State.replyResult (s : State) (d : Nat) : Nat :=
  if s.dieLate (s.die d) then 6 else dieCheck d (s.die d) s.input.reply

theorem exec_dieAuthReply_fences {s : State} {n : Nat} (hp : s.phase = .dies) (hs : (s.die s.input.who).stage = 1)
    (hn : s.replyResult s.input.who = n) (h0 : n ≠ 0) :
    exec .dieAuthReply s = .next (s.fence s.input.who n).noDieLeft := by
  subst hn
  show execDieAuthReply s = _
  simp only [execDieAuthReply, hp, hs, ne_eq, not_true, or_self, if_false]
  exact congrArg Outcome.next (if_neg h0)

theorem exec_dieAuthReply_accepts {s : State} (hp : s.phase = .dies) (hs : (s.die s.input.who).stage = 1)
    (h0 : s.replyResult s.input.who = 0) :
    exec .dieAuthReply s = .next (s.updDie s.input.who (fun x =>
      { x with stage := 2, since := s.time, nonceD := s.input.reply.nonce, ephD := s.input.reply.ephemeral })) := by
  show execDieAuthReply s = _
  simp only [execDieAuthReply, hp, hs, ne_eq, not_true, or_self, if_false]
  exact congrArg Outcome.next (if_pos h0)

/-- A reply that fails a check fences its die with that check's result. -/
theorem dieAuthReply_fences {s : State} {d n : Nat} (hwho : s.input.who = d) (hp : s.phase = .dies)
    (hs : (s.die d).stage = 1) (hn : s.replyResult d = n) (h0 : n ≠ 0) : Goes .dieAuthReply s (FencedWith d n) := by
  subst hwho
  exact ⟨_, exec_dieAuthReply_fences hp hs hn h0, fencedWith_fence s _ n⟩

/-- The message that the security processor signs for a die (R29 step 3). -/
def confirmMessage (x : DieAuth) : List Byte := leBytes 32 x.nonceD.toNat ++ leBytes 32 x.nonceS.toNat

/-- The die accepts the security processor's signature (R29 step 4). -/
def dieAccepts (x : DieAuth) : Bool :=
  Config.certVerifies Config.ownCert &&
    Config.ecdsaVerifies Config.ownCert (confirmMessage x) (Config.ecdsaSign 1 (confirmMessage x))

theorem exec_dieAuthConfirm {s : State} (hp : s.phase = .dies) (hs : (s.die s.input.who).stage = 2) :
    exec .dieAuthConfirm s = .next (
      if s.dieLate (s.die s.input.who) then (s.fence s.input.who 6).noDieLeft
      else if dieAccepts (s.die s.input.who) then
        s.updDie s.input.who (fun x =>
          { x with stage := 3, result := 1, key := Config.hkdf (Config.ecdh x.keyNo x.ephD) [] })
      else (s.fence s.input.who (if Config.certVerifies Config.ownCert then 3 else 4)).noDieLeft) := by
  show execDieAuthConfirm s = _
  simp only [execDieAuthConfirm, hp, hs, ne_eq, not_true, or_self, if_false]
  rfl

theorem exec_dieAuthTimeout {s : State} (hp : s.phase = .dies)
    (hs : (s.die s.input.who).stage = 1 ∨ (s.die s.input.who).stage = 2)
    (ht : 100000000000 ≤ s.time - (s.die s.input.who).since) :
    exec .dieAuthTimeout s = .next (s.fence s.input.who 6).noDieLeft :=
  congrArg Outcome.next (if_pos ⟨hp, hs, ht⟩)

/-! ### Training (R26 steps 4 to 6, R30, R31) -/

/-- What the ranges that the dies offer make of the record of die `d`. -/
def offer (l : List Nat) (d : Nat) (x : DieAuth) : DieAuth :=
  { x with linkLo := l.getD (2 * d) 0 % 65536, linkHi := l.getD (2 * d + 1) 0 % 65536,
           fabLo := l.getD (8 + 2 * d) 0 % 65536, fabHi := l.getD (8 + 2 * d + 1) 0 % 65536 }

theorem State.setRanges_eq_foldl (s : State) (l : List Nat) :
    s.setRanges l = s.present.foldl (fun s d => s.updDie d (offer l d)) s := rfl

theorem State.present_congr {s t : State} (h : t.boot.fenced = s.boot.fenced) : t.present = s.present := by
  simp [State.present, h]

@[simp] theorem State.setRanges_fenced (s : State) (l : List Nat) : (s.setRanges l).boot.fenced = s.boot.fenced :=
  foldl_keeps (g := fun s => s.boot.fenced) (f := fun s d => s.updDie d (offer l d)) (fun _ _ => rfl) s.present s

@[simp] theorem State.setRanges_incarnation (s : State) (l : List Nat) :
    (s.setRanges l).boot.incarnation = s.boot.incarnation :=
  foldl_keeps (g := fun s => s.boot.incarnation) (f := fun s d => s.updDie d (offer l d)) (fun _ _ => rfl) s.present s

@[simp] theorem State.setRanges_present (s : State) (l : List Nat) : (s.setRanges l).present = s.present :=
  State.present_congr (s.setRanges_fenced l)

/-- Each present die's die-link range is the one that it offers. -/
theorem State.linkRange_setRanges (s : State) (l : List Nat) {d : Nat} (hd : d ∈ s.present) :
    ((s.setRanges l).die d).linkLo = l.getD (2 * d) 0 % 65536 ∧
      ((s.setRanges l).die d).linkHi = l.getD (2 * d + 1) 0 % 65536 := by
  rw [State.setRanges_eq_foldl]
  refine foldl_establishes (P := fun s => (s.die d).linkLo = l.getD (2 * d) 0 % 65536 ∧
    (s.die d).linkHi = l.getD (2 * d + 1) 0 % 65536) (fun s => ?_) (fun s e hne hs => ?_) hd s
  · simp [offer]
  · rwa [s.die_updDie_ne _ hne]

/-- A hub that offers one revision leaves no choice. -/
theorem State.chooseRevision_single (s : State) (r : Nat) : s.chooseRevision r r = r := by
  simp [State.chooseRevision]

theorem State.mem_supporters {s : State} {r d : Nat} :
    d ∈ s.supporters r ↔ d ∈ s.present ∧ (s.die d).linkLo ≤ r ∧ r ≤ (s.die d).linkHi := by
  simp [State.supporters]

theorem State.fenceUnless_of_all {s : State} {ok : Nat → Bool} (n : Nat) (h : ∀ d, d ∈ s.present → ok d = true) :
    s.fenceUnless n ok = s := by
  have hnone : s.present.filter (fun d => ! ok d) = [] := List.filter_eq_nil_iff.mpr fun d hd => by simp [h d hd]
  rw [State.fenceUnless, hnone, List.foldl_nil]

@[simp] theorem State.trainWith_boot (s : State) (p lo hi : Nat) : (s.trainWith p lo hi).boot = s.boot := by
  simp only [State.trainWith, State.trainPort]
  split
  · rfl
  · split <;> rfl

@[simp] theorem State.trainAll_boot (s : State) (l : List Nat) : (s.trainAll l).boot = s.boot := by
  fun_induction State.trainAll s l with
  | case1 s p lo hi rest ih => rw [ih, State.trainWith_boot]
  | case2 => rfl

@[simp] theorem State.control_boot (s : State) (p sub : Nat) (bs : List Byte) : (s.control p sub bs).boot = s.boot := by
  simp only [State.control]
  split <;> rfl

@[simp] theorem State.control_phase (s : State) (p sub : Nat) (bs : List Byte) : (s.control p sub bs).phase = s.phase := by
  simp only [State.control]
  split <;> rfl

theorem State.release_phase (s : State) : s.release.phase = .running :=
  foldl_keeps (g := State.phase) (fun t p => t.control_phase p _ _) _ _

/-- Steps 5 and 6 count the incarnation up and write the ingress key and the capability record. -/
theorem State.release_boot (s : State) : ∃ key rev record, s.release.boot =
    { s.boot with incarnation := nextIncarnation s.boot.incarnation, ingressKey := key, fabricRev := rev,
                  capability := record } :=
  ⟨_, _, _, foldl_keeps (g := State.boot) (fun t p => t.control_boot p _ _) _ _⟩

/-- What steps 4 to 6 do with no die left to fence: the ports are trained, and the system cores start. -/
theorem exec_trainingComplete_releases {s : State} {r : Nat} (hp : s.phase = .dies) (hne : s.present ≠ [])
    (hsub : s.input.sub = r) (hsize : s.input.size = r) (hr : r < 65536)
    (hd : ∀ d, d ∈ s.present → (s.die d).stage = 3 ∧ s.input.list.getD (2 * d) 0 % 65536 ≤ r ∧
      r ≤ s.input.list.getD (2 * d + 1) 0 % 65536 ∧ bitAt s.input.third d = false) :
    let t := s.setRanges s.input.list
    exec .trainingComplete s = .next (((State.setCxl { t with boot := { t.boot with revision := r } }
      s.input.data).trainAll s.input.ports).release) := by
  intro t
  have hany : ¬(s.phase ≠ .dies ∨ s.present.any (fun d => decide ((s.die d).stage ≠ 3)) = true) := by
    simpa [hp] using fun d hm => (hd d hm).1
  have hrev : t.chooseRevision (s.input.sub % 65536) (s.input.size % 65536) = r := by
    rw [hsub, hsize, Nat.mod_eq_of_lt hr, State.chooseRevision_single]
  have hlink : t.fenceUnless 8 (fun d => (t.supporters r).contains d && decide (s.input.sub ≤ s.input.size)) = t := by
    refine State.fenceUnless_of_all 8 fun d hm => ?_
    have hms : d ∈ s.present := by simpa [t] using hm
    obtain ⟨-, hlo, hhi, -⟩ := hd d hms
    obtain ⟨elo, ehi⟩ := s.linkRange_setRanges s.input.list hms
    have hsup : d ∈ t.supporters r := State.mem_supporters.mpr ⟨hm, elo ▸ hlo, ehi ▸ hhi⟩
    simp [hsup, hsub, hsize]
  have hchan : t.fenceUnless 7 (fun d => ! bitAt s.input.third d) = t := by
    refine State.fenceUnless_of_all 7 fun d hm => ?_
    have hms : d ∈ s.present := by simpa [t] using hm
    obtain ⟨-, -, -, hbit⟩ := hd d hms
    simp [hbit]
  have hempty : ({ t with boot := { t.boot with revision := r } } : State).present.isEmpty = false := by
    rw [State.present_congr (t := { t with boot := { t.boot with revision := r } }) (s.setRanges_fenced _)]
    simpa using hne
  show execTrainingComplete s = _
  simp only [execTrainingComplete, if_neg hany]
  rw [hrev, hlink, hchan, hempty]
  rfl

/-! ### The obligation -/

/-- Settles O40: each event is the row's own equation, and what the operations in it change. -/
theorem bootAndDies : Obligations.BootAndDies := by
  unfold Obligations.BootAndDies
  refine ⟨fun s hp => ?boot, fun s d hwho hp hs => ?reply, fun s d hwho hp hs => ?confirm,
    fun s d hwho hp hs ht => ?timeout, fun s r hp hne hsub hsize hr hd => ?training⟩
  case boot =>
    -- Splitting the `match` or the `if` as they stand makes Lean evaluate the chains of images, so the bank is
    -- generalized and the `if` is read as two implications.
    generalize hb : s.bootBank = o
    cases o with
    | none => exact bootStart_fails hp (fun b hbank => nomatch hb.symm.trans hbank)
    | some bank =>
      simp only [ite_iff_branches]
      exact ⟨fun ⟨h5, h6⟩ => bootStart_begins hp hb h5 h6,
        fun h => bootStart_fails hp (fun b hbank => Option.some.inj (hb.symm.trans hbank) ▸ h)⟩
  case reply =>
    have hfenced : ∀ n, s.replyResult d = n → n ≠ 0 → Goes .dieAuthReply s (FencedWith d n) :=
      fun n => dieAuthReply_fences hwho hp hs
    dsimp only
    split <;> rename_i hlate
    · exact hfenced 6 (by simp [State.replyResult, hlate]) (by decide)
    split <;> rename_i hcert
    · exact hfenced 4 (by simp [State.replyResult, dieCheck, hlate, hcert]) (by decide)
    split <;> rename_i hsig
    · exact hfenced 3 (by simp [State.replyResult, dieCheck, hlate, hcert, hsig]) (by decide)
    split <;> rename_i hpos
    · exact hfenced 3 (by simp [State.replyResult, dieCheck, hlate, hcert, hpos]) (by decide)
    split <;> rename_i hmeas
    · exact hfenced 5 (by simpa [State.replyResult, dieCheck, hlate, hcert, hsig, hpos] using hmeas) (by decide)
    · have hall : s.replyResult d = 0 := by
        simpa [State.replyResult, dieCheck, hlate, hcert, hsig, hpos] using hmeas
      subst hwho
      exact ⟨_, exec_dieAuthReply_accepts hp hs hall, by simp⟩
  case confirm =>
    subst hwho
    have hrow := exec_dieAuthConfirm hp hs
    intro m
    split <;> rename_i hlate
    · exact ⟨_, by rw [hrow, if_pos hlate], fencedWith_fence s _ 6⟩
    split <;> rename_i hacc
    · have ha : dieAccepts (s.die s.input.who) = true := Bool.and_eq_true_iff.mpr hacc
      exact ⟨_, by rw [hrow, if_neg hlate, if_pos ha], by simp⟩
    · have ha : ¬dieAccepts (s.die s.input.who) = true := fun h => hacc (Bool.and_eq_true_iff.mp h)
      obtain ⟨hstage, -, hfenced⟩ :=
        fencedWith_fence s s.input.who (if Config.certVerifies Config.ownCert then 3 else 4)
      exact ⟨_, by rw [hrow, if_neg hlate, if_neg ha], hstage, hfenced⟩
  case timeout =>
    subst hwho
    exact ⟨_, exec_dieAuthTimeout hp hs ht, fencedWith_fence s _ 6⟩
  case training =>
    refine ⟨_, exec_trainingComplete_releases hp hne hsub hsize hr hd, State.release_phase _, ?_⟩
    obtain ⟨key, rev, record, hboot⟩ := State.release_boot _
    rw [hboot]
    simp [State.setCxl, nextIncarnation]

end Sys2Proof.Machine
end

section
/-! The host interface of chapter 04: a launch write that finds no room for its entries, by which O46 fails in a
state whose count has left its register. -/

namespace Sys2Proof.Machine

open Sys2Proof Host

theorem OnlyInterface.trans {vi : Nat} {s t u : State} (h : OnlyInterface vi s t) (k : OnlyInterface vi t u) :
    OnlyInterface vi s u := by
  obtain ⟨ht, htm, hti⟩ := h
  obtain ⟨hu, hum, hui⟩ := k
  refine ⟨?_, hum.trans htm, fun n hn => (hui n hn).trans (hti n hn)⟩
  rw [hu, ht]

/-! ### What the message of a vector leaves of its interface (R51) -/

@[simp] theorem Vi.raise_dropped (v : Vi) (k : Nat) : (v.raise k).dropped = v.dropped := by
  unfold Vi.raise
  split <;> rfl

@[simp] theorem Vi.raise_launches (v : Vi) (k : Nat) : (v.raise k).launches = v.launches := by
  unfold Vi.raise
  split <;> rfl

@[simp] theorem Vi.raise_unread (v : Vi) (k : Nat) : (v.raise k).unread = v.unread := by
  unfold Vi.raise
  split <;> rfl

@[simp] theorem Vi.raise_cqCtl (v : Vi) (k : Nat) : (v.raise k).cqCtl = v.cqCtl := by
  unfold Vi.raise
  split <;> rfl

@[simp] theorem Vi.raise_precopy (v : Vi) (k : Nat) : (v.raise k).precopy = v.precopy := by
  unfold Vi.raise
  split <;> rfl

/-! ### Launch writes that are dropped (R54) -/

/-- What a dropped launch write leaves in VISTAT's count: one more, or a count at or above the limit as it was (R54). -/
theorem State.dropped_dropLaunch (s : State) (vi : Nat) : ((s.dropLaunch vi).ifc vi).dropped =
    if 0xFFFF ≤ (s.ifc vi).dropped then (s.ifc vi).dropped else (s.ifc vi).dropped + 1 := by
  rw [State.dropLaunch, State.ifc_updIfc_same]
  split
  · rfl
  · exact Vi.raise_dropped ..

@[simp] theorem State.launches_dropLaunch (s : State) (vi : Nat) :
    ((s.dropLaunch vi).ifc vi).launches = (s.ifc vi).launches := by
  rw [State.dropLaunch, State.ifc_updIfc_same]
  split
  · rfl
  · exact Vi.raise_launches ..

/-- A launch write that an enabled window takes and that finds no two free entries is counted and dropped (R54). -/
theorem exec_launchWrite_noRoom {s : State} (hthird : s.input.third ≠ 1)
    (htaken : s.launchTaken s.input.who s.input.sub s.input.data = true)
    (hroom : (s.ifc s.input.who).free - (s.ifc s.input.who).reserved < 2) :
    exec .launchWrite s = .next ((s.updIfc s.input.who (fun v =>
      { v with launches := (v.launches + 1) % 2 ^ 32 })).dropLaunch s.input.who) := by
  show execLaunchWrite s = _
  simp [execLaunchWrite, hthird, htaken, hroom]

/-- A count that saturates at 0xFFFF, of 16 bits. -/
theorem saturate_eq_min {n : Nat} (h : n ≤ 0xFFFF) : (if 0xFFFF ≤ n then n else n + 1) = Nat.min 0xFFFF (n + 1) := by
  change _ = min 0xFFFF (n + 1)
  split <;> omega

/-- The clause of O46 that fails holds of every count of 16 bits. -/
theorem launchWrite_noRoom {s : State} (hthird : s.input.third ≠ 1)
    (htaken : s.launchTaken s.input.who s.input.sub s.input.data = true)
    (hroom : (s.ifc s.input.who).free - (s.ifc s.input.who).reserved < 2)
    (hcount : (s.ifc s.input.who).dropped ≤ 0xFFFF) :
    Goes .launchWrite s (fun t => OnlyInterface s.input.who s t ∧
      (t.ifc s.input.who).dropped = Nat.min 0xFFFF ((s.ifc s.input.who).dropped + 1) ∧
      (t.ifc s.input.who).launches = ((s.ifc s.input.who).launches + 1) % 2 ^ 32) := by
  refine ⟨_, exec_launchWrite_noRoom hthird htaken hroom, ?_, ?_, ?_⟩
  · exact (onlyInterface_updIfc ..).trans (onlyInterface_updIfc ..)
  · rw [State.dropped_dropLaunch, State.ifc_updIfc_same]
    exact saturate_eq_min hcount
  · rw [State.launches_dropLaunch, State.ifc_updIfc_same]

/-- A module whose interface 0 is in service with one entry of its completion area free, and whose host writes a launch
record; VISTAT's count of 16 bits stands at 0x10000, which no step of the model takes it to. -/
def countPastLimit : State :=
  let v := { Vi.reset with cqCtl := 2 ^ 31, unread := 63, dropped := 0x10000 }
  { State.reset with hub := [(offVICFG 0, 2 ^ 127)]
                     host := { HostIf.reset with vis := [(0, v)] }
                     input := { Input.none with data := List.replicate 64 0 } }

/-- Refutes O46: where the count is above 0xFFFF a launch write that finds no room leaves it as it is, and the clause
about such a write gives `min 0xFFFF (dropped + 1)`, which is below it. Up to 0xFFFF the two agree. -/
theorem not_hostInterface : ¬ Obligations.HostInterface := by
  unfold Obligations.HostInterface
  rintro ⟨hlaunch, -⟩
  obtain ⟨-, -, hnoRoom, -⟩ := hlaunch countPastLimit 0 rfl (by decide)
  have htaken : countPastLimit.launchTaken 0 countPastLimit.input.sub countPastLimit.input.data = true := by decide
  have hroom : (countPastLimit.ifc 0).free - (countPastLimit.ifc 0).reserved < 2 := by decide
  obtain ⟨t, hexec, -, hclaim, -⟩ := hnoRoom htaken hroom
  obtain rfl := Outcome.next.inj ((exec_launchWrite_noRoom (by decide) htaken hroom).symm.trans hexec)
  have hkept := State.dropped_dropLaunch (countPastLimit.updIfc 0 (fun v =>
    { v with launches := (v.launches + 1) % 2 ^ 32 })) 0
  rw [State.ifc_updIfc_same] at hkept
  exact absurd (hclaim.symm.trans hkept) (by decide)

end Sys2Proof.Machine
end

section
/-! Attestation at the DOE mailbox: what a response leaves, and how the responses begin (O47). -/

namespace Sys2Proof.Machine

open Sys2Proof Host

@[simp] theorem length_leBytes (n v : Nat) : (leBytes n v).length = n := by
  induction n generalizing v with
  | zero => rfl
  | succ n ih => simp [leBytes, ih]

@[simp] theorem length_spdmHead (code p1 p2 : Nat) : (spdmHead code p1 p2).length = 4 := rfl

theorem onlyInterface_respond (s : State) (vi : Nat) (r : List Byte) (f : Vi → Vi) :
    OnlyInterface vi s (s.respond vi r f) := onlyInterface_updIfc ..

@[simp] theorem State.doe_respond (s : State) (vi : Nat) (r : List Byte) (f : Vi → Vi) :
    ((s.respond vi r f).ifc vi).doe = r := by simp [State.respond]

/-- A row that puts a response in the mailbox changes nothing but the interface, and the response begins with the bytes
that it was made of first. -/
theorem goes_respond {i : Instr} {s : State} {vi : Nat} {head rest : List Byte} {f : Vi → Vi}
    (hx : exec i s = .next (s.respond vi (head ++ rest) f)) :
    Goes i s (fun t => OnlyInterface vi s t ∧ (t.ifc vi).doe.take head.length = head) :=
  ⟨_, hx, onlyInterface_respond .., by simp⟩

/-- A row that answers with ERROR of code UnsupportedRequest. -/
theorem goes_spdmError {i : Instr} {s : State} {vi : Nat} {f : Vi → Vi}
    (hx : exec i s = .next (s.respond vi (spdmError 7) f)) :
    Goes i s (fun t => OnlyInterface vi s t ∧ (t.ifc vi).doe.take 4 = [0x13, 0x7F, 7, 0]) :=
  goes_respond (head := spdmError 7) (rest := []) (by simpa using hx)

theorem getVersion_replies (s : State) : Goes .getVersion s (fun t => OnlyInterface s.input.who s t ∧
    (t.ifc s.input.who).doe.take 8 = [0x10, 0x04, 0, 0, 0x00, 0x01, 0x00, 0x13]) :=
  goes_respond (head := [0x10, 0x04, 0, 0, 0x00, 0x01, 0x00, 0x13]) (rest := []) rfl

theorem getCapabilities_replies (s : State) : Goes .getCapabilities s (fun t => OnlyInterface s.input.who s t ∧
    (t.ifc s.input.who).doe.take 4 = [0x13, 0x61, 0, 0]) :=
  goes_respond (head := spdmHead 0x61 0 0) rfl

/-- Algorithms are agreed on with a requester that offers ECDSA over P-384. -/
theorem negotiateAlgorithms_replies {s : State} (h : leAt s.input.data 8 4 &&& 0x80 = 0x80) :
    Goes .negotiateAlgorithms s (fun t => OnlyInterface s.input.who s t ∧
      (t.ifc s.input.who).doe.take 4 = [0x13, 0x63, 0, 0]) := by
  refine goes_respond (head := spdmHead 0x63 0 0) (Eq.trans (if_neg ?_) (by simp only [List.append_assoc]; rfl))
  simp [h]

theorem getDigests_replies (s : State) : Goes .getDigests s (fun t => OnlyInterface s.input.who s t ∧
    (t.ifc s.input.who).doe.take 68 =
      [0x13, 0x01, 1, 1] ++ leBytes 64 (Config.sha512 Config.certChain).toNat) := by
  refine ⟨_, rfl, onlyInterface_respond .., ?_⟩
  rw [State.doe_respond]
  exact List.take_of_length_le (by simp)

/-- A certificate of slot 0: four bytes of head, four of lengths, and the part asked for. -/
theorem getCertificate_replies {s : State} (h : leAt s.input.data 2 1 % 16 = 0) :
    Goes .getCertificate s (fun t => OnlyInterface s.input.who s t ∧
      (t.ifc s.input.who).doe.take 4 = [0x13, 0x02, 0, 0] ∧
      (t.ifc s.input.who).doe.drop 8 =
        (Config.certChain.drop (leAt s.input.data 4 2)).take (leAt s.input.data 6 2)) := by
  refine ⟨_, if_neg (not_not_intro h), onlyInterface_respond .., ?_, ?_⟩
  · rw [State.doe_respond, List.append_assoc, List.append_assoc]
    exact List.take_left' (l₁ := spdmHead 0x02 0 0) rfl
  · rw [State.doe_respond]
    exact List.drop_left' (by simp)

/-- A challenge of slot 0 takes four fresh values for its nonce and ends the messages that it signs. -/
theorem challenge_replies {s : State} (h : leAt s.input.data 2 1 = 0) :
    Goes .challenge s (fun t => (t.ifc s.input.who).doe.take 68 =
        [0x13, 0x03, 0, 1] ++ leBytes 64 (Config.sha512 Config.certChain).toNat ∧ (t.ifc s.input.who).mid = [] ∧
        t.freeCtr = s.freeCtr + 4 ∧ t.mem = s.mem) := by
  refine ⟨_, if_neg (not_not_intro h), ?_, ?_, rfl, rfl⟩
  · rw [State.doe_respond]
    simp only [List.append_assoc]
    rw [← List.append_assoc (spdmHead 0x03 0 1)]
    exact List.take_left' (by simp)
  · simp [State.respond]

/-- Every measurement at once: a block for each image, the capability record and the fuses. -/
theorem State.length_measurements (s : State) (vi : Nat) : (s.measurements vi).length = s.boot.images.length + 2 := by
  simp [State.measurements]

theorem getMeasurements_replies {s : State} (hsign : leAt s.input.data 2 1 % 2 = 1) (hall : leAt s.input.data 3 1 = 0xFF) :
    Goes .getMeasurements s (fun t => OnlyInterface s.input.who s t ∧
      (t.ifc s.input.who).doe.take 5 = [0x13, 0x60, 0, 0] ++ leBytes 1 (s.boot.images.length + 2)) := by
  refine ⟨_, if_neg (by simp [hsign, hall]), onlyInterface_respond .., ?_⟩
  rw [State.doe_respond, State.length_measurements]
  simp only [List.append_assoc]
  rw [← List.append_assoc (spdmHead 0x60 0 0)]
  exact List.take_left' (by simp)

/-- Settles O47: each clause is what its row puts in the mailbox. -/
theorem attestation : Obligations.Attestation := by
  unfold Obligations.Attestation
  rintro s vi rfl
  exact ⟨getVersion_replies s, getCapabilities_replies s, negotiateAlgorithms_replies, getDigests_replies s,
    getCertificate_replies, fun h => goes_spdmError (if_pos h), challenge_replies,
    fun h => goes_spdmError (if_pos h), getMeasurements_replies,
    fun h => goes_spdmError (if_pos h), goes_spdmError (f := id) rfl⟩

end Sys2Proof.Machine
end

section
/-! What leaves the host interface as it was: the packets that a bank sends, the end of its task, and the Chanter's
records. -/

namespace Sys2Proof.Machine

open Sys2Proof Host

/-! ### Ports and packets -/

@[simp] theorem State.setLink_host (s : State) (p : Nat) (l : Link) : (s.setLink p l).host = s.host := rfl

@[simp] theorem State.transmit_host (s : State) (p : Nat) (f : BufFlit) : (s.transmit p f).host = s.host := rfl

@[simp] theorem State.control_host (s : State) (p sub : Nat) (bs : List Byte) : (s.control p sub bs).host = s.host := by
  simp only [State.control]
  split <;> rfl

@[simp] theorem State.freeBuffer_host (s : State) (o : Option (Nat × Nat)) : (s.freeBuffer o).host = s.host := by
  cases o with
  | none => rfl
  | some x => simp [State.freeBuffer]

@[simp] theorem State.pumpLink_host (s : State) (p n : Nat) : (s.pumpLink p n).host = s.host := by
  fun_induction State.pumpLink s p n with
  | case4 s n l hopen f hf g u ih => exact ih.trans (by simp [u])
  | _ => rfl

@[simp] theorem State.putOnPort_host (s : State) (n : Nat) (p : Packet) (h : Nat) (o : Option (Nat × Nat)) :
    (s.putOnPort n p h o).host = s.host := by simp [State.putOnPort]

@[simp] theorem State.schedule_host (s : State) (i : Instr) (x : Input) : (s.schedule i x).host = s.host := rfl

@[simp] theorem State.deliver_host (s : State) (d : Nat) (p : Packet) : (s.deliver d p).host = s.host := by
  unfold State.deliver
  split <;> rfl

theorem State.send_host {s t : State} {p : Packet} (h : s.send p = some t) : t.host = s.host := by
  revert h
  fun_cases State.send s p with
  | case1 => rintro ⟨⟩; exact s.deliver_host 4 p
  | case4 => rintro ⟨⟩; exact State.putOnPort_host ..
  | _ => rintro ⟨⟩

/-! ### Remote accesses of a bank (R47, R156) -/

@[simp] theorem State.keepLine_host (s : State) (c : Nat) (k : LineKey) (va p : Nat) (d : List Byte) :
    (s.keepLine c k va p d).host = s.host := by
  simp only [State.keepLine]
  split
  · rfl
  · split <;> rfl

@[simp] theorem State.takeFor_host (s : State) (b : Nat) (a : Access) (r : RemReq) : (s.takeFor b a r).host = s.host := by
  unfold State.takeFor
  split
  · rfl
  split
  · rfl
  split <;> rfl

@[simp] theorem State.sendIn_host (s : State) (b i : Nat) (a : Access) (r : RemReq) (k : Option Nat) :
    (s.sendIn b i a r k).host = s.host := by
  simp only [State.sendIn]
  generalize hu : (if r.cached && ! a.loads then _ else s) = u
  have huh : u.host = s.host := by subst hu; split <;> rfl
  split <;> rename_i hsend
  · exact huh
  · split at hsend
    · cases hsend
    · exact (State.send_host hsend).trans huh

@[simp] theorem State.startRequest_host (s : State) (b : Nat) (a : Access) (r : RemReq) :
    (s.startRequest b a r).host = s.host := by
  unfold State.startRequest
  split
  · simp
  · simp
  · dsimp only
    split <;> simp

@[simp] theorem State.settleDrops_host (s : State) (b id : Nat) : (s.settleDrops b id).host = s.host := by
  unfold State.settleDrops
  split <;> rfl

@[simp] theorem State.landed_host (s : State) (b : Nat) (a : Access) (bs : List Byte) :
    (s.landed b a bs).host = s.host := by
  simp only [State.landed]
  split <;> rfl

@[simp] theorem State.finishRemote_host (s : State) (b id : Nat) : (s.finishRemote b id).host = s.host := by
  unfold State.finishRemote
  split
  · split <;> simp
  · rfl

@[simp] theorem State.pump_host (s : State) (b id : Nat) : (s.pump b id).host = s.host := by
  unfold State.pump
  split
  · split
    · rw [State.finishRemote_host, foldl_keeps (g := State.host), State.settleDrops_host]
      intro s r
      split <;> simp
    · rfl
  · rfl

@[simp] theorem State.pumpCore_host (s : State) (c : Nat) : (s.pumpCore c).host = s.host := by
  have hbank : ∀ (s : State) b, (s.pumpBank b).host = s.host := fun s b =>
    foldl_keeps (g := State.host) (fun s id => s.pump_host b id) _ s
  simp [State.pumpCore, hbank]

/-! ### Deliveries that are abandoned (R99) -/

@[simp] theorem State.senderBounced_host (s : State) (e : Nat) (x : Bool) : (s.senderBounced e x).host = s.host := by
  unfold State.senderBounced
  split
  · dsimp only
    split <;> rfl
  · rfl

@[simp] theorem State.releaseSpan_host (s : State) (p : Parcel) : (s.releaseSpan p).host = s.host := by
  unfold State.releaseSpan
  split
  · exact foldl_keeps (g := State.host) (f := fun s k => s.putMapBit _ (_ + k) false) (fun _ _ => rfl) _ s
  · rfl

@[simp] theorem State.freeSpan_host (s : State) (d : Delivery) : (s.freeSpan d).host = s.host := by
  simp only [State.freeSpan]
  split
  · exact s.releaseSpan_host _
  · rfl

@[simp] theorem State.failSending_host (s : State) (d : Delivery) : (s.failSending d).host = s.host := by
  unfold State.failSending
  split <;> simp

@[simp] theorem State.abandonDelivery_host (s : State) (d : Delivery) : (s.abandonDelivery d).host = s.host := by
  unfold State.abandonDelivery
  split
  · split <;> simp
  · split <;> simp

@[simp] theorem State.abandonPosts_host (s : State) (b : Nat) : (s.abandonPosts b).host = s.host := by
  refine foldl_keeps (g := State.host) (fun s d => ?_) s.parcels.deliveries s
  split
  · split <;> simp
  · rfl

/-! ### A bank is freed -/

@[simp] theorem State.endRegion_host (s : State) (b : Nat) (x : Bool) : (s.endRegion b x).host = s.host := by
  simp only [State.endRegion]
  split <;> rfl

@[simp] theorem State.dropRequester_host (s : State) (b : Nat) : (s.dropRequester b).host = s.host := rfl

@[simp] theorem State.dropJobs_host (s : State) (b : Nat) : (s.dropJobs b).host = s.host := rfl

@[simp] theorem State.mapFaulters_host (s : State) (f : List Faulter → List Faulter) : (s.mapFaulters f).host = s.host :=
  rfl

@[simp] theorem State.orphanWrites_host (s : State) (b : Nat) : (s.orphanWrites b).host = s.host := rfl

@[simp] theorem State.detach_host (s : State) (b : Nat) : (s.detach b).host = s.host := by
  simp only [State.detach, State.dropRequester_host, State.dropJobs_host, State.abandonPosts_host,
    State.endRegion_host, State.mapFaulters_host]
  exact foldl_keeps (g := State.host) (f := fun s (x : Nat × Slot) => s.updCore (coreOf b) (·.returnSlot x.1))
    (fun _ _ => rfl) _ s

@[simp] theorem State.freeBank_host (s : State) (b : Nat) (st : BankStatus) : (s.freeBank b st).host = s.host := by
  simp [State.freeBank]

@[simp] theorem State.freeOf_host (s : State) (id b : Nat) (st : BankStatus) : (s.freeOf id b st).host = s.host := by
  simp only [State.freeOf]
  split <;> simp

@[simp] theorem State.stopTask_host (s : State) (b : Nat) : (s.stopTask b).host = s.host := by simp [State.stopTask]

@[simp] theorem State.stopWaiting_host (s : State) (b : Nat) : (s.stopWaiting b).host = s.host := by
  simp only [State.stopWaiting]
  split <;> simp

@[simp] theorem State.stopGroup_host (s : State) (id : Nat) : (s.stopGroup id).host = s.host := by
  unfold State.stopGroup
  split
  · rfl
  · exact foldl_keeps (g := State.host) State.stopWaiting_host _ s

/-! ### Translation, and the hub's writes -/

@[simp] theorem State.tlbFill_host (s : State) (ps : List Nat) (n va z l : Nat) : (s.tlbFill ps n va z l).host = s.host :=
  foldl_keeps (g := State.host) (f := fun s _ => s.tlbPut _) (fun _ _ => rfl) ps s

@[simp] theorem State.tlbFill_mem (s : State) (ps : List Nat) (n va z l : Nat) : (s.tlbFill ps n va z l).mem = s.mem :=
  foldl_keeps (g := State.mem) (f := fun s _ => s.tlbPut _) (fun _ _ => rfl) ps s

@[simp] theorem State.translate_host (s : State) (b : Option Nat) (x : Bool) (n va : Nat) (k : AccKind) :
    (s.translate b x n va k).1.host = s.host := by
  simp only [State.translate]
  split
  · rfl
  · split
    · rfl
    · exact State.tlbFill_host ..

@[simp] theorem State.translate_mem (s : State) (b : Option Nat) (x : Bool) (n va : Nat) (k : AccKind) :
    (s.translate b x n va k).1.mem = s.mem := by
  simp only [State.translate]
  split
  · rfl
  · split
    · rfl
    · exact State.tlbFill_mem ..

/-- A fault that is collected changes the collections alone. -/
theorem State.collect_eq (s : State) (d n va k : Nat) (f : Option Faulter) :
    ∃ x, s.collect d n va k f = { s with faults := x } := by
  unfold State.collect
  generalize (if d = 4 then s.present.headD 0 else d) = e
  dsimp only
  by_cases h : s.faults.delivered.any (fun b => decide (b.die = e) && b.ranges.any (fun r => r.has n va k)) = true
  · exact ⟨_, if_pos h⟩
  · exact ⟨_, if_neg h⟩

@[simp] theorem State.collect_mem (s : State) (d n va k : Nat) (f : Option Faulter) :
    (s.collect d n va k f).mem = s.mem := by
  obtain ⟨x, hx⟩ := s.collect_eq d n va k f
  rw [hx]

@[simp] theorem State.enqueue_host (s : State) (n id pa : Nat) : (s.enqueue n id pa).host = s.host := by
  simp only [State.enqueue]
  split
  · rfl
  · split <;> rfl

@[simp] theorem State.issueQueued_host (s : State) (n : Nat) (t : WriteTag) (l : List (Nat × List Byte)) :
    (s.issueQueued n t l).host = s.host := by
  fun_induction State.issueQueued s n t l with
  | case1 => rfl
  | case2 s t a bs rest ih => simpa using ih

@[simp] theorem State.markGranule_host (s : State) (n va : Nat) : (s.markGranule n va).host = s.host := by
  simp only [State.markGranule]
  split
  · split <;> rfl
  · rfl

@[simp] theorem State.markDirty_host (s : State) (n va k : Nat) : (s.markDirty n va k).host = s.host := by
  unfold State.markDirty
  split
  · rfl
  · exact foldl_keeps (g := State.host) (fun s k => s.markGranule_host n _) _ s

/-! ### Tokens, and the completion line of a group -/

@[simp] theorem State.setBalance_host (s : State) (n v : Nat) : (s.setBalance n v).host = s.host := by
  unfold State.setBalance
  split <;> rfl

@[simp] theorem State.refund_host (s : State) (g : Group) : (s.refund g).host = s.host := by
  unfold State.refund
  split
  · rfl
  · simp [State.addTokens]

@[simp] theorem State.writeLine_host (s : State) (g : Group) : (s.writeLine g).host = s.host := by
  simp only [State.writeLine]
  split
  · rfl
  · split <;> simp

end Sys2Proof.Machine
end

section
/-! The pre-copy job of an interface: what an entry, the end of a group and a stop leave of it, and what a job's own
operations make of it. -/

namespace Sys2Proof.Machine

open Sys2Proof Host

/-! ### Interfaces -/

theorem State.ifc_congr {s t : State} (h : t.host = s.host) (n : Nat) : t.ifc n = s.ifc n := by simp [State.ifc, h]

@[simp] theorem State.ifc_setIfc_same (s : State) (n : Nat) (v : Vi) : (s.setIfc n v).ifc n = v := by
  simp [State.ifc, State.setIfc]

theorem State.ifc_setIfc_ne (s : State) {n m : Nat} (v : Vi) (h : m ≠ n) : (s.setIfc n v).ifc m = s.ifc m := by
  simp [State.ifc, State.setIfc, KV.get_put_ne _ h]

theorem State.ifc_hostMem (s : State) (x : Memory) (n : Nat) :
    ({ s with host := { s.host with mem := x } } : State).ifc n = s.ifc n := rfl

theorem Vi.cqOn_congr {v w : Vi} (h : w.cqCtl = v.cqCtl) : w.cqOn = v.cqOn := by simp [Vi.cqOn, h]

/-- An update of an interface that leaves its job leaves every interface's. -/
theorem State.precopy_updIfc {s : State} {n : Nat} {f : Vi → Vi} (h : (f (s.ifc n)).precopy = (s.ifc n).precopy) (m : Nat) :
    ((s.updIfc n f).ifc m).precopy = (s.ifc m).precopy := by
  by_cases hm : m = n
  · subst hm
    rw [State.ifc_updIfc_same, h]
  · rw [s.ifc_updIfc_ne f hm]

/-! ### Completion entries (R57) -/

@[simp] theorem State.releaseWrite_host (s : State) (t : WriteTag) (n : Nat) : (s.releaseWrite t n).host = s.host := rfl

/-- The registers of an interface after one more completion entry. -/
def Vi.tookEntry (v : Vi) : Vi :=
  let tail := (v.cqTail + 1) % v.entries
  { v with cqTail := tail, pass := if tail = 0 then v.pass + 1 else v.pass, unread := v.unread + 1 }

/-- A completion entry, where the area is on: one more that the host has not consumed, and a message. -/
theorem State.ifc_complete {s : State} {n : Nat} (h : (s.ifc n).cqOn = true) (kind window reason seq task line : Nat) :
    (s.complete n kind window reason seq task line).ifc n =
      (s.ifc n).tookEntry.raise (s.ifc n).tookEntry.cqVector := by
  simp only [State.complete, h, Bool.not_true, Bool.false_eq_true, if_false]
  exact (State.ifc_congr (State.releaseWrite_host ..) n).trans (State.ifc_setIfc_same _ n _)

theorem State.complete_off {s : State} {n : Nat} (h : (s.ifc n).cqOn = false) (kind window reason seq task line : Nat) :
    s.complete n kind window reason seq task line = s := by
  simp [State.complete, h]

theorem State.ifc_complete_ne (s : State) {n m : Nat} (hm : m ≠ n) (kind window reason seq task line : Nat) :
    (s.complete n kind window reason seq task line).ifc m = s.ifc m := by
  simp only [State.complete]
  split
  · rfl
  · exact (State.ifc_congr (State.releaseWrite_host ..) m).trans
      ((State.ifc_setIfc_ne _ _ hm).trans (State.ifc_hostMem ..))

@[simp] theorem State.complete_mem (s : State) (n kind window reason seq task line : Nat) :
    (s.complete n kind window reason seq task line).mem = s.mem := by
  simp only [State.complete]
  split <;> rfl

@[simp] theorem State.complete_parcels (s : State) (n kind window reason seq task line : Nat) :
    (s.complete n kind window reason seq task line).parcels = s.parcels := by
  simp only [State.complete]
  split <;> rfl

@[simp] theorem State.precopy_complete (s : State) (n kind window reason seq task line m : Nat) :
    ((s.complete n kind window reason seq task line).ifc m).precopy = (s.ifc m).precopy := by
  by_cases hm : m = n
  · subst hm
    cases hon : (s.ifc m).cqOn with
    | false => rw [s.complete_off hon]
    | true =>
      rw [s.ifc_complete hon, Vi.raise_precopy]
      rfl
  · rw [s.ifc_complete_ne hm]

@[simp] theorem State.precopy_unreserve (s : State) (n m : Nat) : ((s.unreserve n).ifc m).precopy = (s.ifc m).precopy :=
  State.precopy_updIfc rfl m

/-! ### Groups that end or stop -/

@[simp] theorem State.precopy_writeEnd (s : State) (g : Group) (m : Nat) :
    ((s.writeEnd g).ifc m).precopy = (s.ifc m).precopy := by
  simp only [State.writeEnd]
  split
  · rw [State.ifc_congr (State.dropGroup_host ..)]
    simp
  · rfl

@[simp] theorem State.precopy_finishGroup (s : State) (id m : Nat) :
    ((s.finishGroup id).ifc m).precopy = (s.ifc m).precopy := by
  have hline : ∀ g, ((s.writeLine g).ifc m).precopy = (s.ifc m).precopy := fun g => by
    rw [State.ifc_congr (s.writeLine_host g)]
  unfold State.finishGroup
  split
  · rfl
  split
  · rfl
  split
  · simp
  · dsimp only
    split
    · split <;> simp [hline]
    · exact hline _

/-- A kill of a group leaves the job of every interface. -/
@[simp] theorem State.precopy_killGroup (s : State) (id reason m : Nat) :
    ((s.killGroup id reason).ifc m).precopy = (s.ifc m).precopy := by
  unfold State.killGroup
  split
  · rfl
  split
  · rfl
  · dsimp only
    unfold State.finishGroups
    refine (foldl_keeps (g := fun s : State => (s.ifc m).precopy)
      (fun s (g : Nat × Group) => s.precopy_finishGroup g.1 m) _ _).trans ?_
    refine congrArg Vi.precopy (State.ifc_congr ?_ m)
    split
    · split
      · rw [State.refund_host, foldl_keeps (g := State.host) (fun s b => s.freeOf_host id b .scrubbing)]
        rfl
      · rw [foldl_keeps (g := State.host) (fun s b => s.freeOf_host id b .scrubbing)]
        rfl
    · rw [foldl_keeps (g := State.host) (fun s b => s.freeOf_host id b .scrubbing)]
      rfl

@[simp] theorem State.precopy_stopForMigration (s : State) (g : Group) (m : Nat) :
    ((s.stopForMigration g).ifc m).precopy = (s.ifc m).precopy := by
  have hstop : ∀ h : Group, (((s.putGroup h).stopGroup g.id).ifc m).precopy = (s.ifc m).precopy := fun h => by
    rw [State.ifc_congr (State.stopGroup_host _ g.id)]
    rfl
  unfold State.stopForMigration
  split
  · rfl
  split
  · simp
  split
  · split
    · exact hstop _
    · rfl
  split
  · rfl
  split
  · rfl
  split
  · exact hstop _
  · rfl

/-! ### Tasks that stop where no watchdog has run out -/

/-- No task's watchdog has run out in the present ac (R74). -/
def State.quiet (s : State) : Prop := ∀ b, (s.bank b).now.barked = false

theorem State.barkedNow_of_quiet {s : State} (h : s.quiet) (id : Nat) : s.barkedNow id = false := by
  unfold State.barkedNow
  split
  · simp [h _]
  · rfl

/-- A step keeps memory, and no watchdog runs out in it. -/
def KeepsQuiet (s t : State) : Prop := t.mem = s.mem ∧ (s.quiet → t.quiet)

theorem KeepsQuiet.refl (s : State) : KeepsQuiet s s := ⟨rfl, id⟩

theorem KeepsQuiet.trans {s t u : State} (h : KeepsQuiet s t) (k : KeepsQuiet t u) : KeepsQuiet s u :=
  ⟨k.1.trans h.1, k.2 ∘ h.2⟩

theorem KeepsQuiet.of_eq {s t : State} (hmem : t.mem = s.mem) (hbanks : t.banks = s.banks) : KeepsQuiet s t :=
  ⟨hmem, fun h b => by rw [State.bank, hbanks]; exact h b⟩

theorem KeepsQuiet.updBank (s : State) (b : Nat) {f : Bank → Bank} (h : ∀ B, (f B).now.barked = B.now.barked) :
    KeepsQuiet s (s.updBank b f) := by
  refine ⟨rfl, fun hs c => ?_⟩
  by_cases hc : c = b
  · subst hc
    rw [State.bank_updBank_same, h]
    exact hs c
  · rw [State.bank_updBank_ne _ _ hc]
    exact hs c

theorem KeepsQuiet.foldl {α : Type} {f : State → α → State} (h : ∀ s a, KeepsQuiet s (f s a)) (l : List α) (s : State) :
    KeepsQuiet s (l.foldl f s) := by
  induction l generalizing s with
  | nil => exact .refl s
  | cons a l ih => exact (h s a).trans (ih _)

theorem keepsQuiet_endRegion (s : State) (b : Nat) (x : Bool) : KeepsQuiet s (s.endRegion b x) := by
  simp only [State.endRegion]
  split
  · exact .refl s
  · exact KeepsQuiet.trans (.of_eq rfl rfl) (.updBank _ b fun _ => rfl)

theorem keepsQuiet_stopTask (s : State) (b : Nat) : KeepsQuiet s (s.stopTask b) :=
  (keepsQuiet_endRegion s b false).trans (KeepsQuiet.trans (.of_eq rfl rfl) (.updBank _ b fun _ => rfl))

theorem keepsQuiet_stopGroup (s : State) (id : Nat) : KeepsQuiet s (s.stopGroup id) := by
  unfold State.stopGroup
  split
  · exact .refl s
  · refine .foldl (fun s b => ?_) _ s
    simp only [State.stopWaiting]
    split
    · exact keepsQuiet_stopTask s b
    · exact .refl s

/-- Where no watchdog has run out, a group of a job is marked or its waiting tasks stop, and memory stays (R64). -/
theorem keepsQuiet_stopForMigration {s : State} (h : s.quiet) (g : Group) : KeepsQuiet s (s.stopForMigration g) := by
  have hstop : ∀ k : Group, KeepsQuiet s ((s.putGroup k).stopGroup g.id) := fun k =>
    KeepsQuiet.trans (.of_eq rfl rfl) (keepsQuiet_stopGroup _ g.id)
  unfold State.stopForMigration
  split
  · exact .refl s
  rw [s.barkedNow_of_quiet h g.id, if_neg Bool.false_ne_true]
  split
  · split
    · exact hstop _
    · exact .refl s
  split
  · exact .refl s
  split
  · exact .of_eq rfl rfl
  split
  · exact hstop _
  · exact .refl s

theorem mem_foldl_stopForMigration {s : State} (h : s.quiet) (l : List (Nat × Group)) :
    (l.foldl (fun s g => s.stopForMigration g.2) s).mem = s.mem := by
  induction l generalizing s with
  | nil => rfl
  | cons g l ih =>
    obtain ⟨hmem, hquiet⟩ := keepsQuiet_stopForMigration h g.2
    exact (ih (hquiet h)).trans hmem

/-! ### The job itself -/

@[simp] theorem State.precopy_putJob64 (s : State) (vi : Nat) (p : Precopy) :
    ((s.putJob64 vi p).ifc vi).precopy = some p := by simp [State.putJob64]

theorem onlyInterface_putJob64 (s : State) (vi : Nat) (p : Precopy) : OnlyInterface vi s (s.putJob64 vi p) :=
  onlyInterface_updIfc ..

@[simp] theorem State.precopy_migrationEvent (s : State) (vi : Nat) (p : Precopy) (ph : MigPhase) :
    ((s.migrationEvent vi p ph).ifc vi).precopy = some { p with phase := ph, begun := false } := by
  simp [State.migrationEvent, State.raiseVector]

theorem onlyInterface_migrationEvent (s : State) (vi : Nat) (p : Precopy) (ph : MigPhase) :
    OnlyInterface vi s (s.migrationEvent vi p ph) :=
  (onlyInterface_putJob64 s vi { p with phase := ph, begun := false }).trans (onlyInterface_updIfc _ vi (·.raise 63))

@[simp] theorem State.migrationEvent_parcels (s : State) (vi : Nat) (p : Precopy) (ph : MigPhase) :
    (s.migrationEvent vi p ph).parcels = s.parcels := rfl

@[simp] theorem State.migrationEvent_mem (s : State) (vi : Nat) (p : Precopy) (ph : MigPhase) :
    (s.migrationEvent vi p ph).mem = s.mem := rfl

@[simp] theorem State.unread_migrationEvent (s : State) (vi : Nat) (p : Precopy) (ph : MigPhase) :
    ((s.migrationEvent vi p ph).ifc vi).unread = (s.ifc vi).unread := by
  simp [State.migrationEvent, State.raiseVector, State.putJob64]

end Sys2Proof.Machine
end

section
/-! Pre-copy migration: the start of a job, its rounds, and how it ends (O48). -/

namespace Sys2Proof.Machine

open Sys2Proof Host

/-! ### PRECOPY_JOB_START -/

theorem precopyJobStart_source {s : State} (hok : s.input.ok = true) (hno : (s.ifc s.input.who).noPrecopy = true) :
    Goes .precopyJobStart s (fun t => t.mem = s.mem ∧
      ∃ p, (t.ifc s.input.who).precopy = some p ∧ p.phase = .rounds ∧ p.threshold = s.input.sub ∧
        p.limit = s.input.third ∧ p.job = s.host.nextJob ∧ p.count = 0 ∧ t.host.nextJob = s.host.nextJob + 1) := by
  have hrow : exec .precopyJobStart s = execPrecopyJobStart s := rfl
  rw [Goes, hrow]
  simp only [execPrecopyJobStart, hok, hno, Bool.not_true, Bool.false_eq_true, if_false, if_true]
  exact ⟨_, rfl, rfl, _, State.precopy_migrationEvent .., rfl, rfl, rfl, rfl, rfl, rfl⟩

theorem precopyJobStart_destination {s : State} (hok : s.input.ok = false) :
    Goes .precopyJobStart s (fun t => t.mem = s.mem ∧
      ∃ x, (t.ifc s.input.who).session = some x ∧ x.job = s.input.size ∧ x.resend = []) := by
  have hrow : exec .precopyJobStart s = execPrecopyJobStart s := rfl
  rw [Goes, hrow]
  simp only [execPrecopyJobStart, hok, Bool.not_false, if_true]
  exact ⟨_, rfl, rfl, _, congrArg Vi.session (State.ifc_updIfc_same ..), rfl, rfl⟩

/-! ### PRECOPY_ROUND: the snapshot (R62) and what is sent (R63) -/

/-- Memory without the bytes at some addresses: those read as unlisted, the others as before. -/
theorem Memory.read_filter (m : Memory) (p : Nat → Bool) (a : Nat) :
    Memory.read (m.filter (fun c => p c.1)) a = if p a then m.read a else 0 := by
  induction m with
  | nil => simp [Memory.read, Memory.unlisted]
  | cons c m ih =>
    obtain ⟨k, v⟩ := c
    by_cases hk : k = a
    · subst hk
      by_cases hp : p k = true
      · simp [hp, Memory.read]
      · simpa [hp] using ih
    · by_cases hp : p k = true
      · simpa [hp, Memory.read, hk] using ih
      · simpa [hp, Memory.read, hk] using ih

/-- A snapshot takes the bytes of the range's bitmap out of memory, and changes nothing else. -/
theorem State.snapAll_eq {s u : State} {vi : Nat} {gs : List Nat} (h : s.snapAll vi = some (u, gs)) :
    u = { s with mem := s.mem.filter (fun c => ! decide ((s.dirtyMap vi).1 ≤ c.1 ∧ c.1 < (s.dirtyMap vi).2)) } := by
  simp only [State.snapAll] at h
  split at h
  · cases h
  · exact (congrArg Prod.fst (Option.some.inj h)).symm

theorem State.read_snapAll {s u : State} {vi : Nat} {gs : List Nat} (h : s.snapAll vi = some (u, gs)) (a : Nat) :
    u.mem.read a = if (s.dirtyMap vi).1 ≤ a ∧ a < (s.dirtyMap vi).2 then 0 else s.mem.read a := by
  rw [State.snapAll_eq h]
  refine (Memory.read_filter s.mem (fun k => ! decide ((s.dirtyMap vi).1 ≤ k ∧ k < (s.dirtyMap vi).2)) a).trans ?_
  by_cases hin : (s.dirtyMap vi).1 ≤ a ∧ a < (s.dirtyMap vi).2 <;> simp [hin]

/-- Of a job, sending changes the count of messages alone, and memory stays. -/
theorem State.sendGranule_keeps (s : State) (vi : Nat) (p : Precopy) (va : Nat) :
    (s.sendGranule vi p va).1.mem = s.mem ∧
      ∀ q, (s.sendGranule vi p va).2 = some q → ∃ n, q = { p with count := n } := by
  have hmem := s.translate_mem none false vi va .read
  unfold State.sendGranule
  split <;> rename_i hx <;> rw [hx] at hmem
  · exact ⟨(State.collect_mem ..).trans hmem, fun q hq => nomatch hq⟩
  · exact ⟨hmem, fun q hq => ⟨_, (Option.some.inj hq).symm⟩⟩
  · exact ⟨hmem, fun q hq => ⟨p.count, (Option.some.inj hq).symm⟩⟩

theorem State.sendAll_keeps (s : State) (vi : Nat) (p : Precopy) (left gs : List Nat) :
    (s.sendAll vi p left gs).1.mem = s.mem ∧ ∃ n, (s.sendAll vi p left gs).2.1 = { p with count := n } := by
  induction gs generalizing s p left with
  | nil => exact ⟨rfl, p.count, rfl⟩
  | cons g gs ih =>
    obtain ⟨hmem, hjob⟩ := s.sendGranule_keeps vi p (s.granuleVa vi g)
    unfold State.sendAll
    split <;> rename_i hsend <;> rw [hsend] at hmem hjob
    · obtain ⟨n, rfl⟩ := hjob _ rfl
      obtain ⟨hmem', k, hk⟩ := ih _ { p with count := n } left
      exact ⟨hmem'.trans hmem, k, hk⟩
    · obtain ⟨hmem', hk⟩ := ih _ p (left ++ [g])
      exact ⟨hmem'.trans hmem, hk⟩

theorem State.sendTodo_keeps (s : State) (vi : Nat) (p : Precopy) : (s.sendTodo vi p).mem = s.mem ∧
    ∃ n left, ((s.sendTodo vi p).ifc vi).precopy = some { p with count := n, todo := left } := by
  obtain ⟨hmem, n, hn⟩ := s.sendAll_keeps vi p [] p.todo
  refine ⟨hmem, n, (s.sendAll vi p [] p.todo).2.2, ?_⟩
  simp [State.sendTodo, hn]

theorem State.sendParcels_keeps (s : State) (vi : Nat) (p : Precopy) : (s.sendParcels vi p).1.mem = s.mem ∧
    ∃ l, (s.sendParcels vi p).2 = { p with parcels := l } := by
  unfold State.sendParcels
  split
  · exact ⟨rfl, p.parcels, rfl⟩
  · exact ⟨rfl, _, rfl⟩

/-- A round that begins: the snapshot, the parcels that move with the last one, and the granules reported. -/
theorem exec_precopyRound_begins {s u : State} {p : Precopy} {gs : List Nat}
    (hjob : (s.ifc s.input.who).precopy = some p) (hsends : p.sends = true) (hlist : s.input.list = [])
    (hbegun : p.begun = false) (hsnap : s.snapAll s.input.who = some (u, gs)) :
    let x := u.sendParcels s.input.who p
    exec .precopyRound s = .next (x.1.sendTodo s.input.who
      { x.2 with begun := true, round := x.2.round + 1, reported := gs.length, todo := gs }) := by
  show execPrecopyRound s = _
  simp [execPrecopyRound, hjob, hsends, hlist, hbegun, hsnap]

theorem precopyRound_begins {s u : State} {p : Precopy} {gs : List Nat}
    (hjob : (s.ifc s.input.who).precopy = some p) (hsends : p.sends = true) (hlist : s.input.list = [])
    (hbegun : p.begun = false) (hsnap : s.snapAll s.input.who = some (u, gs)) :
    Goes .precopyRound s (fun t => t.mem = u.mem ∧
      ∃ q, (t.ifc s.input.who).precopy = some q ∧ q.begun = true ∧ q.round = p.round + 1 ∧ q.reported = gs.length ∧
        q.phase = p.phase) := by
  obtain ⟨hpm, l, hl⟩ := u.sendParcels_keeps s.input.who p
  have hrow := exec_precopyRound_begins hjob hsends hlist hbegun hsnap
  simp only [hl] at hrow
  obtain ⟨hmem, n, left, hq⟩ := (u.sendParcels s.input.who p).1.sendTodo_keeps s.input.who
    { p with parcels := l, begun := true, round := p.round + 1, reported := gs.length, todo := gs }
  exact ⟨_, hrow, hmem.trans hpm, _, hq, rfl, rfl, rfl, rfl⟩

/-! ### GRANULE_MESSAGE (R63, R78) -/

@[simp] theorem State.issuePieces_mem (s : State) (t : WriteTag) (l : List (Nat × List Byte)) :
    (s.issuePieces t l).mem = s.mem := by
  fun_induction State.issuePieces s t l with
  | case1 => rfl
  | case2 s t a bs rest ih => exact ih

theorem State.mem_writes_issuePieces {s : State} {w : Write} (h : w ∈ s.writes) (t : WriteTag) (l : List (Nat × List Byte)) :
    w ∈ (s.issuePieces t l).writes := by
  fun_induction State.issuePieces s t l with
  | case1 => exact h
  | case2 s t a bs rest ih => exact ih (List.mem_append_left _ h)

/-- Each piece is a write in flight of its own. -/
theorem State.issuePieces_writes (s : State) (t : WriteTag) {l : List (Nat × List Byte)} {y : Nat × List Byte} (h : y ∈ l) :
    ∃ w, w ∈ (s.issuePieces t l).writes ∧ w.addr = y.1 ∧ w.bytes = y.2 := by
  fun_induction State.issuePieces s t l with
  | case1 => cases h
  | case2 s t a bs rest ih =>
    obtain rfl | hr := List.mem_cons.mp h
    · exact ⟨t.make s.nextId a bs, State.mem_writes_issuePieces (List.mem_append_right _ (List.mem_singleton.mpr rfl)) _ _,
        rfl, rfl⟩
    · exact ih hr

/-- What the key of a session makes of a granule message. -/
def Session.opened (x : Session) (m : GranuleMsg) : Option (List Byte) :=
  Config.gcmOpen x.key (granuleNonce m.job m.count) (granuleAad m.vi m.va m.round) m.cipher m.tag

theorem granuleMessage_reported {s : State} {x : Session} (h1 : s.input.size ≠ 1) (h2 : s.input.size ≠ 2)
    (hsession : (s.ifc s.input.who).session = some x) (hopen : x.opened s.input.granule = none) :
    Goes .granuleMessage s (fun t => OnlyInterface s.input.who s t ∧
      ∃ y, (t.ifc s.input.who).session = some y ∧ y.resend = x.resend ++ [s.input.granule.va]) := by
  rw [Session.opened] at hopen
  have hrow : exec .granuleMessage s = execGranuleMessage s := rfl
  rw [Goes, hrow]
  simp only [execGranuleMessage, hsession, h1, h2, hopen, if_false]
  exact ⟨_, rfl, onlyInterface_updIfc .., _, congrArg Vi.session (State.ifc_updIfc_same ..), rfl⟩

theorem granuleMessage_written {s u : State} {x : Session} {bs : List Byte} {pa k : Nat} (h1 : s.input.size ≠ 1)
    (h2 : s.input.size ≠ 2) (hsession : (s.ifc s.input.who).session = some x)
    (hopen : x.opened s.input.granule = some bs)
    (hx : s.translate none false s.input.who (s.input.granule.va / 4096 * 4096) .write = (u, .phys pa k)) :
    Goes .granuleMessage s (fun t => t.mem = u.mem ∧ ∀ y, y ∈ linePieces 4096 pa (bs.take 4096) →
      ∃ w, w ∈ t.writes ∧ w.addr = y.1 ∧ w.bytes = y.2) := by
  rw [Session.opened] at hopen
  have hrow : exec .granuleMessage s = execGranuleMessage s := rfl
  rw [Goes, hrow]
  simp only [execGranuleMessage, hsession, h1, h2, hopen, hx, if_false]
  exact ⟨_, rfl, State.issuePieces_mem .., fun y hy => State.issuePieces_writes _ _ hy⟩

theorem granuleMessage_key {s : State} {x : Session} (h2 : s.input.size = 2) (hok : s.input.ok = true)
    (hsession : (s.ifc s.input.who).session = some x) :
    Goes .granuleMessage s (fun t => OnlyInterface s.input.who s t ∧
      (t.ifc s.input.who).contextKey = some (BitVec.ofNat 256 (ofLeBytes s.input.data))) := by
  have hrow : exec .granuleMessage s = .next (s.updIfc s.input.who (fun v =>
      { v with contextKey := some (BitVec.ofNat 256 (ofLeBytes s.input.data)) })) := by
    show execGranuleMessage s = _
    simp [execGranuleMessage, hsession, h2, hok]
  exact ⟨_, hrow, onlyInterface_updIfc .., congrArg Vi.contextKey (State.ifc_updIfc_same ..)⟩

/-! ### PRECOPY_ROUND_END (R64) -/

theorem State.takeParked_keeps (s : State) (vi : Nat) (p : Precopy) : KeepsQuiet s (s.takeParked vi p).1 := .of_eq rfl rfl

/-- The last round's end: the job takes the groups that a pre-emption has stopped, and its interface's others stop. -/
theorem exec_precopyRoundEnd_stops {s : State} {p : Precopy} (hjob : (s.ifc s.input.who).precopy = some p)
    (hbegun : p.begun = true) (htodo : p.todo = []) (hphase : p.phase = .rounds)
    (hfew : p.reported ≤ p.threshold ∨ p.limit ≤ p.round) :
    let x := s.takeParked s.input.who p
    let t := x.1.migrationEvent s.input.who x.2 .stopping
    exec .precopyRoundEnd s = .next ((t.chanter.groups.filter (fun g => decide (g.2.vi = s.input.who))).foldl
      (fun s g => s.stopForMigration g.2) t) := by
  show execPrecopyRoundEnd s = _
  simp [execPrecopyRoundEnd, hjob, hbegun, htodo, hphase, hfew]

theorem precopyRoundEnd_stops {s : State} {p : Precopy} (hjob : (s.ifc s.input.who).precopy = some p)
    (hbegun : p.begun = true) (htodo : p.todo = []) (hphase : p.phase = .rounds)
    (hfew : p.reported ≤ p.threshold ∨ p.limit ≤ p.round) :
    Goes .precopyRoundEnd s (fun t => ((∀ b, (s.bank b).now.barked = false) → t.mem = s.mem) ∧
      ∃ q, (t.ifc s.input.who).precopy = some q ∧ q.phase = .stopping ∧ q.begun = false) := by
  refine ⟨_, exec_precopyRoundEnd_stops hjob hbegun htodo hphase hfew, fun hq => ?_, ?_⟩
  · refine mem_foldl_stopForMigration ?_ _
    exact (KeepsQuiet.trans (s.takeParked_keeps s.input.who p) (.of_eq rfl rfl)).2 hq
  · refine ⟨_, (foldl_keeps (g := fun s : State => (s.ifc _).precopy)
      (fun s (g : Nat × Group) => s.precopy_stopForMigration g.2 _) _ _).trans (State.precopy_migrationEvent ..), rfl, rfl⟩

theorem precopyRoundEnd_goesOn {s : State} {p : Precopy} (hjob : (s.ifc s.input.who).precopy = some p)
    (hbegun : p.begun = true) (htodo : p.todo = []) (hphase : p.phase = .rounds) (hmany : p.threshold < p.reported)
    (hround : p.round < p.limit) :
    Goes .precopyRoundEnd s (fun t => OnlyInterface s.input.who s t ∧
      ∃ q, (t.ifc s.input.who).precopy = some q ∧ q.phase = .rounds ∧ q.begun = false) := by
  have hrow : exec .precopyRoundEnd s = .next (s.putJob64 s.input.who { p with begun := false }) := by
    show execPrecopyRoundEnd s = _
    simp [execPrecopyRoundEnd, hjob, hbegun, htodo, hphase, Nat.not_le.mpr hmany, Nat.not_le.mpr hround]
  exact ⟨_, hrow, onlyInterface_putJob64 .., _, State.precopy_putJob64 .., hphase, rfl⟩

theorem onlyInterface_sendRecords (s : State) (vi : Nat) (p : Precopy) : OnlyInterface vi s (s.sendRecords vi p) :=
  OnlyInterface.trans ⟨rfl, rfl, fun _ _ => rfl⟩ (onlyInterface_putJob64 ..)

theorem precopyRoundEnd_sendsRecords {s : State} {p : Precopy} (hjob : (s.ifc s.input.who).precopy = some p)
    (hbegun : p.begun = true) (htodo : p.todo = []) (hphase : p.phase = .final) (hsent : p.sent = false) :
    Goes .precopyRoundEnd s (fun t => OnlyInterface s.input.who s t ∧
      t.host.records = s.host.records ++ p.gone.flatMap (fun x => x.2.map (fun r => (p.job, r.bytes))) ∧
      (t.ifc s.input.who).precopy = some { p with sent := true }) := by
  have hrow : exec .precopyRoundEnd s = .next (s.sendRecords s.input.who p) := by
    show execPrecopyRoundEnd s = _
    simp [execPrecopyRoundEnd, hjob, hbegun, htodo, hphase, hsent]
  exact ⟨_, hrow, onlyInterface_sendRecords .., rfl, State.precopy_putJob64 ..⟩

/-! ### STOPPING, FINAL and what follows (R64) -/

theorem stoppingComplete_ends {s : State} {p : Precopy} (hjob : (s.ifc s.input.who).precopy = some p)
    (hphase : p.phase = .stopping) (hopen : s.openGroups s.input.who = []) :
    Goes .stoppingComplete s (fun t => OnlyInterface s.input.who s t ∧
      ∃ q, (t.ifc s.input.who).precopy = some q ∧ q.phase = .final ∧ q.stopped = p.stopped) := by
  have hrow : exec .stoppingComplete s = .next (s.migrationEvent s.input.who p .final) := by
    show execStoppingComplete s = _
    simp [execStoppingComplete, hjob, hphase, hopen]
  exact ⟨_, hrow, onlyInterface_migrationEvent .., _, State.precopy_migrationEvent .., rfl, rfl⟩

/-- The entry of kind 6 of a group that the destination has restored. -/
def State.restoredEntry (vi : Nat) (s : State) (x : Group × List Saved) : State :=
  (s.complete vi 6 x.1.window 0 x.1.seq x.1.id (recLine x.1.record)).unreserve vi

@[simp] theorem State.restoredEntry_mem (vi : Nat) (s : State) (x : Group × List Saved) :
    (s.restoredEntry vi x).mem = s.mem := by simp [State.restoredEntry, State.unreserve]

@[simp] theorem State.restoredEntry_parcels (vi : Nat) (s : State) (x : Group × List Saved) :
    (s.restoredEntry vi x).parcels = s.parcels := by simp [State.restoredEntry, State.unreserve]

/-- One entry more for the host, where the area is on, which it stays. -/
theorem State.ifc_restoredEntry {vi : Nat} {s : State} (h : (s.ifc vi).cqOn = true) (x : Group × List Saved) :
    ((s.restoredEntry vi x).ifc vi).unread = (s.ifc vi).unread + 1 ∧ ((s.restoredEntry vi x).ifc vi).cqOn = true := by
  rw [State.restoredEntry, State.unreserve, State.ifc_updIfc_same, s.ifc_complete h]
  exact ⟨Vi.raise_unread _ _, (Vi.cqOn_congr (Vi.raise_cqCtl _ _)).trans h⟩

theorem State.unread_restoredEntries {vi : Nat} {s : State} (h : (s.ifc vi).cqOn = true) (l : List (Group × List Saved)) :
    ((l.foldl (State.restoredEntry vi) s).ifc vi).unread = (s.ifc vi).unread + l.length := by
  induction l generalizing s with
  | nil => rfl
  | cons x l ih =>
    obtain ⟨hunread, hon⟩ := s.ifc_restoredEntry h x
    rw [List.foldl_cons, ih hon, hunread, List.length_cons]
    omega

theorem exec_restoreCompleteReport_frees {s : State} {p : Precopy} (hjob : (s.ifc s.input.who).precopy = some p)
    (hphase : p.phase = .final) (hsent : p.sent = true) :
    exec .restoreCompleteReport s = .next ((p.gone.foldl (State.restoredEntry s.input.who)
      (s.freeTenant s.input.who p)).migrationEvent s.input.who
        { p with stopped := [], parked := [], key := 0, parcels := [] } .done) := by
  show execRestoreCompleteReport s = _
  simp only [execRestoreCompleteReport, hjob, hphase, hsent]
  rfl

theorem restoreCompleteReport_frees {s : State} {p : Precopy} (hjob : (s.ifc s.input.who).precopy = some p)
    (hphase : p.phase = .final) (hsent : p.sent = true) :
    Goes .restoreCompleteReport s (fun t => t.mem = s.mem ∧
      (∀ q, q ∈ t.parcels.table ↔ q ∈ s.parcels.table ∧ q.tenant ≠ s.input.who) ∧
      ((s.ifc s.input.who).cqOn = true → (t.ifc s.input.who).unread = (s.ifc s.input.who).unread + p.gone.length) ∧
      ∃ q, (t.ifc s.input.who).precopy = some q ∧ q.phase = .done ∧ q.gone = []) := by
  refine ⟨_, exec_restoreCompleteReport_frees hjob hphase hsent, ?_, fun q => ?_, fun hon => ?_,
    _, State.precopy_migrationEvent .., rfl, rfl⟩
  · rw [State.migrationEvent_mem, foldl_keeps (g := State.mem) (State.restoredEntry_mem s.input.who)]
    rfl
  · rw [State.migrationEvent_parcels, foldl_keeps (g := State.parcels) (State.restoredEntry_parcels s.input.who)]
    simp [State.freeTenant]
  · rw [State.unread_migrationEvent]
    exact State.unread_restoredEntries (s := s.freeTenant s.input.who p) hon p.gone

theorem exec_restoreCompleteReport_early {s : State} {p : Precopy} (hjob : (s.ifc s.input.who).precopy = some p)
    (hsent : p.sent = false) : exec .restoreCompleteReport s = .next s := by
  show execRestoreCompleteReport s = _
  simp [execRestoreCompleteReport, hjob, hsent]

theorem restoreFailedReport_fails {s : State} {p : Precopy} (hjob : (s.ifc s.input.who).precopy = some p)
    (hphase : p.phase = .final) :
    Goes .restoreFailedReport s (fun t => ∃ q, (t.ifc s.input.who).precopy = some q ∧ q.phase = .failed) := by
  have hrow : exec .restoreFailedReport s = .next (s.failMigration s.input.who p) := by
    show execRestoreFailedReport s = _
    simp [execRestoreFailedReport, hjob, hphase]
  exact ⟨_, hrow, _, State.precopy_migrationEvent .., rfl⟩

/-- Settles O48: each event of a job is its row in one of the job's states, and what the operations in it keep. -/
theorem migration : Obligations.Migration := by
  unfold Obligations.Migration
  refine ⟨?start, ?round, ?message, ?key, ?roundEnd, ?stopping, ?reports⟩
  case start =>
    rintro s vi rfl
    exact ⟨precopyJobStart_source, precopyJobStart_destination⟩
  case round =>
    rintro s u vi p gs rfl hjob hsends hlist hbegun hsnap
    obtain ⟨t, hrow, hmem, hq⟩ := precopyRound_begins hjob hsends hlist hbegun hsnap
    refine ⟨t, hrow, fun a hlo hhi => ?_, fun a hout => ?_, hq⟩
    · rw [hmem, State.read_snapAll hsnap, if_pos ⟨hlo, hhi⟩]
    · rw [hmem, State.read_snapAll hsnap, if_neg (by omega)]
  case message =>
    rintro s vi x rfl h1 h2 hsession
    dsimp only
    split <;> rename_i hopen
    · exact granuleMessage_reported h1 h2 hsession hopen
    · exact fun u pa k hx => granuleMessage_written h1 h2 hsession hopen hx
  case key =>
    rintro s vi x rfl h2 hok hsession
    exact granuleMessage_key h2 hok hsession
  case roundEnd =>
    rintro s vi p rfl hjob hbegun htodo
    exact ⟨precopyRoundEnd_stops hjob hbegun htodo, precopyRoundEnd_goesOn hjob hbegun htodo,
      precopyRoundEnd_sendsRecords hjob hbegun htodo⟩
  case stopping =>
    rintro s vi p rfl hjob hphase hopen
    exact stoppingComplete_ends hjob hphase hopen
  case reports =>
    rintro s vi p rfl hjob hphase
    exact ⟨restoreCompleteReport_frees hjob hphase, exec_restoreCompleteReport_early hjob,
      restoreFailedReport_fails hjob hphase⟩

end Sys2Proof.Machine
end

section
/-! The services of chapter 06: what the operations on one of them, on its jobs and hold list and on the counts of
refusals change and what they leave. -/

namespace Sys2Proof.Machine

open Sys2Proof Host

/-! ### Askers -/

@[simp] theorem Asker.same_self (a : Asker) : a.same a = true := by
  cases a <;> simp [Asker.same]

theorem Asker.same_comm (a b : Asker) : a.same b = b.same a := by
  cases a <;> cases b <;> simp [Asker.same, eq_comm]

/-! ### The services of the state -/

theorem State.inst_setInst_ne (s : State) {k l : Nat} (x : Inst) (h : l ≠ k) : (s.setInst k x).inst l = s.inst l := by
  have hget : KV.get Inst.empty (s.setInst k x).svc.inst l = KV.get Inst.empty s.svc.inst l := KV.get_put_ne _ h
  rw [State.inst, hget]
  rfl

theorem State.inst_setInst_self (s : State) (k : Nat) : (s.setInst k (s.inst k)).inst k = s.inst k :=
  State.inst_setInst_same (State.inst_cycle ..)

@[simp] theorem State.inst_updBank (s : State) (b : Nat) (f : Bank → Bank) (k : Nat) : (s.updBank b f).inst k = s.inst k :=
  rfl

@[simp] theorem State.inst_updIfc (s : State) (v : Nat) (f : Vi → Vi) (k : Nat) : (s.updIfc v f).inst k = s.inst k := rfl

@[simp] theorem State.inst_decide_ (s : State) (b : Nat) (d : Decision) (k : Nat) : (s.decide_ b d).inst k = s.inst k := rfl

@[simp] theorem State.mem_decide_ (s : State) (b : Nat) (d : Decision) : (s.decide_ b d).mem = s.mem := rfl

/-- The word of a bank that waits learns of the decision. -/
@[simp] theorem State.dec_decide_ (s : State) (b : Nat) (d : Decision) : ((s.decide_ b d).bank b).out.dec = d := by
  simp [State.decide_, Bank.moved]

/-! ### A service's own fields -/

@[simp] theorem Inst.bump_jobs (x : Inst) (v n : Nat) : (x.bump v n).jobs = x.jobs := rfl
@[simp] theorem Inst.bump_holds (x : Inst) (v n : Nat) : (x.bump v n).holds = x.holds := rfl
@[simp] theorem Inst.bump_cycle (x : Inst) (v n : Nat) : (x.bump v n).cycle = x.cycle := rfl
@[simp] theorem Inst.addJob_jobs (x : Inst) (j : Job) : (x.addJob j).jobs = x.jobs ++ [j] := rfl
@[simp] theorem Inst.putJob_cycle (x : Inst) (j : Job) : (x.putJob j).cycle = x.cycle := rfl

@[simp] theorem Inst.unrecord_jobs (x : Inst) (a : Asker) : (x.unrecord a).jobs = x.jobs := by
  unfold Inst.unrecord; split <;> rfl

@[simp] theorem Inst.unrecord_cycle (x : Inst) (a : Asker) : (x.unrecord a).cycle = x.cycle := by
  unfold Inst.unrecord; split <;> rfl

theorem Inst.holder_eq_none {x : Inst} {a : Asker} : x.holder a = none ↔ ∀ g ∈ x.holds, g.asker.same a = false := by
  simp [Inst.holder]

/-- The entries of a requester go, and no other (R92). -/
theorem Inst.unrecord_holds (x : Inst) (a : Asker) : (x.unrecord a).holds = x.holds.filter (fun g => ! g.asker.same a) := by
  unfold Inst.unrecord
  split
  next => rfl
  next hnone =>
    refine (List.filter_eq_self.mpr fun g hg => ?_).symm
    simp [Inst.holder_eq_none.mp hnone g hg]

/-! ### Jobs that leave -/

@[simp] theorem Inst.vacate_cycle (x : Inst) (n : Nat) : (x.vacate n).cycle = x.cycle := by
  unfold Inst.vacate
  split
  · rfl
  · split <;> rfl

@[simp] theorem Inst.dropJob_cycle (x : Inst) (n : Nat) : (x.dropJob n).cycle = x.cycle := x.vacate_cycle n

/-- A job leaving its place changes neither a job's number nor why it is ending. -/
theorem Inst.exists_of_mem_vacate {x : Inst} {n : Nat} {i : Job} (h : i ∈ (x.vacate n).jobs) :
    ∃ j ∈ x.jobs, i.number = j.number ∧ i.ending = j.ending := by
  unfold Inst.vacate at h
  split at h
  next => exact ⟨i, h, rfl, rfl⟩
  next =>
    split at h <;> obtain ⟨j, hj, rfl⟩ := List.mem_map.mp h <;> refine ⟨j, hj, ?_⟩ <;> repeat' split
    all_goals exact ⟨rfl, rfl⟩

theorem Inst.not_occupies_of_mem_vacate {x : Inst} {n : Nat} {i : Job} (h : i ∈ (x.vacate n).jobs) (hn : i.number = n) :
    i.occupies = false := by
  unfold Inst.vacate at h
  split at h
  next hnone => simpa [hn] using List.find?_eq_none.mp hnone i h
  next =>
    split at h <;> obtain ⟨j, -, rfl⟩ := List.mem_map.mp h <;> by_cases hj : j.number = n
    · simp [hj]
    · refine absurd ?_ hj
      rw [← hn, if_neg hj]
      repeat' split
      all_goals rfl
    · simp [hj]
    · exact absurd hn (by simp [hj])

theorem Inst.eq_of_mem_putJob {x : Inst} {i j : Job} (h : i ∈ (x.putJob j).jobs) (hn : i.number = j.number) : i = j := by
  obtain ⟨k, -, rfl⟩ := List.mem_map.mp h
  split
  next => rfl
  next hk => rw [if_neg hk] at hn; exact absurd hn hk

theorem Inst.number_ne_of_mem_dropJob {x : Inst} {n : Nat} {i : Job} (h : i ∈ (x.dropJob n).jobs) : i.number ≠ n := by
  simpa using (List.mem_filter.mp h).2

/-! ### Counts of refusals (R91) -/

theorem Bank.csrGet_csrUpdate_same (B : Bank) (n : Nat) (m x : Word) :
    (B.csrUpdate n m x).csrGet n = (B.csrGet n &&& ~~~ m) ||| (x &&& m) := by
  simp [Bank.csrGet]

theorem Bank.csrGet_csrUpdate_ne (B : Bank) {n k : Nat} (m x : Word) (h : k ≠ n) :
    (B.csrUpdate n m x).csrGet k = B.csrGet k := by
  simp [Bank.csrGet, KV.get_put_ne _ h]

/-- The system register that keeps a count of refusals, and the lowest bit of the count in it. -/
def refusalField (list : Nat) : Nat × Nat :=
  if list < 8 then (csrRL0 + list, 60) else if list = 8 then (csrADMST, 4) else (csrADMST, 0)

theorem Bank.refusals_eq_field (B : Bank) (list : Nat) : B.refusals list =
    ((B.csrGet (refusalField list).1).extractLsb' (refusalField list).2 4).toNat := by
  unfold Bank.refusals refusalField
  split
  next => simp [bitsOf, Nat.shiftRight_eq_div_pow]
  next => split <;> simp [bitsOf, Nat.shiftRight_eq_div_pow]

theorem Bank.setRefusals_eq_field (B : Bank) (list n : Nat) : B.setRefusals list n =
    B.csrUpdate (refusalField list).1 (putNibble 0 (refusalField list).2 15) (putNibble 0 (refusalField list).2 n) := by
  unfold Bank.setRefusals refusalField
  split
  next => rfl
  next => split <;> rfl

theorem putNibble_zero (lo : Nat) : putNibble 0 lo 0 = 0 := by simp [putNibble, putBits, bitsOf]

theorem extract_not_refusalMask (list : Nat) :
    (~~~ putNibble 0 (refusalField list).2 15).extractLsb' (refusalField list).2 4 = 0 := by
  unfold refusalField
  split
  next => show (~~~ putNibble 0 60 15).extractLsb' 60 4 = 0; decide
  next => split <;> decide

theorem Bank.csrGet_setRefusals_zero (B : Bank) (list : Nat) : (B.setRefusals list 0).csrGet (refusalField list).1 =
    B.csrGet (refusalField list).1 &&& ~~~ putNibble 0 (refusalField list).2 15 := by
  rw [Bank.setRefusals_eq_field, Bank.csrGet_csrUpdate_same, putNibble_zero]
  simp

theorem Bank.refusals_cleared (B : Bank) (list : Nat) : (B.setRefusals list 0).refusals list = 0 := by
  rw [Bank.refusals_eq_field, Bank.csrGet_setRefusals_zero, BitVec.extractLsb'_and, extract_not_refusalMask]
  simp

/-- Clearing one count, whether or not it shares the register, leaves every count that is 0 at 0. -/
theorem Bank.refusals_clear_of_zero {B : Bank} {list : Nat} (m : Nat) (h : B.refusals list = 0) :
    (B.setRefusals m 0).refusals list = 0 := by
  rw [Bank.refusals_eq_field] at h ⊢
  by_cases hreg : (refusalField list).1 = (refusalField m).1
  · rw [hreg] at h ⊢
    rw [Bank.csrGet_setRefusals_zero, BitVec.extractLsb'_and, BitVec.eq_of_toNat_eq (y := 0#4) h, BitVec.zero_and]
    rfl
  · rwa [Bank.setRefusals_eq_field, Bank.csrGet_csrUpdate_ne _ _ _ hreg]

/-- Who keeps a requester's count: an interface, a bank, or another module. -/
theorem State.setRefusals_cases (s : State) (a : Asker) (list n : Nat) :
    (∃ v f, s.askerBank a = none ∧ s.setRefusals a list n = s.updIfc v f) ∨
    (∃ b, s.askerBank a = some b ∧ s.setRefusals a list n = s.updBank b (·.setRefusals list n)) ∨
    (s.askerBank a = none ∧ s.setRefusals a list n = s) := by
  cases a with
  | bank b => exact .inr (.inl ⟨b, rfl, rfl⟩)
  | window v w => exact .inl ⟨v, fun x => { x with refusals := KV.put x.refusals w n }, rfl, rfl⟩
  | peer m c slot =>
    cases h : s.askerBank (.peer m c slot) with
    | some b => exact .inr (.inl ⟨b, rfl, by simp [State.setRefusals, h]⟩)
    | none => exact .inr (.inr ⟨rfl, by simp [State.setRefusals, h]⟩)

@[simp] theorem State.setRefusals_mem (s : State) (a : Asker) (list n : Nat) : (s.setRefusals a list n).mem = s.mem := by
  obtain ⟨v, f, -, h⟩ | ⟨b, -, h⟩ | ⟨-, h⟩ := s.setRefusals_cases a list n <;> rw [h]
  · exact State.updIfc_mem ..
  · exact State.updBank_mem ..

@[simp] theorem State.setRefusals_boot (s : State) (a : Asker) (list n : Nat) : (s.setRefusals a list n).boot = s.boot := by
  obtain ⟨v, f, -, h⟩ | ⟨b, -, h⟩ | ⟨-, h⟩ := s.setRefusals_cases a list n <;> rw [h]
  · exact State.updIfc_boot ..
  · exact State.updBank_boot ..

@[simp] theorem State.setRefusals_inst (s : State) (a : Asker) (list n k : Nat) :
    (s.setRefusals a list n).inst k = s.inst k := by
  obtain ⟨v, f, -, h⟩ | ⟨b, -, h⟩ | ⟨-, h⟩ := s.setRefusals_cases a list n <;> rw [h]
  · exact State.inst_updIfc ..
  · exact State.inst_updBank ..

@[simp] theorem State.setRefusals_cycleOf (s : State) (a : Asker) (list n k : Nat) :
    (s.setRefusals a list n).cycleOf k = s.cycleOf k := by
  rw [← State.inst_cycle, State.setRefusals_inst, State.inst_cycle]

theorem State.refusals_cleared {s : State} {a : Asker} {b : Nat} (h : s.askerBank a = some b) (list : Nat) :
    ((s.setRefusals a list 0).bank b).refusals list = 0 := by
  obtain ⟨v, f, hb, -⟩ | ⟨c, hb, hs⟩ | ⟨hb, -⟩ := s.setRefusals_cases a list 0 <;> rw [h] at hb
  · simp at hb
  · cases hb
    rw [hs, State.bank_updBank_same, Bank.refusals_cleared]
  · simp at hb

theorem State.refusals_clear_of_zero {s : State} {b list : Nat} (h : (s.bank b).refusals list = 0) (a : Asker) (m : Nat) :
    ((s.setRefusals a m 0).bank b).refusals list = 0 := by
  obtain ⟨v, f, -, hs⟩ | ⟨c, -, hs⟩ | ⟨-, hs⟩ := s.setRefusals_cases a m 0 <;> rw [hs]
  · exact h
  · by_cases hbc : b = c
    · subst hbc
      rw [State.bank_updBank_same, Bank.refusals_clear_of_zero m h]
    · rwa [State.bank_updBank_ne _ _ hbc]
  · exact h

/-! ### Requests that are admitted (R91, R92) -/

@[simp] theorem State.requestAdmitted_mem (s : State) (a : Asker) (list first : Nat) :
    (s.requestAdmitted a list first).mem = s.mem := State.setRefusals_mem ..

theorem State.jobs_requestAdmitted (s : State) (a : Asker) (list first key : Nat) :
    ((s.requestAdmitted a list first).inst key).jobs = (s.inst key).jobs := by
  unfold State.requestAdmitted
  by_cases h : key = first
  · subst h
    rw [State.inst_setInst_same (by simp)]
    simp
  · rw [State.inst_setInst_ne _ _ h, State.setRefusals_inst]

end Sys2Proof.Machine
end

section
/-! How a service decides, offers, lets offers lapse, ends its jobs and takes quotas (O39). -/

namespace Sys2Proof.Machine

open Sys2Proof Host

/-! ### SERVICE_TRY (R88, R89) -/

/-- At the special-function, gather and copy engines R88 alone decides a try: no collective stands open to it, no span
is wanted, and its places are those that it asks for. -/
theorem State.decideTry_plain {s : State} {key : Nat} {u : Try} (hkind : entryKind key ∈ [1, 2, 4])
    (hoff : (s.inst key).offered u.asker = 0) : s.decideTry key u =
    if s.admits key (s.inst key) u.tenant u.k u.pos then
      (s.setInst key (s.inst key)).tryAdmitted key (s.inst key) u u.k false (0, 0)
    else (s.setInst key (s.inst key)).tryRefused key u := by
  have h3 : entryKind key ≠ 3 := by rintro h; simp [h] at hkind
  have h5 : entryKind key ≠ 5 := by rintro h; simp [h] at hkind
  have hplaces : s.tryPlaces key u = u.k := by
    unfold State.tryPlaces
    split
    next h6 _ => simp [h6] at hkind
    next => rfl
  simp only [State.decideTry, if_neg h3, if_neg h5, hplaces, hoff, Nat.lt_irrefl, false_and, if_false]
  rfl

/-- The service once a try has been admitted: its pointer stands past the requester, and the try is counted (R89, R97). -/
def State.servedTry (s : State) (x : Inst) (u : Try) : Inst :=
  { x with pointer := (s.reqNumber u.asker + 1) % 2 ^ 20 }.bump u.tenant (if u.pos = 0 then 0 else 2)

theorem State.tryAdmitted_bank_eq {key b : Nat} {u : Try} (hkind : entryKind key ∈ [1, 2, 4]) (hask : u.asker = .bank b)
    (s : State) (x : Inst) (k : Nat) (held : Bool) (sp : Nat × Nat) : ∃ h, s.tryAdmitted key x u k held sp =
      ((s.setInst key ((s.servedTry x u).addJob (s.jobOf key (s.servedTry x u) u k))).requestAdmitted
        u.asker u.list u.first).decide_ b (.admitted h) := by
  have h6 : entryKind key ≠ 6 := by rintro h; simp [h] at hkind
  simp only [State.tryAdmitted, hask, if_neg h6]
  split
  next h => simp [h] at hkind
  next h => simp [h] at hkind
  next => exact ⟨_, by rw [State.servedTry, hask]⟩

/-- A bank's try that is admitted becomes a job, and the word that waits learns of it. -/
theorem State.tryAdmitted_bank {s : State} {key b : Nat} {x : Inst} {u : Try} (hkind : entryKind key ∈ [1, 2, 4])
    (hask : u.asker = .bank b) (hcycle : x.cycle = s.cycleOf key) (k : Nat) (held : Bool) (sp : Nat × Nat) :
    (s.tryAdmitted key x u k held sp).mem = s.mem ∧
    (∃ h, ((s.tryAdmitted key x u k held sp).bank b).out.dec = .admitted h) ∧
    ∃ j, j ∈ ((s.tryAdmitted key x u k held sp).inst key).jobs ∧ j.number = x.next ∧ j.asker = .bank b ∧ j.k = k ∧
      j.occupies = true := by
  obtain ⟨h, ht⟩ := State.tryAdmitted_bank_eq hkind hask s x k held sp
  rw [ht]
  refine ⟨State.requestAdmitted_mem _ u.asker u.list u.first, ⟨h, State.dec_decide_ ..⟩,
    s.jobOf key (s.servedTry x u) u k, ?_, rfl, hask, rfl, rfl⟩
  rw [State.inst_decide_, State.jobs_requestAdmitted, State.inst_setInst_same (by exact hcycle)]
  simp

theorem State.tryRefused_bank {s : State} {key b : Nat} {u : Try} (hask : u.asker = .bank b) :
    (s.tryRefused key u).mem = s.mem ∧ ((s.tryRefused key u).bank b).out.dec = .declined u.pos ∧
      ((s.tryRefused key u).inst key).jobs = (s.inst key).jobs := by
  simp only [State.tryRefused, hask, State.mem_decide_, State.dec_decide_, State.inst_decide_, true_and]
  refine ⟨rfl, ?_⟩
  rw [State.inst_setInst_same (by simp)]
  rfl

/-- A try has been taken from those that wait before a service. -/
def State.takeTry (s : State) (key : Nat) (u : Try) : State :=
  s.setInst key { s.inst key with tries := (s.inst key).tries.erase u }

theorem State.inst_takeTry (s : State) (key : Nat) (u : Try) :
    (s.takeTry key u).inst key = { s.inst key with tries := (s.inst key).tries.erase u } :=
  State.inst_setInst_same (State.inst_cycle ..)

theorem State.offered_takeTry (s : State) (key : Nat) (u : Try) (a : Asker) :
    ((s.takeTry key u).inst key).offered a = (s.inst key).offered a := by
  rw [State.inst_takeTry]; rfl

theorem State.jobs_takeTry (s : State) (key : Nat) (u : Try) : ((s.takeTry key u).inst key).jobs = (s.inst key).jobs := by
  rw [State.inst_takeTry]

theorem State.next_takeTry (s : State) (key : Nat) (u : Try) : ((s.takeTry key u).inst key).next = (s.inst key).next := by
  rw [State.inst_takeTry]

/-- The decision of R88 does not look at the tries. -/
theorem State.admits_takeTry (s : State) (key : Nat) (u : Try) (tenant k pos : Nat) :
    (s.takeTry key u).admits key ((s.takeTry key u).inst key) tenant k pos = s.admits key (s.inst key) tenant k pos := by
  rw [State.inst_takeTry]; rfl

theorem exec_serviceTry_decides {s : State} {u : Try} (hsize : s.input.size = 0)
    (hbegun : (s.inst s.input.who).begun = true) (hnext : s.nextTry s.input.who (s.inst s.input.who) = some u) :
    exec .serviceTry s = .next ((s.takeTry s.input.who u).decideTry s.input.who u) := by
  show execServiceTry s = _
  have hcycle : s.beginCycle s.input.who = s := if_pos hbegun
  simp [execServiceTry, hsize, hcycle, hnext, State.takeTry]

/-! ### OFFER_STEP (R92, R93) -/

theorem State.giveAll_of_noPlace (s : State) {kind : Nat} {x : Inst} (h : x.freePlaces kind = 0) (n : Nat) :
    s.giveAll kind n x = x := by
  cases n <;> simp [State.giveAll, h]

/-- A holder with the last place that it lacked. -/
def State.offerTo (s : State) (h : Holder) : Holder :=
  { h with held := h.k, offered := true, since := s.time, sinceAc := s.holderAc h.asker }

theorem State.giveOne_lacksOne (s : State) {h : Holder} (hk : h.held + 1 = h.k) : s.giveOne [h] = some [s.offerTo h] := by
  simp [State.giveOne, State.offerTo, ← hk]

theorem State.giveAll_offers (s : State) {kind : Nat} {x : Inst} {h : Holder} (hholds : x.holds = [h])
    (hk : h.held + 1 = h.k) (hfree : x.freePlaces kind = 1) :
    s.giveAll kind (svcPlaces kind) x = { x with holds := [s.offerTo h] } := by
  have hgone : ({ x with holds := [s.offerTo h] } : Inst).freePlaces kind = 0 := by
    have hnow : ({ x with holds := [s.offerTo h] } : Inst).freePlaces kind = svcPlaces kind - x.used - h.k - x.freed := by
      simp [Inst.freePlaces, Inst.held, State.offerTo, Inst.used]
    simp only [Inst.freePlaces, Inst.held, hholds, List.map_cons, List.map_nil, List.foldl_cons, List.foldl_nil] at hfree
    omega
  obtain ⟨n, hn⟩ : ∃ n, svcPlaces kind = n + 1 := Nat.exists_eq_add_one.mpr (by unfold Inst.freePlaces at hfree; omega)
  rw [hn, State.giveAll, if_pos (by omega), hholds, s.giveOne_lacksOne hk]
  exact s.giveAll_of_noPlace hgone n

theorem exec_offerStep_offers {s : State} {h : Holder} (hbegun : (s.inst s.input.who).begun = false)
    (hholds : (s.inst s.input.who).holds = [h]) (hk : h.held + 1 = h.k)
    (hfree : (s.inst s.input.who).freePlaces (entryKind s.input.who) = 1) :
    exec .offerStep s = .next (s.setInst s.input.who { s.inst s.input.who with holds := [s.offerTo h], begun := true }) := by
  show Outcome.next (s.beginCycle s.input.who) = _
  simp [State.beginCycle, hbegun, s.giveAll_offers hholds hk hfree]

/-! ### HOLD_WINDOW_EXPIRY (R92) -/

@[simp] theorem State.lapse_mem (s : State) (key : Nat) (h : Holder) : (s.lapse key h).mem = s.mem :=
  State.setRefusals_mem ..

@[simp] theorem State.lapse_boot (s : State) (key : Nat) (h : Holder) : (s.lapse key h).boot = s.boot :=
  State.setRefusals_boot ..

theorem State.inst_lapse (s : State) (key : Nat) (h : Holder) :
    (s.lapse key h).inst key = ((s.inst key).unrecord h.asker).bump h.tenant 5 := by
  rw [State.lapse, State.setRefusals_inst, State.inst_setInst_same (by simp)]

theorem State.jobs_lapse (s : State) (key : Nat) (h : Holder) : ((s.lapse key h).inst key).jobs = (s.inst key).jobs := by
  simp [State.inst_lapse]

theorem State.holds_lapse (s : State) (key : Nat) (h : Holder) :
    ((s.lapse key h).inst key).holds = (s.inst key).holds.filter (fun g => ! g.asker.same h.asker) := by
  rw [State.inst_lapse, Inst.bump_holds, Inst.unrecord_holds]

theorem State.holder_lapse (s : State) (key : Nat) (h : Holder) : ((s.lapse key h).inst key).holder h.asker = none := by
  simp [Inst.holder_eq_none, State.holds_lapse]

theorem State.holder_lapse_of_none {s : State} {key : Nat} {a : Asker} (ha : (s.inst key).holder a = none) (h : Holder) :
    ((s.lapse key h).inst key).holder a = none := by
  rw [Inst.holder_eq_none, State.holds_lapse]
  exact fun g hg => Inst.holder_eq_none.mp ha g (List.mem_filter.mp hg).1

theorem State.askerBank_congr {s t : State} (h : t.boot = s.boot) (a : Asker) : t.askerBank a = s.askerBank a := by
  cases a <;> simp [State.askerBank, h]

theorem State.refusals_lapse {s : State} {h : Holder} {b : Nat} (hb : s.askerBank h.asker = some b) (key : Nat) :
    ((s.lapse key h).bank b).refusals h.list = 0 :=
  State.refusals_cleared (s := s.setInst key _) ((State.askerBank_congr rfl _).trans hb) _

theorem State.refusals_lapse_of_zero {s : State} {b list : Nat} (hz : (s.bank b).refusals list = 0) (key : Nat) (h : Holder) :
    ((s.lapse key h).bank b).refusals list = 0 :=
  State.refusals_clear_of_zero (s := s.setInst key _) hz _ _

/-- Offers lapse one after the other. -/
def State.lapseAll (s : State) (key : Nat) (l : List Holder) : State := l.foldl (fun s h => s.lapse key h) s

theorem State.holder_lapseAll (s : State) (key : Nat) {l : List Holder} {h : Holder} (hl : h ∈ l) :
    ((s.lapseAll key l).inst key).holder h.asker = none :=
  foldl_establishes (P := fun t => (t.inst key).holder h.asker = none) (fun t => t.holder_lapse key h)
    (fun _ g _ hn => State.holder_lapse_of_none hn g) hl s

/-- The count of a requester whose offer has lapsed is clear, and stays so as others lapse. -/
theorem State.refusals_lapseAll {s : State} {l : List Holder} {h : Holder} {b : Nat} (hb : s.askerBank h.asker = some b)
    (hl : h ∈ l) (key : Nat) : ((s.lapseAll key l).bank b).refusals h.list = 0 := by
  have hclear := foldl_establishes (P := fun t : State => t.boot = s.boot → (t.bank b).refusals h.list = 0)
    (f := fun t g => t.lapse key g)
    (fun t ht => State.refusals_lapse ((State.askerBank_congr ((t.lapse_boot key h).symm.trans ht) _).trans hb) key)
    (fun t g _ hz ht => State.refusals_lapse_of_zero (hz ((t.lapse_boot key g).symm.trans ht)) key g) hl s
  exact hclear (foldl_keeps (fun t g => State.lapse_boot t key g) l s)

/-- An entry stays where no offer of its requester lapses. -/
theorem State.mem_holds_lapseAll {s : State} {key : Nat} {l : List Holder} {h : Holder} (hh : h ∈ (s.inst key).holds)
    (hl : ∀ g ∈ l, g.asker.same h.asker = false) : h ∈ ((s.lapseAll key l).inst key).holds := by
  induction l generalizing s with
  | nil => exact hh
  | cons g l ih =>
    have hg : h.asker.same g.asker = false := by rw [Asker.same_comm]; exact hl g List.mem_cons_self
    refine ih (s := s.lapse key g) ?_ fun k hk => hl k (List.mem_cons_of_mem g hk)
    rw [State.holds_lapse]
    exact List.mem_filter.mpr ⟨hh, by simp [hg]⟩

/-- The window of a holder has ended, as far as the event tells (R92). -/
def State.lapsesNow (s : State) (h : Holder) : Bool :=
  s.windowEnded (s.input.ok && decide (s.reqNumber h.asker = s.input.sub)) h

theorem exec_holdWindowExpiry (s : State) : exec .holdWindowExpiry s =
    .next (s.lapseAll s.input.who ((s.inst s.input.who).holds.filter s.lapsesNow)) := rfl

/-! ### SERVICE_E_EXPIRY (R83) -/

/-- An engine's job that is ended: unless it was ending already, it ends with OVERTIME (R83). -/
def Job.endedAtE (j : Job) : Job := if j.ending = 0 then { j with ending := 2, fault := none, denied := false } else j

@[simp] theorem Job.endedAtE_number (j : Job) : j.endedAtE.number = j.number := by unfold Job.endedAtE; split <;> rfl

theorem Job.endedAtE_ending (j : Job) : j.endedAtE.ending ≠ 0 := by
  unfold Job.endedAtE
  split
  next => simp
  next h => exact h

theorem State.endAtE_engine {key : Nat} (hkind : entryKind key ∈ [1, 2, 3, 4]) (s : State) (j : Job) :
    s.endAtE key j = s.setInst key (((s.inst key).putJob j.endedAtE).vacate j.number) := by
  rw [← j.endedAtE_number]
  unfold State.endAtE
  split
  next h => simp [h] at hkind
  next h => simp [h] at hkind
  next h => simp [h] at hkind
  next => rfl

theorem exec_serviceEExpiry_ends {s : State} {j : Job} (hj : (s.inst s.input.who).jobs.find? (fun j =>
      (j.occupies || decide (j.ending = 0 ∧ entryKind s.input.who ≤ 4)) && s.jobOverdue s.input.who j) = some j) :
    exec .serviceEExpiry s = .next (s.endAtE s.input.who j) := by
  show execServiceEExpiry s = _
  simp only [execServiceEExpiry, hj]

/-- The job that has run for E has left its place and is ending. -/
theorem Inst.ended_of_mem_vacate {x : Inst} {j i : Job} (hi : i ∈ ((x.putJob j.endedAtE).vacate j.number).jobs)
    (hn : i.number = j.number) : i.occupies = false ∧ i.ending ≠ 0 := by
  refine ⟨Inst.not_occupies_of_mem_vacate hi hn, ?_⟩
  obtain ⟨k, hk, hnum, hend⟩ := Inst.exists_of_mem_vacate hi
  have hkj : k = j.endedAtE := Inst.eq_of_mem_putJob hk (by rw [← hnum, hn, Job.endedAtE_number])
  rw [hend, hkj]
  exact j.endedAtE_ending

/-! ### JOB_COMPLETE, its last step (R275) -/

theorem State.jobEndStep_last {s : State} {j : Job} (key : Nat) (hfault : j.fault = none) (hstage : 2 ≤ j.stage)
    (hwrites : s.jobWritesAt j j.endScope = true) (hcopy : s.copyAwaited j = false) :
    s.jobEndStep key j = s.jobFlag key j := by
  simp only [State.jobEndStep, hfault, hwrites, hcopy, Option.isSome_none, Bool.false_and, Bool.not_true, Bool.or_false,
    Bool.false_eq_true, if_false]
  split
  next h => omega
  next h => omega
  next => rfl

theorem exec_jobComplete_ending {s : State} {j : Job} (hkind : entryKind s.input.who ∈ [1, 2, 3, 4])
    (hj : s.jobAt s.input.who s.input.sub = some j) (hend : j.ending ≠ 0) :
    exec .jobComplete s = .next (s.jobEndStep s.input.who j) := by
  have hengine : ¬ (entryKind s.input.who = 0 ∨ 4 < entryKind s.input.who) := by
    simp only [List.mem_cons, List.not_mem_nil, or_false] at hkind
    omega
  have hidle : j.working = false := by simp [Job.working, hend]
  have hsettled : s.jobSettle s.input.who j = s := if_pos hend
  show execJobComplete s = _
  simp [execJobComplete, hj, hengine, hidle, hsettled, hend]

theorem Bank.readF_incFlag (B : Bank) (k : Nat) : (B.incFlag k).r.readF k = B.r.readF k + 1 :=
  Regs.readF_writeF_same ..

theorem State.jobFlag_mem (s : State) (key : Nat) (j : Job) : (s.jobFlag key j).mem = s.mem := by
  unfold State.jobFlag; split <;> rfl

theorem State.jobFlag_readF (s : State) (key : Nat) {j : Job} (h : bitAt j.flagByte 7 = true) :
    ((s.jobFlag key j).bank j.bank).r.readF (j.flagByte % 16) = (s.bank j.bank).r.readF (j.flagByte % 16) + 1 := by
  simp only [State.jobFlag, h, if_true, State.bank_updBank_same]
  rw [← Bank.readF_incFlag, ← State.bank_updBank_same s j.bank (·.incFlag (j.flagByte % 16))]
  rfl

theorem State.jobFlag_forgets {s : State} {key : Nat} {j i : Job} (h : i ∈ ((s.jobFlag key j).inst key).jobs) :
    i.number ≠ j.number := by
  unfold State.jobFlag at h
  rw [State.inst_updBank, State.inst_setInst_same (by simp)] at h
  exact Inst.number_ne_of_mem_dropJob h

/-! ### ADMQ_WRITE (R96) -/

@[simp] theorem State.holdQuota_banks (s : State) (kind tenant key : Nat) :
    (s.holdQuota kind tenant key).banks = s.banks := by
  simp only [State.holdQuota]
  split <;> rfl

@[simp] theorem State.holdQuota_mem (s : State) (kind tenant key : Nat) : (s.holdQuota kind tenant key).mem = s.mem := by
  simp only [State.holdQuota]
  split <;> rfl

theorem bitsOf_lowest (v hi : Nat) : bitsOf v hi 0 = v % 2 ^ (hi + 1) := by simp [bitsOf]

/-- What a write of ADMQ brings: min in bits 27:16, max in bits 11:0. -/
def State.admqValue (s : State) : Nat := s.input.value.toNat &&& 0x0FFF0FFF

/-- The sum of the minima of a kind, were the minimum of one tenant `lo`. -/
def State.minimaWith (s : State) (kind tenant lo : Nat) : Nat :=
  ((List.range 256).map (fun n => if n = tenant then lo else (s.quota kind n).1)).foldl (· + ·) 0

/-- R96 refuses a quota of a kind. -/
def State.QuotaRefused (s : State) (kind tenant lo hi : Nat) : Prop :=
  svcPlaces kind - svcReserve kind < s.minimaWith kind tenant lo ∨ svcPlaces kind < lo ∨ svcPlaces kind < hi ∨
    (hi ≠ 0 ∧ hi < lo)

theorem exec_admqWrite_refuses {s : State} (h : s.QuotaRefused (s.input.who / 256 + 1) (s.input.who % 256)
      (s.admqValue / 2 ^ 16 % 2 ^ 12) (s.admqValue % 2 ^ 12)) :
    exec .admqWrite s = .next (s.setHub offADMCFG (s.hubReg offADMCFG ||| 2 ^ 31)) := by
  rw [← bitsOf_lowest s.admqValue 11] at h
  exact congrArg Outcome.next (if_pos h)

theorem exec_admqWrite_takes {s : State} (h : ¬ s.QuotaRefused (s.input.who / 256 + 1) (s.input.who % 256)
      (s.admqValue / 2 ^ 16 % 2 ^ 12) (s.admqValue % 2 ^ 12)) :
    exec .admqWrite s = .next (((instsOf (s.input.who / 256 + 1)).foldl
      (fun t key => t.holdQuota (s.input.who / 256 + 1) (s.input.who % 256) key) s).setHub
        (offADMQ (s.input.who / 256 + 1) (s.input.who % 256)) s.admqValue) := by
  rw [← bitsOf_lowest s.admqValue 11] at h
  exact congrArg Outcome.next (if_neg h)

theorem offADMQ_ne_offADMCFG (kind tenant : Nat) : offADMQ kind tenant ≠ offADMCFG := by
  unfold offADMQ offADMCFG; omega

/-- Settles O39: each clause is the row's own equation, and what the operations in it change. -/
theorem services : Obligations.Services := by
  unfold Obligations.Services
  refine ⟨?decision, ?offer, ?window, ?timeout, ?complete, ?quota⟩
  case decision =>
    rintro s key b u rfl hsize hbegun hnext hask hkind hoff
    have hrow := exec_serviceTry_decides hsize hbegun hnext
    rw [State.decideTry_plain hkind (by rw [State.offered_takeTry, hoff]), State.admits_takeTry] at hrow
    refine ⟨fun hadmits => ⟨_, hrow, ?_⟩, fun hnot => ⟨_, hrow, ?_⟩⟩
    · rw [if_pos hadmits, ← State.next_takeTry s s.input.who u]
      exact State.tryAdmitted_bank (s := (s.takeTry s.input.who u).setInst s.input.who _) hkind hask
        (State.inst_cycle (s.takeTry s.input.who u) s.input.who) u.k false (0, 0)
    · obtain ⟨hmem, hdec, hjobs⟩ := State.tryRefused_bank (s := (s.takeTry s.input.who u).setInst s.input.who _)
        (key := s.input.who) hask
      rw [if_neg (by simp [hnot])]
      exact ⟨hmem, hdec, by rw [hjobs, State.inst_setInst_self, State.jobs_takeTry]⟩
  case offer =>
    rintro s key h rfl hbegun hholds hk hfree
    have hinst := State.inst_setInst_same (s := s) (k := s.input.who)
      (x := { s.inst s.input.who with holds := [s.offerTo h], begun := true }) (State.inst_cycle ..)
    refine ⟨_, exec_offerStep_offers hbegun hholds hk hfree, rfl, rfl, ?_⟩
    rw [hinst]
    exact ⟨rfl, rfl, rfl⟩
  case window =>
    rintro s key rfl
    refine ⟨_, exec_holdWindowExpiry s, foldl_keeps (fun t h => State.lapse_mem t _ h) _ s,
      foldl_keeps (g := fun t => (t.inst s.input.who).jobs) (fun t h => State.jobs_lapse t _ h) _ s, ?_⟩
    refine fun h hh => ⟨fun hended => ?_, fun hstays => ?_⟩
    · have hlapses : h ∈ (s.inst s.input.who).holds.filter s.lapsesNow := List.mem_filter.mpr ⟨hh, hended⟩
      exact ⟨State.holder_lapseAll s _ hlapses, fun b hb => State.refusals_lapseAll hb hlapses _⟩
    · refine State.mem_holds_lapseAll hh fun g hg => Bool.eq_false_iff.mpr fun hsame => ?_
      obtain ⟨hheld, hended⟩ := List.mem_filter.mp hg
      exact Bool.false_ne_true ((hstays g hheld hsame).symm.trans hended)
  case timeout =>
    rintro s key j rfl hkind hj
    refine ⟨_, exec_serviceEExpiry_ends hj, ?_⟩
    rw [State.endAtE_engine hkind]
    refine ⟨rfl, rfl, fun i hi hn => ?_⟩
    rw [State.inst_setInst_same (by simp)] at hi
    exact Inst.ended_of_mem_vacate hi hn
  case complete =>
    rintro s key j rfl hkind hj hend hfault hstage hwrites hcopy
    refine ⟨_, exec_jobComplete_ending hkind hj hend, ?_⟩
    rw [State.jobEndStep_last _ hfault hstage hwrites hcopy]
    exact ⟨State.jobFlag_mem .., State.jobFlag_readF s _, fun i => State.jobFlag_forgets⟩
  case quota =>
    intro s
    refine ⟨fun hsum hlo hhi hle => ?_, fun h => ?_⟩
    · refine ⟨_, exec_admqWrite_takes ?_, State.hubReg_setHub_same .., ?_, ?_⟩
      · rintro (h | h | h | ⟨hne, h⟩)
        · exact Nat.not_lt.mpr hsum h
        · exact Nat.not_lt.mpr hlo h
        · exact Nat.not_lt.mpr hhi h
        · exact Nat.not_lt.mpr (hle.resolve_left hne) h
      · exact foldl_keeps (g := State.banks) (fun t key => State.holdQuota_banks t _ _ key) _ s
      · exact foldl_keeps (g := State.mem) (fun t key => State.holdQuota_mem t _ _ key) _ s
    · exact ⟨_, exec_admqWrite_refuses h, State.hubReg_setHub_same ..,
        fun k n => State.hubReg_setHub_ne _ _ (offADMQ_ne_offADMCFG k n), rfl, rfl⟩

end Sys2Proof.Machine
end

section
/-! The cluster controller of chapter 07: what a field of a register reads as after one has been replaced, what the
controller's operations leave of a cluster and of its PCLUS, and what each of its events comes to (O52). -/

namespace Sys2Proof.Machine

open Sys2Proof Host

/-! ### Fields of a number -/

theorem bitAt_eq_testBit (v i : Nat) : bitAt v i = v.testBit i := by simp [bitAt, Nat.testBit_eq_decide_div_mod_eq]

theorem bitAt_eq_bitsOf (v i : Nat) : bitAt v i = decide (bitsOf v i i = 1) := by simp [bitAt, bitsOf]

/-- A number with a field replaced, as the three parts that it then has. -/
theorem putBits_eq (v lo x : Nat) {hi w : Nat} (hw : hi + 1 - lo = w) :
    putBits v hi lo x = v % 2 ^ lo + 2 ^ lo * (x % 2 ^ w + 2 ^ w * (v / 2 ^ lo / 2 ^ w)) := by
  have hlow := Nat.mod_add_div v (2 ^ lo)
  have hfield := Nat.mod_add_div (v / 2 ^ lo) (2 ^ w)
  rw [putBits, bitsOf, hw]
  generalize v / 2 ^ lo / 2 ^ w = top at *
  generalize v / 2 ^ lo % 2 ^ w = field at *
  rw [← hfield, Nat.mul_add] at hlow
  rw [Nat.mul_add, Nat.mul_comm field, Nat.mul_comm (x % _)]
  omega

/-- A field that has been replaced reads as what it was given. -/
theorem bitsOf_putBits_same (v hi lo x : Nat) : bitsOf (putBits v hi lo x) hi lo = x % 2 ^ (hi + 1 - lo) := by
  have hlow : v % 2 ^ lo < 2 ^ lo := Nat.mod_lt _ (Nat.two_pow_pos lo)
  rw [putBits_eq v lo x rfl, bitsOf, Nat.add_mul_div_left _ _ (Nat.two_pow_pos lo), Nat.div_eq_of_lt hlow, Nat.zero_add,
    Nat.add_mul_mod_self_left, Nat.mod_mod]

/-- A field is what stands above its lowest bit in the number's bits up to its highest. -/
theorem bitsOf_eq_mod_div (v : Nat) {h l : Nat} (hl : l ≤ h) : bitsOf v h l = v % 2 ^ (h + 1) / 2 ^ l := by
  have hpow : 2 ^ (h + 1) = 2 ^ l * 2 ^ (h + 1 - l) := by rw [← Nat.pow_add, Nat.add_sub_cancel' (by omega)]
  rw [hpow, Nat.mod_mul_right_div_self, bitsOf]

/-- A field below the one that is replaced reads as before. -/
theorem bitsOf_putBits_below (v x : Nat) {hi lo h l : Nat} (hb : h < lo) (hl : l ≤ h) :
    bitsOf (putBits v hi lo x) h l = bitsOf v h l := by
  have hdvd : 2 ^ (h + 1) ∣ 2 ^ lo := Nat.pow_dvd_pow 2 hb
  have hrest (y : Nat) : (v % 2 ^ lo + 2 ^ lo * y) % 2 ^ (h + 1) = v % 2 ^ (h + 1) := by
    rw [Nat.add_mod, Nat.mod_eq_zero_of_dvd (Nat.dvd_mul_right_of_dvd hdvd y), Nat.add_zero, Nat.mod_mod,
      Nat.mod_mod_of_dvd v hdvd]
  rw [bitsOf_eq_mod_div _ hl, bitsOf_eq_mod_div _ hl, putBits_eq v lo x rfl, hrest]

/-- Fields chosen by a mask taken from one number, the others kept from another. -/
theorem testBit_masked {old new mask w i : Nat} (hmask : mask < 2 ^ w) (hi : i < w) :
    ((new &&& mask) ||| (old &&& (2 ^ w - 1 - mask))).testBit i =
      if mask.testBit i then new.testBit i else old.testBit i := by
  have hrest : (2 ^ w - 1 - mask).testBit i = !mask.testBit i := by
    rw [Nat.sub_sub, Nat.add_comm 1, Nat.testBit_two_pow_sub_succ hmask, decide_eq_true hi, Bool.true_and]
  rw [Nat.testBit_or, Nat.testBit_and, Nat.testBit_and, hrest]
  cases mask.testBit i <;> simp

/-! ### A cluster and its PCLUS -/

@[simp] theorem State.cluster_updCluster_same (s : State) (cl : Nat) (f : Cluster → Cluster) :
    (s.updCluster cl f).cluster cl = f (s.cluster cl) := KV.get_put_same _ _ _ _

@[simp] theorem State.updCluster_hub (s : State) (cl : Nat) (f : Cluster → Cluster) : (s.updCluster cl f).hub = s.hub := rfl

@[simp] theorem State.updCluster_banks (s : State) (cl : Nat) (f : Cluster → Cluster) :
    (s.updCluster cl f).banks = s.banks := rfl

@[simp] theorem State.hubReg_updCluster (s : State) (cl : Nat) (f : Cluster → Cluster) (r : Nat) :
    (s.updCluster cl f).hubReg r = s.hubReg r := rfl

@[simp] theorem State.cluster_putPclus (s : State) (cl hi lo v n : Nat) : (s.putPclus cl hi lo v).cluster n = s.cluster n :=
  rfl

@[simp] theorem State.putPclus_banks (s : State) (cl hi lo v : Nat) : (s.putPclus cl hi lo v).banks = s.banks := rfl

theorem State.bitsOf_putPclus_same (s : State) (cl : Nat) {hi lo v : Nat} (hv : v < 2 ^ (hi + 1 - lo)) :
    bitsOf ((s.putPclus cl hi lo v).hubReg (offPCLUS cl)) hi lo = v := by
  rw [State.putPclus, State.hubReg_setHub_same, bitsOf_putBits_same, Nat.mod_eq_of_lt hv]

theorem State.bitsOf_putPclus_below (s : State) (cl v : Nat) {hi lo h l : Nat} (hb : h < lo) (hl : l ≤ h) :
    bitsOf ((s.putPclus cl hi lo v).hubReg (offPCLUS cl)) h l = bitsOf (s.hubReg (offPCLUS cl)) h l := by
  rw [State.putPclus, State.hubReg_setHub_same, bitsOf_putBits_below _ _ hb hl]

theorem State.stepCode_le (s : State) (cl : Nat) : s.stepCode cl ≤ 18 := Nat.min_le_left ..

/-! ### Steps (R108, R110) -/

@[simp] theorem State.ctl_startFreq (s : State) (cl : Nat) (k : CtlState) : ((s.startFreq cl k).cluster cl).ctl = k := by
  simp [State.startFreq]

@[simp] theorem State.hubReg_startFreq (s : State) (cl : Nat) (k : CtlState) (r : Nat) :
    (s.startFreq cl k).hubReg r = s.hubReg r := rfl

/-- The start of a frequency step stops the clock at the end of the ac in progress (R108). -/
theorem clockStops_startFreq (s : State) (cl : Nat) (k : CtlState) : ClockStops s (s.startFreq cl k) cl := by
  simp [ClockStops, State.startFreq]

@[simp] theorem State.ctl_stepEnded (s : State) (cl : Nat) : ((s.stepEnded cl).cluster cl).ctl = .steady := by
  simp [State.stepEnded]

@[simp] theorem State.stopped_stepEnded (s : State) (cl : Nat) : ((s.stepEnded cl).cluster cl).stopped = false := by
  simp [State.stepEnded]

@[simp] theorem State.since_stepEnded (s : State) (cl : Nat) : ((s.stepEnded cl).cluster cl).since = s.time := by
  simp [State.stepEnded]

@[simp] theorem State.hubReg_stepEnded (s : State) (cl r : Nat) : (s.stepEnded cl).hubReg r = s.hubReg r := rfl

/-- A voltage target that the regulator takes settles while the clock runs. -/
theorem State.askVolt_taken {s : State} {cl n v : Nat} (k : CtlState) (h : s.voltTarget cl n = some v) :
    s.askVolt cl n k = s.updCluster cl (fun c =>
      { c with ctl := k, stopped := false, stopping := false, stepAt := s.time, target := v }) := by
  rw [State.askVolt, h]

/-- One that it refuses is counted, and the step has ended. -/
theorem State.askVolt_refused {s : State} {cl n : Nat} (k : CtlState) (h : s.voltTarget cl n = none) :
    s.askVolt cl n k =
      (s.putPclus cl 51 40 (Nat.min 4095 (bitsOf (s.hubReg (offPCLUS cl)) 51 40 + 1))).stepEnded cl := by
  rw [State.askVolt, h]

/-- Taken or refused, a request of a voltage leaves the clock running and the step code as it was. -/
theorem State.askVolt_runs (s : State) (cl n : Nat) (k : CtlState) :
    ((s.askVolt cl n k).cluster cl).stopped = false ∧
      bitsOf ((s.askVolt cl n k).hubReg (offPCLUS cl)) 29 25 = bitsOf (s.hubReg (offPCLUS cl)) 29 25 := by
  cases h : s.voltTarget cl n with
  | some v => simp [State.askVolt_taken k h]
  | none =>
    rw [State.askVolt_refused k h, State.hubReg_stepEnded]
    exact ⟨State.stopped_stepEnded .., s.bitsOf_putPclus_below _ _ (by decide) (by decide)⟩

/-! ### POWER_SAMPLE: the rows of R109's table, first to last -/

theorem State.powerMove_overCap {s : State} {cl : Nat} (h : s.fcap cl < s.mhz cl) : s.powerMove cl = .lower := if_pos h

theorem State.powerMove_manual {s : State} {cl : Nat} (hcap : s.mhz cl ≤ s.fcap cl)
    (hauto : bitAt (s.hubReg (offPCLUS cl)) 0 = false) : s.powerMove cl = .stay := by
  simp [State.powerMove, Nat.not_lt.mpr hcap, hauto]

theorem State.powerMove_stalled {s : State} {cl : Nat} (hcap : s.mhz cl ≤ s.fcap cl)
    (hauto : bitAt (s.hubReg (offPCLUS cl)) 0 = true) (hhi : bitsOf (s.hubReg offPWRCFG) 31 24 ≤ (s.cluster cl).ratio)
    (hf : 300 < s.mhz cl) : s.powerMove cl = .lower := by
  simp [State.powerMove, Nat.not_lt.mpr hcap, hauto, hhi, hf]

theorem State.powerMove_busy {s : State} {cl : Nat} (hcap : s.mhz cl < s.fcap cl)
    (hauto : bitAt (s.hubReg (offPCLUS cl)) 0 = true) (hhi : (s.cluster cl).ratio < bitsOf (s.hubReg offPWRCFG) 31 24)
    (hlo : (s.cluster cl).ratio ≤ bitsOf (s.hubReg offPWRCFG) 23 16) : s.powerMove cl = .raise := by
  simp [State.powerMove, Nat.not_lt.mpr (Nat.le_of_lt hcap), hauto, Nat.not_le.mpr hhi, hlo, hcap]

theorem State.powerMove_between {s : State} {cl : Nat} (hcap : s.mhz cl ≤ s.fcap cl)
    (hauto : bitAt (s.hubReg (offPCLUS cl)) 0 = true) (hhi : (s.cluster cl).ratio < bitsOf (s.hubReg offPWRCFG) 31 24)
    (hlo : bitsOf (s.hubReg offPWRCFG) 23 16 < (s.cluster cl).ratio) : s.powerMove cl = .stay := by
  simp [State.powerMove, Nat.not_lt.mpr hcap, hauto, Nat.not_le.mpr hhi, Nat.not_le.mpr hlo]

section
variable {s : State} (hctl : (s.cluster s.input.who).ctl = .steady)
  (hage : 10000000 ≤ s.time - (s.cluster s.input.who).since)
include hctl hage

theorem powerSample_lowers (hmove : s.powerMove s.input.who = .lower) :
    Goes .powerSample s (fun t => (t.cluster s.input.who).ctl = .fdn ∧ ClockStops s t s.input.who ∧
      t.hub = s.hub ∧ t.banks = s.banks) := by
  have hrow : exec .powerSample s = .next (s.startFreq s.input.who .fdn) := by
    show execPowerSample s = _
    simp [execPowerSample, hctl, Nat.not_lt.mpr hage, hmove]
  exact ⟨_, hrow, s.ctl_startFreq _ _, clockStops_startFreq .., rfl, rfl⟩

theorem powerSample_stays (hmove : s.powerMove s.input.who = .stay) :
    Goes .powerSample s (fun t => (t.cluster s.input.who).ctl = .steady ∧ (t.cluster s.input.who).since = s.time ∧
      t.hub = s.hub ∧ t.banks = s.banks) := by
  have hrow : exec .powerSample s = .next (s.stepEnded s.input.who) := by
    show execPowerSample s = _
    simp [execPowerSample, hctl, Nat.not_lt.mpr hage, hmove]
  exact ⟨_, hrow, s.ctl_stepEnded _, s.since_stepEnded _, rfl, rfl⟩

theorem powerSample_raises (hmove : s.powerMove s.input.who = .raise) {v : Nat}
    (hv : s.voltTarget s.input.who (s.stepCode s.input.who + 1) = some v) :
    Goes .powerSample s (fun t => (t.cluster s.input.who).ctl = .vup ∧ (t.cluster s.input.who).target = v ∧
      t.hub = s.hub) := by
  have hrow : exec .powerSample s = .next (s.askVolt s.input.who (s.stepCode s.input.who + 1) .vup) := by
    show execPowerSample s = _
    simp [execPowerSample, hctl, Nat.not_lt.mpr hage, hmove]
  rw [State.askVolt_taken _ hv] at hrow
  exact ⟨_, hrow, by simp⟩

end

/-! ### VOLTAGE_STEP_DONE and FREQUENCY_STEP_DONE (R110) -/

section
variable {s : State} (hage : 2000000 ≤ s.time - (s.cluster s.input.who).stepAt)
  (htarget : (s.cluster s.input.who).target < 1024)
include hage htarget

theorem voltageStepDone_up (hctl : (s.cluster s.input.who).ctl = .vup) :
    Goes .voltageStepDone s (fun t => (t.cluster s.input.who).ctl = .fup ∧ ClockStops s t s.input.who ∧
      bitsOf (t.hubReg (offPCLUS s.input.who)) 39 30 = (s.cluster s.input.who).target) := by
  have hrow : exec .voltageStepDone s =
      .next ((s.putPclus s.input.who 39 30 (s.cluster s.input.who).target).startFreq s.input.who .fup) := by
    show execVoltageStepDone s = _
    simp [execVoltageStepDone, hctl, Nat.not_lt.mpr hage]
  exact ⟨_, hrow, State.ctl_startFreq .., clockStops_startFreq .., s.bitsOf_putPclus_same _ htarget⟩

theorem voltageStepDone_down (hctl : (s.cluster s.input.who).ctl = .vdn) :
    Goes .voltageStepDone s (fun t => (t.cluster s.input.who).ctl = .steady ∧
      bitsOf (t.hubReg (offPCLUS s.input.who)) 39 30 = (s.cluster s.input.who).target) := by
  have hrow : exec .voltageStepDone s =
      .next ((s.putPclus s.input.who 39 30 (s.cluster s.input.who).target).stepEnded s.input.who) := by
    show execVoltageStepDone s = _
    simp [execVoltageStepDone, hctl, Nat.not_lt.mpr hage]
  exact ⟨_, hrow, State.ctl_stepEnded .., s.bitsOf_putPclus_same _ htarget⟩

end

/-- A cluster's step code, one lower. -/
def State.stepDown (s : State) (cl : Nat) : State := s.putPclus cl 29 25 (s.stepCode cl - 1)

theorem exec_frequencyStepDone_running {s : State} (h : (s.cluster s.input.who).stopped = false) :
    exec .frequencyStepDone s = .next s := by
  show execFrequencyStepDone s = _
  simp [execFrequencyStepDone, h]

section
variable {s : State} (hstop : (s.cluster s.input.who).stopped = true)
include hstop

theorem frequencyStepDone_up (hctl : (s.cluster s.input.who).ctl = .fup) :
    Goes .frequencyStepDone s (fun t => (t.cluster s.input.who).ctl = .steady ∧
      (t.cluster s.input.who).stopped = false ∧
      bitsOf (t.hubReg (offPCLUS s.input.who)) 29 25 = s.stepCode s.input.who + 1) := by
  have hrow : exec .frequencyStepDone s =
      .next ((s.putPclus s.input.who 29 25 (s.stepCode s.input.who + 1)).stepEnded s.input.who) := by
    show execFrequencyStepDone s = _
    simp [execFrequencyStepDone, hstop, hctl]
  have hcode : s.stepCode s.input.who + 1 < 2 ^ (29 + 1 - 25) := by have := s.stepCode_le s.input.who; omega
  exact ⟨_, hrow, State.ctl_stepEnded .., State.stopped_stepEnded .., s.bitsOf_putPclus_same _ hcode⟩

theorem frequencyStepDone_down (hctl : (s.cluster s.input.who).ctl = .fdn) :
    Goes .frequencyStepDone s (fun t => (t.cluster s.input.who).stopped = false ∧
      bitsOf (t.hubReg (offPCLUS s.input.who)) 29 25 = s.stepCode s.input.who - 1) := by
  have hrow : exec .frequencyStepDone s = .next ((s.stepDown s.input.who).askVolt s.input.who
      ((s.stepDown s.input.who).stepCode s.input.who) .vdn) := by
    show execFrequencyStepDone s = _
    simp [execFrequencyStepDone, hstop, hctl, State.stepDown]
  have hcode : s.stepCode s.input.who - 1 < 2 ^ (29 + 1 - 25) := by have := s.stepCode_le s.input.who; omega
  obtain ⟨hruns, hkept⟩ := (s.stepDown s.input.who).askVolt_runs s.input.who _ .vdn
  exact ⟨_, hrow, hruns, hkept.trans (s.bitsOf_putPclus_same _ hcode)⟩

end

/-! ### Droops (R113) -/

/-- A cluster after a droop that found these steps and operations in flight. -/
def Cluster.drooped (c : Cluster) (inFlight : List (Nat × Nat)) : Cluster :=
  let start := ! c.stretched && decide (c.quiet = 0)
  { c with stretched := c.stretched || start, stretch := if start then 128 else c.stretch, suspect := inFlight }

theorem Cluster.drooped_starts {c : Cluster} (hs : c.stretched = false) (hq : c.quiet = 0) (l : List (Nat × Nat)) :
    (c.drooped l).stretched = true ∧ (c.drooped l).stretch = 128 := by
  simp [Cluster.drooped, hs, hq]

theorem Cluster.drooped_stretch {c : Cluster} (hs : c.stretched = true) (l : List (Nat × Nat)) :
    (c.drooped l).stretch = c.stretch := by
  simp [Cluster.drooped, hs]

theorem exec_droop (s : State) : exec .droop s =
    .next ((s.putPclus s.input.who 63 52 (Nat.min 4095 (bitsOf (s.hubReg (offPCLUS s.input.who)) 63 52 + 1))).updCluster
      s.input.who (·.drooped (s.inFlight s.input.who))) := rfl

theorem exec_stretchEnd {s : State} (hs : (s.cluster s.input.who).stretched = true)
    (hlast : (s.cluster s.input.who).stretch = 0) : exec .stretchEnd s =
    .next (s.updCluster s.input.who (fun c => { c with stretched := false, quiet := 1024 })) := by
  show execStretchEnd s = _
  simp [execStretchEnd, State.updCluster, hs, hlast]

/-! ### Registers (R115) -/

theorem exec_pclusWrite (s : State) : exec .pclusWrite s = .next (s.setHub (offPCLUS s.input.who)
    ((s.input.value.toNat &&& 0x1FFF001) ||| (s.hubReg (offPCLUS s.input.who) &&& (2 ^ 64 - 1 - 0x1FFF001)))) := rfl

/-- The bits of PCLUS that a write sets: auto, and trim and fmax. -/
theorem testBit_pclusMask {i : Nat} (h : i < 64) :
    (0x1FFF001).testBit i = decide (i = 0 ∨ (12 ≤ i ∧ i ≤ 24)) := by
  have hall : ∀ i : Fin 64, (0x1FFF001).testBit i = decide (i.val = 0 ∨ (12 ≤ i.val ∧ i.val ≤ 24)) := by decide
  exact hall ⟨i, h⟩

theorem exec_pwrcfgWrite_refused {s : State} (h : bitsOf s.input.value.toNat 31 24 ≤ bitsOf s.input.value.toNat 23 16) :
    exec .pwrcfgWrite s = .next s := congrArg Outcome.next (if_pos h)

theorem exec_pwrcfgWrite_taken {s : State} (h : bitsOf s.input.value.toNat 23 16 < bitsOf s.input.value.toNat 31 24) :
    exec .pwrcfgWrite s = .next (s.setHub offPWRCFG (s.input.value.toNat &&& 0xFFFF0000)) :=
  congrArg Outcome.next (if_neg (Nat.not_le.mpr h))

/-- Settles O52: the table of R109 row by row, and for each other event what its step leaves of the cluster and of its
PCLUS. -/
theorem powerControl : Obligations.PowerControl := by
  unfold Obligations.PowerControl
  refine ⟨?sample, ?voltage, ?running, ?frequency, ?droop, ?stretch, ?pclus, ?pwrcfg⟩
  case sample =>
    rintro s cl rfl hctl hage
    refine ⟨fun hover => ?_, fun hcap hauto => ?_, fun hcap hauto hhi hf => ?_, fun v hcap hauto hhi hlo hv => ?_,
      fun hcap hauto hhi hlo => ?_⟩
    · exact powerSample_lowers hctl hage (State.powerMove_overCap hover)
    · exact powerSample_stays hctl hage (State.powerMove_manual hcap hauto)
    · exact powerSample_lowers hctl hage (State.powerMove_stalled hcap hauto hhi hf)
    · exact powerSample_raises hctl hage (State.powerMove_busy hcap hauto hhi hlo) hv
    · exact powerSample_stays hctl hage (State.powerMove_between hcap hauto hhi hlo)
  case voltage =>
    rintro s cl rfl hage htarget
    exact ⟨voltageStepDone_up hage htarget, voltageStepDone_down hage htarget⟩
  case running =>
    rintro s cl rfl hruns
    exact exec_frequencyStepDone_running hruns
  case frequency =>
    rintro s cl rfl hstop
    exact ⟨frequencyStepDone_up hstop, frequencyStepDone_down hstop⟩
  case droop =>
    rintro s cl rfl
    refine ⟨_, exec_droop s, rfl, ?_⟩
    rw [State.cluster_updCluster_same, State.hubReg_updCluster, State.cluster_putPclus,
      State.bitsOf_putPclus_same s _ (Nat.lt_succ_of_le (Nat.min_le_left ..))]
    exact ⟨rfl, rfl, fun hs hq => Cluster.drooped_starts hs hq _, fun hs => Cluster.drooped_stretch hs _⟩
  case stretch =>
    rintro s cl rfl hs hlast
    refine ⟨_, exec_stretchEnd hs hlast, rfl, ?_⟩
    rw [State.cluster_updCluster_same]
    exact ⟨rfl, rfl⟩
  case pclus =>
    rintro s cl rfl -
    refine ⟨_, exec_pclusWrite s, rfl, fun i hi => ?_⟩
    simp only [State.hubReg_setHub_same, bitAt_eq_testBit]
    rw [testBit_masked (by decide) hi, testBit_pclusMask hi]
    simp only [decide_eq_true_eq]
  case pwrcfg =>
    intro s
    exact ⟨exec_pwrcfgWrite_refused, fun h => ⟨_, exec_pwrcfgWrite_taken h, rfl, s.hubReg_setHub_same _ _⟩⟩

end Sys2Proof.Machine
end

section
/-! Refresh and free granules (chapter 07): what the loss of a write leaves where no answer waits, what a load of the
bitmap makes of memory, and when a bank is refreshed (O53). -/

namespace Sys2Proof.Machine

open Sys2Proof Host

/-! ### REFCFG -/

/-- REFCFG.sync after it has been replaced. -/
theorem bitAt_putBits_sync (v : Nat) (on : Bool) : bitAt (putBits v 1 1 (if on then 1 else 0)) 1 = on := by
  rw [bitAt_eq_bitsOf, bitsOf_putBits_same]
  cases on <;> rfl

/-! ### Writes that are lost (R117) -/

/-- The state is as it was but for its writes in flight and its banks. -/
def OnlyWritesAndBanks (s t : State) : Prop := ∃ ws bs, t = { s with writes := ws, banks := bs }

theorem OnlyWritesAndBanks.trans {s t u : State} (hst : OnlyWritesAndBanks s t) (htu : OnlyWritesAndBanks t u) :
    OnlyWritesAndBanks s u := by
  obtain ⟨ws, bs, rfl⟩ := hst
  obtain ⟨ws', bs', rfl⟩ := htu
  exact ⟨ws', bs', rfl⟩

theorem OnlyWritesAndBanks.answers {s t : State} (h : OnlyWritesAndBanks s t) : t.fab.answers = s.fab.answers := by
  obtain ⟨ws, bs, rfl⟩ := h; rfl

theorem OnlyWritesAndBanks.mem {s t : State} (h : OnlyWritesAndBanks s t) : t.mem = s.mem := by
  obtain ⟨ws, bs, rfl⟩ := h; rfl

/-- Which granules return to use does not depend on the writes in flight. -/
theorem OnlyWritesAndBanks.returns {s t : State} (h : OnlyWritesAndBanks s t) (d pa : Nat) :
    t.returns d pa = s.returns d pa := by
  obtain ⟨ws, bs, rfl⟩ := h; rfl

/-- A lost write is taken out of flight; of a module release an empty write stays, for its stamp (R190). -/
def State.dropWrite (s : State) (w : Write) : State :=
  if w.isModuleRelease then s.putWrite { w with bytes := [] }
  else { s with writes := s.writes.filter (fun u => u.id ≠ w.id) }

theorem onlyWritesAndBanks_dropWrite (s : State) (w : Write) : OnlyWritesAndBanks s (s.dropWrite w) := by
  unfold State.dropWrite
  split
  · exact ⟨_, _, rfl⟩
  · exact ⟨_, _, rfl⟩

/-- What is still in flight is empty or another write. -/
theorem State.mem_writes_dropWrite {s : State} {w u : Write} (h : u ∈ (s.dropWrite w).writes) :
    u.bytes = [] ∨ (u ∈ s.writes ∧ u.id ≠ w.id) := by
  unfold State.dropWrite at h
  split at h
  next =>
    obtain ⟨v, hv, rfl⟩ := List.mem_map.mp h
    by_cases hid : v.id = w.id
    · simp [hid]
    · simp [hid, hv]
  next => exact .inr (by simpa using List.mem_filter.mp h)

theorem State.answersLost_of_none {s : State} (h : s.fab.answers = []) (id : Nat) : s.answersLost id = s := by
  simp only [State.answersLost, h, List.filter_nil, List.foldl_nil]
  rw [← h]

theorem State.settleAnswers_of_none {s : State} (h : s.fab.answers = []) : s.settleAnswers = s := by
  simp only [State.settleAnswers, h, List.filter_nil, List.foldl_nil]
  rw [← h]

/-- Where no answer waits, the loss of a write drops it and tells at most one bank, the one that made it. -/
theorem State.writeLost_cases {s : State} (h : s.fab.answers = []) (w : Write) :
    s.writeLost w = s.dropWrite w ∨ ∃ b f, s.writeLost w = (s.dropWrite w).updBank b f := by
  have hnone : (s.dropWrite w).fab.answers = [] := (onlyWritesAndBanks_dropWrite s w).answers.trans h
  generalize ht : s.writeLost w = t
  unfold State.writeLost at ht
  extract_lets u va at ht
  have hu : u = s.dropWrite w := rfl
  rw [hu] at ht
  split at ht
  next b _ => exact .inr ⟨b, _, ht.symm⟩
  next b k _ => exact .inr ⟨b, _, ht.symm⟩
  next =>
    split at ht
    next b _ => exact .inr ⟨b, _, ht.symm⟩
    next => exact .inl (ht.symm.trans (State.answersLost_of_none hnone w.id))

theorem onlyWritesAndBanks_writeLost {s : State} (h : s.fab.answers = []) (w : Write) :
    OnlyWritesAndBanks s (s.writeLost w) := by
  obtain hw | ⟨b, f, hw⟩ := State.writeLost_cases h w <;> rw [hw]
  · exact onlyWritesAndBanks_dropWrite s w
  · exact (onlyWritesAndBanks_dropWrite s w).trans ⟨_, _, rfl⟩

theorem State.writes_writeLost {s : State} (h : s.fab.answers = []) (w : Write) :
    (s.writeLost w).writes = (s.dropWrite w).writes := by
  obtain hw | ⟨b, f, hw⟩ := State.writeLost_cases h w <;> rw [hw]
  exact State.updBank_writes ..

/-- Writes are lost one after the other. -/
def State.loseAll (s : State) (l : List Write) : State := l.foldl (fun s w => s.writeLost w) s

theorem onlyWritesAndBanks_loseAll {s : State} (h : s.fab.answers = []) (l : List Write) :
    OnlyWritesAndBanks s (s.loseAll l) := by
  induction l generalizing s with
  | nil => exact ⟨_, _, rfl⟩
  | cons w l ih =>
    have hw := onlyWritesAndBanks_writeLost h w
    exact hw.trans (ih (hw.answers.trans h))

theorem State.mem_writes_loseAll {s : State} (h : s.fab.answers = []) {l : List Write} {u : Write}
    (hu : u ∈ (s.loseAll l).writes) : u.bytes = [] ∨ (u ∈ s.writes ∧ ∀ w ∈ l, u.id ≠ w.id) := by
  induction l generalizing s with
  | nil => exact .inr ⟨hu, by simp⟩
  | cons w l ih =>
    obtain hempty | ⟨hflight, hothers⟩ := ih ((onlyWritesAndBanks_writeLost h w).answers.trans h) hu
    · exact .inl hempty
    · rw [State.writes_writeLost h] at hflight
      exact (State.mem_writes_dropWrite hflight).imp_right fun ⟨hs, hne⟩ =>
        ⟨hs, List.forall_mem_cons.mpr ⟨hne, hothers⟩⟩

/-- The writes that a load of a die's bitmap loses. -/
def State.returning (s : State) (d : Nat) : List Write :=
  s.writes.filter (fun w => ! w.scr && ! w.bytes.isEmpty && s.returns d w.addr)

theorem State.mem_returning {s : State} {d : Nat} {w : Write} :
    w ∈ s.returning d ↔ w ∈ s.writes ∧ w.scr = false ∧ w.bytes ≠ [] ∧ s.returns d w.addr = true := by
  simp [State.returning, and_assoc]

theorem State.loseReturning_eq_loseAll {s : State} (h : s.fab.answers = []) (d : Nat) :
    s.loseReturning d = s.loseAll (s.returning d) :=
  State.settleAnswers_of_none ((onlyWritesAndBanks_loseAll h _).answers.trans h)

/-! ### Rows -/

/-- A write of REFCFG with sync set starts a load of the bitmap. -/
theorem exec_refcfgSync {s : State} (h : bitAt s.input.value.toNat 1 = true) : exec .refcfgSync s = .next
    { s with
      hub := (s.setHub (offREFCFG s.input.who) (putBits (s.input.value.toNat &&& 0x000FFFFFFFE00001) 1 1 1)).hub
      power := { s.power with loading := KV.put s.power.loading s.input.who true } } := by
  show execRefcfgSync s = _
  simp only [execRefcfgSync, h, Bool.true_or, if_true]
  rfl

/-- The end of a load of the bitmap: the writes to returning granules are lost, and then the granules' bytes are dropped,
the bitmap is taken and sync falls. -/
theorem exec_bitmapLoaded_loading {s : State} {d : Nat} (hd : s.input.who = d) (h : KV.get false s.power.loading d = true) :
    ∃ free, exec .bitmapLoaded s = .next
      { s.loseReturning d with
        hub := ((s.loseReturning d).setHub (offREFCFG d) (putBits ((s.loseReturning d).hubReg (offREFCFG d)) 1 1 0)).hub
        mem := (s.loseReturning d).mem.filter (fun c => ! (s.loseReturning d).returns d c.1)
        power := { (s.loseReturning d).power with
          free := free, loading := KV.put (s.loseReturning d).power.loading d false } } := by
  subst hd
  exact ⟨_, congrArg Outcome.next (if_neg (by simp [h]))⟩

theorem exec_refresh_made {s : State}
    (hage : s.refreshInterval s.input.who ≤ s.time - KV.get 0 s.power.refreshed s.input.who)
    (h : bitAt (s.hubReg (offREFCFG (s.input.who / 4096))) 0 = false ∨ s.rowsFree s.input.who = false) :
    exec .refresh s =
      .next { s with power := { s.power with refreshed := KV.put s.power.refreshed s.input.who s.time } } := by
  have hskip : ¬ (bitAt (s.hubReg (offREFCFG (s.input.who / 4096))) 0 && s.rowsFree s.input.who) = true := by
    rw [Bool.and_eq_true]
    rintro ⟨hon, hfree⟩
    simp [hon, hfree] at h
  exact congrArg Outcome.next ((if_neg (Nat.not_lt.mpr hage)).trans (if_neg hskip))

theorem exec_refresh_skipped {s : State}
    (hage : s.refreshInterval s.input.who ≤ s.time - KV.get 0 s.power.refreshed s.input.who)
    (hon : bitAt (s.hubReg (offREFCFG (s.input.who / 4096))) 0 = true) (hfree : s.rowsFree s.input.who = true) :
    exec .refresh s = .next s :=
  congrArg Outcome.next ((if_neg (Nat.not_lt.mpr hage)).trans (if_pos (by rw [hon, hfree]; rfl)))

/-- A bank's reading of its temperature. -/
def State.readTemp (s : State) : State :=
  { s with power := { s.power with temps := KV.put s.power.temps s.input.who s.input.celsius } }

theorem exec_temperatureEvent (s : State) : exec .temperatureEvent s =
    .next (if KV.get 25 s.power.temps s.input.who ≤ 105 ∧ 105 < s.input.celsius then s.readTemp.irq 3 else s.readTemp) :=
  rfl

/-- Settles O53: a load of the bitmap loses writes alone before it drops bytes, so that both go by what returned to use
when it began. -/
theorem refresh : Obligations.Refresh := by
  unfold Obligations.Refresh
  refine ⟨?sync, ?loaded, ?due, ?temperature⟩
  case sync =>
    rintro s d rfl hsync
    refine ⟨_, exec_refcfgSync hsync, KV.get_put_same _ _ _ _, ?_, rfl, rfl⟩
    exact (congrArg (bitAt · 1) (State.hubReg_setHub_same _ _ _)).trans (bitAt_putBits_sync _ true)
  case loaded =>
    rintro s d hd hload hnone
    obtain ⟨free, hrow⟩ := exec_bitmapLoaded_loading hd hload
    rw [State.loseReturning_eq_loseAll hnone] at hrow
    have hlose := onlyWritesAndBanks_loseAll hnone (s.returning d)
    refine ⟨_, hrow, KV.get_put_same _ _ _ _, ?_, fun a => ?_, fun w hw hlost => ?_, fun hkept => ?_⟩
    · exact (congrArg (bitAt · 1) (State.hubReg_setHub_same _ _ _)).trans (bitAt_putBits_sync _ false)
    · refine (Memory.read_filter _ (fun k => ! State.returns _ d k) a).trans ?_
      rw [hlose.mem, hlose.returns]
      cases s.returns d a <;> rfl
    · obtain ⟨hscr, hbytes, hreturns⟩ := hlost
      obtain hempty | ⟨hflight, hothers⟩ := State.mem_writes_loseAll hnone hw
      · exact hbytes hempty
      · exact hothers w (State.mem_returning.mpr ⟨hflight, hscr, hbytes, hreturns⟩) rfl
    · have hnil : s.returning d = [] := List.eq_nil_iff_forall_not_mem.mpr fun w hw =>
        hkept w (State.mem_returning.mp hw).1 (State.mem_returning.mp hw).2
      rw [hnil]
      exact ⟨rfl, rfl⟩
  case due =>
    rintro s key rfl hage
    exact ⟨fun h => ⟨_, exec_refresh_made hage h, rfl, KV.get_put_same _ _ _ _⟩, exec_refresh_skipped hage⟩
  case temperature =>
    rintro s key rfl
    refine ⟨_, exec_temperatureEvent s, ?_⟩
    split
    next h =>
      refine ⟨KV.get_put_same _ _ _ _, rfl, fun _ _ => rfl, fun hnot => ?_⟩
      omega
    next h =>
      exact ⟨KV.get_put_same _ _ _ _, rfl, fun hold hnew => absurd ⟨hold, hnew⟩ h, fun _ => rfl⟩

end Sys2Proof.Machine
end

section
/-! The entry into a trap handler and the return from it (chapter 10): what each leaves of a bank (O15, O16). -/

namespace Sys2Proof.Machine

open Sys2Proof Host

/-! ### System registers -/

@[simp] theorem Bank.csrGet_csrPut_same (B : Bank) (n : Nat) (x : Word) : (B.csrPut n x).csrGet n = x :=
  KV.get_put_same _ _ _ _

theorem Bank.csrGet_csrPut_ne (B : Bank) {n k : Nat} (x : Word) (h : k ≠ n) : (B.csrPut n x).csrGet k = B.csrGet k :=
  KV.get_put_ne _ h

/-! ### HANDLER_ENTRY (R163) -/

/-- What TPC takes: the text index of the word at which a trap is taken. -/
def Bank.takenPc (B : Bank) (t : PendTrap) : Nat := if t.deferred then B.wc.pc else t.pc

section
variable (B : Bank) (t : PendTrap)

theorem Bank.csr_enterHandler : (B.enterHandler t).csr =
    (((B.csrPut csrTCAUSE t.cause).csrPut csrTVAL t.tval).csrPut csrTPC (BitVec.ofNat 64 (B.takenPc t))).csr := rfl

theorem Bank.csrGet_enterHandler_tcause : (B.enterHandler t).csrGet csrTCAUSE = t.cause := by
  rw [Bank.csrGet, Bank.csr_enterHandler, ← Bank.csrGet, Bank.csrGet_csrPut_ne _ _ (by decide),
    Bank.csrGet_csrPut_ne _ _ (by decide), Bank.csrGet_csrPut_same]

theorem Bank.csrGet_enterHandler_tval : (B.enterHandler t).csrGet csrTVAL = t.tval := by
  rw [Bank.csrGet, Bank.csr_enterHandler, ← Bank.csrGet, Bank.csrGet_csrPut_ne _ _ (by decide),
    Bank.csrGet_csrPut_same]

theorem Bank.csrGet_enterHandler_tpc : (B.enterHandler t).csrGet csrTPC = BitVec.ofNat 64 (B.takenPc t) := by
  rw [Bank.csrGet, Bank.csr_enterHandler, ← Bank.csrGet, Bank.csrGet_csrPut_same]

theorem Bank.csrGet_enterHandler_ne {n : Nat} (hcause : n ≠ csrTCAUSE) (htval : n ≠ csrTVAL) (htpc : n ≠ csrTPC) :
    (B.enterHandler t).csrGet n = B.csrGet n := by
  rw [Bank.csrGet, Bank.csr_enterHandler, ← Bank.csrGet, Bank.csrGet_csrPut_ne _ _ htpc,
    Bank.csrGet_csrPut_ne _ _ htval, Bank.csrGet_csrPut_ne _ _ hcause]

theorem Bank.pc_enterHandler : (B.enterHandler t).wc.pc = bitsOf (B.csrGet csrTVEC).toNat 14 0 :=
  congrArg (fun x : Word => bitsOf x.toNat 14 0)
    (B.csrGet_enterHandler_ne t (n := csrTVEC) (by decide) (by decide) (by decide))

end

/-- Whether a bank was live or had stopped, it is live once it has taken its trap (log entry 111). -/
theorem Bank.live_of_stopped {B : Bank} (h : B.status = .live ∨ B.status = .stopped) :
    (if B.status = .stopped then { B with status := .live } else B) = { B with status := .live } := by
  obtain hlive | hstopped := h
  · rw [if_neg (by rw [hlive]; decide), ← hlive]
  · rw [if_pos hstopped]

theorem exec_handlerEntry_enters {s : State} {t : PendTrap}
    (hstatus : (s.bank s.input.who).status = .live ∨ (s.bank s.input.who).status = .stopped)
    (hnext : (s.bank s.input.who).nextTrap = some t) (hplain : (s.bank s.input.who).trap.handler = false)
    (hready : s.trapReady s.input.who t = true)
    (hon : bitAt ((s.bank s.input.who).csrGet csrTVEC).toNat 15 = true) :
    exec .handlerEntry s =
      .next (s.updBank s.input.who (fun B => { B.enterHandler t with status := .live })) := by
  have hrun : ¬((s.bank s.input.who).status ≠ .live ∧ (s.bank s.input.who).status ≠ .stopped ∧
      isSys s.input.who = false) := fun ⟨hlive, hstopped, _⟩ => hstatus.elim hlive hstopped
  have hwake := Bank.live_of_stopped (B := (s.bank s.input.who).enterHandler t) hstatus
  show execHandlerEntry s = _
  unfold execHandlerEntry
  simp only [hnext, hrun, hready, hplain, hon, if_false, Bool.not_true, Bool.or_self, Bool.false_eq_true]
  exact congrArg (fun B => Outcome.next (s.setBank s.input.who B)) hwake

/-- Settles O15: a trap's code, address and place stand in the three registers, and beside them the entry moves the
control strand alone. -/
theorem trapEntry : Obligations.TrapEntry := by
  unfold Obligations.TrapEntry
  refine ⟨fun s a i h => traps_of h rfl rfl rfl, ?_⟩
  rintro s b t rfl htask hstatus hnext hplain hready hon
  refine ⟨_, exec_handlerEntry_enters hstatus hnext hplain hready hon, OnlyBank.updBank _ _ _, ?_⟩
  rw [State.bank_updBank_same]
  exact ⟨rfl, rfl, Bank.csrGet_enterHandler_tcause _ t, Bank.csrGet_enterHandler_tval _ t,
    Bank.csrGet_enterHandler_tpc _ t, Bank.pc_enterHandler _ t, rfl, rfl, rfl, rfl, rfl, rfl, rfl, rfl,
    fun n => Bank.csrGet_enterHandler_ne _ t⟩

/-! ### `tret` (R165) -/

theorem Strand.ofCode_code (e : Strand) : Strand.ofCode e.code = e := by cases e <;> rfl

/-- A bank whose control strand is back at the word at which the trap was taken, with what the trap kept of it (R185).
Where the return goes on at a word that stood (`keeps`), the request of that word is as it was; else its word is
passed. -/
def Bank.controlBack (B : Bank) (keeps : Bool) (again : Nat) : Bank :=
  let T := B.trap
  { B with again := again
           wc := { B.wc.at_ T.taken.pc B.wc.walk with pfx := T.pfx }
           trap := { TrapState.none with
                      pending := T.pending, skips := if keeps then T.skips else B.wc.walk :: T.skips }
           out := if keeps then
               { B.out with dec := T.dec, desc := T.desc, splits := B.out.splits.map (reflag 17 16) }
             else { B.out with splits := B.out.splits.map (reflag 17 18), denied := none } }

/-- A strand resumes at a place; where it stood there, what it had kept for its word stays (R185). -/
def Bank.resumeAt (B : Bank) (e : Strand) (pc walk : Nat) : Bank :=
  B.setWalker e { (B.walker e).at_ pc walk with pfx := if pc = (B.walker e).pc then (B.walker e).pfx else none }

/-- The text index of the word that trapped in strand `e`: of the control strand's, where it stood at the trap. -/
def Bank.trappedPc (B : Bank) (e : Strand) : Nat := if e = .c then B.trap.taken.pc else (B.walker e).pc

/-- The walk index at which a strand resumes at `pc`. -/
def Bank.resumedWalk (B : Bank) (e : Strand) (pc : Nat) : Nat :=
  if pc = B.trappedPc e then B.trap.taken.walk else B.trap.taken.walk + 1

theorem Bank.ite_again (B : Bank) (p : Prop) [Decidable p] :
    (if p then { B with again := 0 } else B) = { B with again := if p then 0 else B.again } := by
  split <;> rfl

/-- A return puts the control strand back and lets the strand that TCAUSE names resume. -/
theorem Bank.leaveHandler_eq {B : Bank} {e : Strand} (htaken : B.trap.taken.strand = e)
    (hcause : bitsOf (B.csrGet csrTCAUSE).toNat 9 8 = e.code) :
    let pc := bitsOf (B.csrGet csrTPC).toNat 14 0
    ∃ again, B.leaveHandler = ((B.controlBack (decide (e ≠ .c ∨ pc = B.trap.taken.pc)) again).resumeAt e pc
      (B.resumedWalk e pc)).freeCommands.moved := by
  simp only [Bank.leaveHandler, Bank.ite_again, hcause, Strand.ofCode_code, htaken]
  exact ⟨_, rfl⟩

@[simp] theorem Bank.walker_moved_pfx (B : Bank) (e : Strand) : (B.moved.walker e).pfx = (B.walker e).pfx := by
  cases e <;> rfl

/-- Commands that are let go change the transfer window alone. -/
theorem Bank.freeCommands_eq (B : Bank) : ∃ x, B.freeCommands = { B with xfer := x } := by
  unfold Bank.freeCommands
  split
  · exact ⟨B.xfer, rfl⟩
  · exact ⟨_, rfl⟩

@[simp] theorem Bank.walker_freeCommands (B : Bank) (e : Strand) : B.freeCommands.walker e = B.walker e := by
  obtain ⟨x, hx⟩ := B.freeCommands_eq
  rw [hx]
  cases e <;> rfl

@[simp] theorem Bank.freeCommands_trap (B : Bank) : B.freeCommands.trap = B.trap := by
  obtain ⟨x, hx⟩ := B.freeCommands_eq
  rw [hx]

@[simp] theorem Bank.freeCommands_out (B : Bank) : B.freeCommands.out = B.out := by
  obtain ⟨x, hx⟩ := B.freeCommands_eq
  rw [hx]

@[simp] theorem Bank.freeCommands_r (B : Bank) : B.freeCommands.r = B.r := by
  obtain ⟨x, hx⟩ := B.freeCommands_eq
  rw [hx]

@[simp] theorem Bank.freeCommands_q (B : Bank) : B.freeCommands.q = B.q := by
  obtain ⟨x, hx⟩ := B.freeCommands_eq
  rw [hx]

@[simp] theorem Bank.freeCommands_csr (B : Bank) : B.freeCommands.csr = B.csr := by
  obtain ⟨x, hx⟩ := B.freeCommands_eq
  rw [hx]

@[simp] theorem Bank.walker_resumeAt_same (B : Bank) (e : Strand) (pc walk : Nat) : (B.resumeAt e pc walk).walker e =
    { (B.walker e).at_ pc walk with pfx := if pc = (B.walker e).pc then (B.walker e).pfx else none } :=
  Bank.walker_setWalker_same ..

theorem Bank.walker_resumeAt_ne (B : Bank) {e f : Strand} (pc walk : Nat) (h : f ≠ e) :
    (B.resumeAt e pc walk).walker f = B.walker f := Bank.walker_setWalker_ne _ _ h

@[simp] theorem Bank.resumeAt_trap (B : Bank) (e : Strand) (pc walk : Nat) : (B.resumeAt e pc walk).trap = B.trap :=
  Bank.setWalker_trap ..

@[simp] theorem Bank.resumeAt_out (B : Bank) (e : Strand) (pc walk : Nat) : (B.resumeAt e pc walk).out = B.out :=
  Bank.setWalker_out ..

theorem Bank.walker_controlBack_ne (B : Bank) {f : Strand} (keeps : Bool) (again : Nat) (h : f ≠ .c) :
    (B.controlBack keeps again).walker f = B.walker f := by
  cases f
  case c => exact absurd rfl h
  all_goals rfl

section
variable {B : Bank} {e : Strand} (htaken : B.trap.taken.strand = e)
  (hcause : bitsOf (B.csrGet csrTCAUSE).toNat 9 8 = e.code)
include htaken hcause

theorem Bank.leaveHandler_handler : B.leaveHandler.trap.handler = false := by
  obtain ⟨again, hleave⟩ := Bank.leaveHandler_eq htaken hcause
  simp [hleave, Bank.controlBack, TrapState.none]

theorem Bank.leaveHandler_place : (B.leaveHandler.walker e).pc = bitsOf (B.csrGet csrTPC).toNat 14 0 ∧
    (B.leaveHandler.walker e).walk = B.resumedWalk e (bitsOf (B.csrGet csrTPC).toNat 14 0) := by
  obtain ⟨again, hleave⟩ := Bank.leaveHandler_eq htaken hcause
  simp [hleave, Walker.at_]

theorem Bank.leaveHandler_control (h : e ≠ .c) :
    B.leaveHandler.wc.pc = B.trap.taken.pc ∧ B.leaveHandler.wc.pfx = B.trap.pfx := by
  obtain ⟨again, hleave⟩ := Bank.leaveHandler_eq htaken hcause
  rw [← Bank.walker_c, hleave, Bank.walker_moved_pc, Bank.walker_moved_pfx, Bank.walker_freeCommands,
    Bank.walker_resumeAt_ne _ _ _ (Ne.symm h)]
  exact ⟨rfl, rfl⟩

theorem Bank.leaveHandler_keeps (h : e ≠ .c ∨ bitsOf (B.csrGet csrTPC).toNat 14 0 = B.trap.taken.pc) :
    B.leaveHandler.wc.pfx = B.trap.pfx ∧ B.leaveHandler.out.dec = B.trap.dec := by
  obtain ⟨again, hleave⟩ := Bank.leaveHandler_eq htaken hcause
  refine ⟨?_, by simp [hleave, Bank.controlBack, h]⟩
  by_cases he : e = .c
  · have hpc := h.resolve_left (not_not_intro he)
    subst he
    rw [← Bank.walker_c, hleave, Bank.walker_moved_pfx, Bank.walker_freeCommands, Bank.walker_resumeAt_same]
    exact if_pos hpc
  · exact (Bank.leaveHandler_control htaken hcause he).2

theorem Bank.leaveHandler_passes (he : e = .c) (hpc : bitsOf (B.csrGet csrTPC).toNat 14 0 ≠ B.trap.taken.pc) :
    B.leaveHandler.wc.pfx = none ∧ B.wc.walk ∈ B.leaveHandler.trap.skips := by
  obtain ⟨again, hleave⟩ := Bank.leaveHandler_eq htaken hcause
  subst he
  refine ⟨?_, by simp [hleave, Bank.controlBack, hpc]⟩
  rw [← Bank.walker_c, hleave, Bank.walker_moved_pfx, Bank.walker_freeCommands, Bank.walker_resumeAt_same]
  exact if_neg hpc

theorem Bank.leaveHandler_others {f : Strand} (hf : f ≠ e) (hc : f ≠ .c) :
    (B.leaveHandler.walker f).pc = (B.walker f).pc ∧ (B.leaveHandler.walker f).walk = (B.walker f).walk := by
  obtain ⟨again, hleave⟩ := Bank.leaveHandler_eq htaken hcause
  simp [hleave, Bank.walker_resumeAt_ne _ _ _ hf, Bank.walker_controlBack_ne _ _ _ hc]

theorem Bank.leaveHandler_frame :
    B.leaveHandler.r = B.r ∧ B.leaveHandler.q = B.q ∧ B.leaveHandler.csr = B.csr := by
  obtain ⟨again, hleave⟩ := Bank.leaveHandler_eq htaken hcause
  simp [hleave, Bank.resumeAt, Bank.controlBack]

end

theorem tret_outsideHandler_traps {s : State} (hc : s.cur.strand = .c) (h : s.here.trap.handler = false) :
    Traps .tret s .c 0x01 (wordVal .tret) := by
  show Outcome.next (tretStep s) = _
  unfold State.here at h
  simp only [tretStep, hc, h, if_true, Bool.false_eq_true, if_false]
  rfl

theorem exec_tret_returns {s : State} (hc : s.cur.strand = .c) (h : s.here.trap.handler = true) :
    exec .tret s = .next (s.updBank s.cur.bank (fun B => B.leaveHandler.onNow (·.issue .c))) := by
  show Outcome.next (tretStep s) = _
  unfold State.here at h
  simp only [tretStep, hc, h, if_true]

/-- Settles O16: each clause is what `Bank.leaveHandler` makes of one part of the bank. -/
theorem trapReturn : Obligations.TrapReturn := by
  unfold Obligations.TrapReturn
  intro s hc
  refine ⟨tret_outsideHandler_traps hc, fun e hhandler htaken hcause => ?_⟩
  refine ⟨_, exec_tret_returns hc hhandler, OnlyBank.updBank _ _ _, ?_⟩
  obtain ⟨hpc, hwalk⟩ := Bank.leaveHandler_place htaken hcause
  have hhere : (s.updBank s.cur.bank (fun B => B.leaveHandler.onNow (·.issue .c))).here =
      s.here.leaveHandler.onNow (·.issue .c) := State.bank_updBank_same _ _ _
  have hwalker (f : Strand) : (s.here.leaveHandler.onNow (·.issue .c)).walker f = s.here.leaveHandler.walker f := by
    cases f <;> rfl
  rw [hhere]
  simp only [hwalker]
  exact ⟨Bank.leaveHandler_handler htaken hcause, hpc, hwalk,
    fun he => (Bank.leaveHandler_control htaken hcause he).1, Bank.leaveHandler_keeps htaken hcause,
    Bank.leaveHandler_passes htaken hcause, fun f => Bank.leaveHandler_others htaken hcause,
    Bank.leaveHandler_frame htaken hcause⟩

end Sys2Proof.Machine
end

section
/-! Where the checks of a scalar load stop it (chapter 15): the checks of R293 on one address, in their order (O22). -/

namespace Sys2Proof.Machine

open Sys2Proof Host

/-! ### The checks on one address (R293) -/

section
variable {b x size : Nat} {s : State}

theorem localCheck_pastWindow (h : (s.bank b).windowSize < x + size) : localCheck b s size [x] =
    .bad (.trap cScratchBounds (BitVec.ofNat 64 (max x (s.bank b).windowSize))) := by
  simp only [localCheck, List.find?_cons, decide_eq_true h]

theorem vaCheck_tooHigh {kind : AccKind} {rule : RemRule} (h : 2 ^ 57 ≤ x) : vaCheck b s kind size rule [x] =
    .bad (.trap cAccess (BitVec.ofNat 64 x)) := by
  simp only [vaCheck, List.find?_cons, decide_eq_true h]

theorem vaCheck_misaligned {kind : AccKind} {rule : RemRule} (hlow : x < 2 ^ 57) (h : x % size ≠ 0) :
    vaCheck b s kind size rule [x] = .bad (.trap cAlign (BitVec.ofNat 64 x)) := by
  simp only [vaCheck, List.find?_cons, List.find?_nil, decide_eq_false (Nat.not_le.mpr hlow), decide_eq_true h]

/-- A word of a task that no answer of ACCESS waits for. -/
structure Unanswered (b : Nat) (s : State) : Prop where
  task : isSys b = false
  undenied : (s.bank b).out.denied = none

theorem Bank.deniedHere_of_none {B : Bank} (h : B.out.denied = none) : B.deniedHere = none := by
  simp only [Bank.deniedHere, h]

variable {i : Instr} {an : Annot} {kind : AccKind} {a : Nat} {d : Int} {bound : Bool} {rule : RemRule}

theorem memCheck_scratch_misaligned (h : Unanswered b s) (hspace : an.space = 1)
    (halign : addTo ((s.bank b).r.readS a).toNat d % size ≠ 0) : memCheck i b s an kind a [d] size bound rule =
      .bad (.trap cAlign (BitVec.ofNat 64 (addTo ((s.bank b).r.readS a).toNat d))) := by
  simp only [memCheck, h.task, Bool.false_and, Bool.false_eq_true, if_false, Bank.deniedHere_of_none h.undenied, hspace,
    true_or, if_true, List.map_cons, List.map_nil, List.find?_cons, decide_eq_true halign]

theorem memCheck_scratch_aligned (h : Unanswered b s) (hspace : an.space = 1)
    (halign : addTo ((s.bank b).r.readS a).toNat d % size = 0) : memCheck i b s an kind a [d] size bound rule =
      localCheck b s size [addTo ((s.bank b).r.readS a).toNat d] := by
  simp only [memCheck, h.task, Bool.false_and, Bool.false_eq_true, if_false, Bank.deniedHere_of_none h.undenied, hspace,
    true_or, if_true, List.map_cons, List.map_nil, List.find?_cons, List.find?_nil, halign, ne_eq, not_true_eq_false,
    decide_false]

theorem memCheck_global (h : Unanswered b s) (hspace : an.space = 0) (hbind : (s.bank b).r.binding a = 0) :
    memCheck i b s an kind a [d] size false rule =
      vaCheck b s kind size rule [addTo ((s.bank b).r.readS a).toNat d] := by
  simp [memCheck, globalCheck, h.task, Bank.deniedHere_of_none h.undenied, hspace, hbind]

end

/-! ### The load -/

/-- A load whose checks end in a trap takes it. -/
theorem ld_traps {s : State} {t a : BitVec 6} {z : BitVec 2} {i : BitVec 10} {c : Nat} {x : Word}
    (h : CtlReady s [t.toNat, a.toNat]) (hmode : fmIllegal (s.here.annot .c).offset a.toNat (some t.toNat) = false)
    (hcheck : memCheck (.ld t a z i) s.cur.bank s (s.here.annot .c) .read a.toNat
      [(fmOffset (s.here.annot .c).offset z i).1] (2 ^ z.toNat) false .may = .bad (.trap c x)) :
    Traps (.ld t a z i) s .c c x := by
  have hbody : loadBody (.ld t a z i) .ld t a z i (s.here.annot .c) s.cur.bank s = .trap c x := by
    simp only [loadBody, hmode, Bool.false_eq_true, if_false, hcheck]
  show memStep (.ld t a z i) true [t.toNat, a.toNat] (loadBody (.ld t a z i) .ld t a z i) s = _
  have hres := ctlRes_ready (i := .ld t a z i) (body := loadBody (.ld t a z i) .ld t a z i (s.here.annot .c)) h rfl
  simp only [memStep, h.strand]
  exact congrArg (fun r => Outcome.next (finish s.cur.bank .c s r)) (hres.trans hbody)

/-- Settles O22: each clause is the check of R293 that stops the address first. -/
theorem loadsTrap : Obligations.LoadsTrap := by
  unfold Obligations.LoadsTrap
  intro s t a z i h hnone an x size hmode
  have hun : Unanswered s.cur.bank s := ⟨h.task, hnone⟩
  refine ⟨fun hspace halign => ld_traps h hmode (memCheck_scratch_misaligned hun hspace halign),
    fun hspace halign hpast => ld_traps h hmode ?_, fun hspace hbind hhigh => ld_traps h hmode ?_,
    fun hspace hbind hlow halign => ld_traps h hmode ?_⟩
  · exact (memCheck_scratch_aligned hun hspace halign).trans (localCheck_pastWindow hpast)
  · exact (memCheck_global hun hspace hbind).trans (vaCheck_tooHigh hhigh)
  · exact (memCheck_global hun hspace hbind).trans (vaCheck_misaligned hlow halign)

end Sys2Proof.Machine
end

section
/-! Fault collection (chapter 09): a migrate request, the close and the delivery of a batch, the answers to a control
strand's fault, the switch of a bank and QUEUE (O55). -/

namespace Sys2Proof.Machine

open Sys2Proof Host

/-! ### MIGRATE_REQUEST (R143) -/

/-- An open batch begins with its first entry. -/
def OpenBatch.begin (o : OpenBatch) (e : FaultEntry) (now : Nat) : OpenBatch := { o with entries := [e], since := now }

/-- A die's open batch begins. -/
def State.beginBatch (s : State) (d : Nat) (e : FaultEntry) : State :=
  { s with faults := { s.faults with dies := KV.put s.faults.dies d ((s.openBatch d).begin e s.time) } }

theorem State.entries_beginBatch (s : State) (d : Nat) (e : FaultEntry) :
    ((s.beginBatch d e).openBatch d).entries = [e] := congrArg OpenBatch.entries (KV.get_put_same _ _ _ _)

/-- A fault that finds no range to join and no entry begins the die's open batch. -/
theorem State.collect_begins (s : State) {d : Nat} (n va k : Nat) (f : Option Faulter) (hd : d ≠ 4)
    (hdelivered : s.faults.delivered = []) (hnone : (s.openBatch d).entries = []) :
    s.collect d n va k f =
      s.beginBatch d { tenant := n, granule := va / 4096, kinds := k, faulters := f.toList } := by
  simp [State.collect, hd, hdelivered, hnone, joinEntry, batchMost, State.beginBatch, OpenBatch.begin]

/-- The TLBs hold one entry, which has reported. -/
def State.reported (s : State) (u : TlbEntry) : State := { s with tlb := [{ u with reported := true }] }

theorem exec_migrateRequest_due {s : State} {u : TlbEntry} (htlb : s.tlb = [u])
    (hplace : u.place = lastLevel s.input.who) (hmode : leafMode u.leaf = 3) (hnew : u.reported = false)
    (hcount : 2 ^ (leafMclass u.leaf + 4) ≤ u.count) :
    exec .migrateRequest s = .next ((s.reported u).collect s.input.who u.tenant u.va 64 none) := by
  show execMigrateRequest s = _
  simp only [execMigrateRequest, htlb, List.find?_cons, hplace, hmode, hnew, decide_eq_true hcount, decide_true,
    Bool.not_false, Bool.and_self, List.map_cons, List.map_nil, if_true, State.reported]

/-! ### BATCH_CLOSE (R150, R152) -/

/-- The batch that closes. -/
def State.closingBatch (s : State) (d : Nat) : Batch :=
  { die := d, serial := s.faults.nextSerial, time := s.time / 1000,
    ranges := mergeEntries (sortEntries (s.openBatch d).entries) }

/-- The batch that opens when one closes: it takes the first of the faults that wait. -/
def State.openingBatch (s : State) (d : Nat) : OpenBatch :=
  { entries := (s.openBatch d).waiting.take batchMost, since := s.time,
    waiting := (s.openBatch d).waiting.drop batchMost }

/-- A die's batch closes. -/
def State.closeBatch (s : State) (d : Nat) : State :=
  { s with faults := { s.faults with dies := KV.put s.faults.dies d (s.openingBatch d)
                                     closed := s.faults.closed ++ [s.closingBatch d]
                                     nextSerial := s.faults.nextSerial + 1 } }

theorem State.openBatch_closeBatch (s : State) (d : Nat) : (s.closeBatch d).openBatch d = s.openingBatch d :=
  KV.get_put_same _ _ _ _

theorem exec_batchClose_closes {s : State} (hsome : (s.openBatch s.input.who).entries ≠ [])
    (hfirst : s.faults.closed.any (fun b => b.die = s.input.who) = false)
    (hdue : 64 ≤ (s.openBatch s.input.who).entries.length ∨ 4000000 ≤ s.time - (s.openBatch s.input.who).since) :
    exec .batchClose s = .next (s.closeBatch s.input.who) := by
  refine congrArg Outcome.next (if_neg ?_)
  rintro (hempty | hearlier | ⟨hfew, hyoung⟩)
  · exact hsome (List.isEmpty_iff.mp hempty)
  · exact absurd (hfirst.symm.trans hearlier) Bool.false_ne_true
  · exact hdue.elim (Nat.not_le.mpr hfew) (Nat.not_le.mpr hyoung)

/-! ### BATCH_DELIVER, and the registers of the buffer (R151, R152) -/

/-- Where the next batch is written. -/
def State.nextSlot (s : State) : Nat :=
  bitsOf (s.hubReg offFCBUF) 51 12 * 4096 + s.hubReg offFCTAIL % fcSlots (s.hubReg offFCBUF) * 4096

/-- The oldest closed batch is written, and the system cores are interrupted. -/
def State.deliverBatch (s : State) (b : Batch) (rest : List Batch) : State :=
  { s with
    mem := s.mem.writeN s.nextSlot b.bytes
    hub := KV.put s.hub offFCTAIL ((s.hubReg offFCTAIL + 1) % 2 ^ 32)
    faults := { s.faults with
      closed := rest, delivered := s.faults.delivered ++ [b], irqs := s.faults.irqs ++ [1] } }

theorem State.hubReg_deliverBatch (s : State) (b : Batch) (rest : List Batch) :
    (s.deliverBatch b rest).hubReg offFCTAIL = (s.hubReg offFCTAIL + 1) % 2 ^ 32 := KV.get_put_same _ _ _ _

theorem State.deliverBatch_mem (s : State) (b : Batch) (rest : List Batch) :
    (s.deliverBatch b rest).mem = s.mem.writeN (bitsOf (s.hubReg offFCBUF) 51 12 * 4096 +
      s.hubReg offFCTAIL % fcSlots (s.hubReg offFCBUF) * 4096) b.bytes := by
  simp only [State.deliverBatch, State.nextSlot]

theorem exec_batchDeliver_delivers {s : State} {b : Batch} {rest : List Batch} (hclosed : s.faults.closed = b :: rest)
    (hroom : s.fcRoom = true) : exec .batchDeliver s = .next (s.deliverBatch b rest) := by
  show execBatchDeliver s = _
  simp only [execBatchDeliver, hclosed, hroom, Bool.not_true, Bool.false_eq_true, if_false, State.pokeBytes,
    State.setHub, State.irq, State.deliverBatch, State.nextSlot]

/-- Room for batches that wait is a turn of the agenda at most. -/
theorem State.roomMade_eq (s : State) : ∃ x, s.roomMade = { s with agenda := x } := by
  unfold State.roomMade
  split
  · exact ⟨_, rfl⟩
  · exact ⟨s.agenda, rfl⟩

theorem State.roomMade_setHub (s : State) (off v : Nat) :
    (s.setHub off v).roomMade.hubReg off = v ∧ (s.setHub off v).roomMade =
      { s with hub := (s.setHub off v).roomMade.hub, agenda := (s.setHub off v).roomMade.agenda } := by
  obtain ⟨x, hx⟩ := (s.setHub off v).roomMade_eq
  rw [hx]
  exact ⟨s.hubReg_setHub_same off v, rfl⟩

theorem exec_fcheadWrite (s : State) :
    exec .fcheadWrite s = .next (s.setHub offFCHEAD (s.input.value.toNat % 2 ^ 32)).roomMade := rfl

theorem exec_fcbufWrite (s : State) :
    exec .fcbufWrite s = .next (s.setHub offFCBUF (s.input.value.toNat &&& 0x000FFFFFFFFFF01F)).roomMade := rfl

/-! ### Answers (R148, R153) -/

/-- A fault of the control strand lies in an answered range. -/
def LocalFault.answeredBy (r : FaultRange) (f : LocalFault) : Bool := decide (f.xfer = none) && f.within r

theorem Bank.drainEnds_r (B : Bank) : B.drainEnds.r = B.r := by
  unfold Bank.drainEnds
  split <;> rfl

theorem Bank.drainEnds_denied (B : Bank) : B.drainEnds.out.denied = B.out.denied := by
  unfold Bank.drainEnds
  split <;> rfl

theorem Bank.drainEnds_faults (B : Bank) : B.drainEnds.out.faults = B.out.faults := by
  unfold Bank.drainEnds
  split <;> rfl

section
variable {B : Bank} {r : FaultRange}

theorem Bank.answerFault_none (h : B.out.faults.filter (LocalFault.answeredBy r) = []) (access : Bool) :
    B.answerFault none r access = B := by
  have hfilter : B.out.faults.filter (fun f => decide (f.xfer = none) && f.within r) = [] := h
  simp only [Bank.answerFault, hfilter]

variable {f : LocalFault} {rest : List LocalFault} (h : B.out.faults.filter (LocalFault.answeredBy r) = f :: rest)
include h

theorem Bank.answerFault_retry :
    B.answerFault none r false = (B.onOut (fun o => { o with faults := [] })).drainEnds := by
  have hfilter : B.out.faults.filter (fun f => decide (f.xfer = none) && f.within r) = f :: rest := h
  simp only [Bank.answerFault, hfilter, Bool.not_false, if_true]

theorem Bank.answerFault_access : B.answerFault none r true = (B.onOut (fun o => { o with
    faults := o.faults.filter (fun f => ! f.answeredBy r), denied := some (f.va, f.handler) })).drainEnds := by
  have hfilter : B.out.faults.filter (fun f => decide (f.xfer = none) && f.within r) = f :: rest := h
  simp only [Bank.answerFault, hfilter, Bool.not_true, Bool.false_eq_true, if_false]
  rfl

end

/-- The answer of retry leaves a bank's registers and what an earlier answer denied, and where it meets a fault of the
control strand it leaves no fault. -/
theorem Bank.answerFault_retry_leaves (B : Bank) (r : FaultRange) :
    (B.answerFault none r false).r = B.r ∧ (B.answerFault none r false).out.denied = B.out.denied ∧
    ((∃ f, f ∈ B.out.faults ∧ f.xfer = none ∧ f.within r) → (B.answerFault none r false).out.faults = []) := by
  cases h : B.out.faults.filter (LocalFault.answeredBy r) with
  | nil =>
    rw [Bank.answerFault_none h]
    refine ⟨rfl, rfl, fun ⟨f, hf, hnone, hin⟩ => ?_⟩
    have hmiss := List.filter_eq_nil_iff.mp h f hf
    exact absurd (by simp [LocalFault.answeredBy, hnone, hin]) hmiss
  | cons f rest =>
    rw [Bank.answerFault_retry h, Bank.drainEnds_r, Bank.drainEnds_denied, Bank.drainEnds_faults]
    exact ⟨rfl, rfl, fun _ => rfl⟩

/-- The answer of ACCESS denies the first fault of the control strand that it meets, and takes all that it meets. -/
theorem Bank.answerFault_access_leaves {B : Bank} {r : FaultRange} {f : LocalFault}
    (h : B.out.faults.find? (LocalFault.answeredBy r) = some f) :
    (B.answerFault none r true).r = B.r ∧ (B.answerFault none r true).out.denied = some (f.va, f.handler) ∧
    (B.answerFault none r true).out.faults = B.out.faults.filter (fun f => ! f.answeredBy r) := by
  obtain ⟨rest, hrest⟩ := List.head?_eq_some_iff.mp (List.head?_filter.trans h)
  rw [Bank.answerFault_access hrest, Bank.drainEnds_r, Bank.drainEnds_denied, Bank.drainEnds_faults]
  exact ⟨rfl, rfl, rfl⟩

/-- The answer to a range that waits on the control strand of one bank goes to that bank. -/
theorem State.fcAnswer_ctl {s : State} {v b : Nat} {x : Batch} {r : FaultRange}
    (hbatch : s.faults.delivered.find? (fun x => x.serial % 2 ^ 40 = bitsOf v 63 24) = some x)
    (hrange : x.ranges[bitsOf v 23 16]? = some r) (hwaits : r.answered = false) (hkinds : r.kinds ≠ 64)
    (hctl : r.faulters = [.ctl b]) (access : Bool) :
    ∃ y, s.fcAnswer v access = ({ s with faults := y }).updBank b (·.answerFault none r access) := by
  simp only [State.fcAnswer, hbatch, hrange, hwaits, hkinds, Bool.false_eq_true, or_self, if_false, hctl,
    List.foldl_cons, List.foldl_nil, State.answerFaulter]
  exact ⟨_, rfl⟩

theorem exec_fcansRetry_answers {s : State} (h : s.input.value.toNat % 4 = 0) :
    exec .fcansRetry s = .next (s.fcAnswer s.input.value.toNat false) := congrArg Outcome.next (if_pos h)

theorem exec_fcansAccess_answers {s : State} (h : s.input.value.toNat % 4 = 1) :
    exec .fcansAccess s = .next (s.fcAnswer s.input.value.toNat true) := congrArg Outcome.next (if_pos h)

/-! ### BANK_SWITCH_OUT and QUEUE (R124, R127) -/

theorem exec_bankSwitchOut_switches {s : State} {f : LocalFault} (hlive : (s.bank s.input.who).status = .live)
    (hf : f ∈ (s.bank s.input.who).out.faults)
    (hage : bitsOf ((s.bank s.input.who).csrGet csrFSWITCH).toNat 15 0 ≤ f.age) :
    exec .bankSwitchOut s = .next (s.updBank s.input.who (·.onOut (fun o => { o with out := true }))) :=
  congrArg Outcome.next (if_pos ⟨hlive, List.any_eq_true.mpr ⟨f, hf, decide_eq_true hage⟩⟩)

theorem exec_queueTrap_raises {s : State} (hlive : (s.bank s.input.who).status = .live)
    (htask : isSys s.input.who = false) (hidle : 256 ≤ (s.bank s.input.who).n.idle)
    (hout : s.nothingOut s.input.who = true) (htraps : (s.bank s.input.who).activeTraps = []) :
    exec .queueTrap s = .next (s.updBank s.input.who (fun B =>
      { B.raisePrecise .c cQueue (BitVec.ofNat 64 B.stalledBits) with n := { B.n with idle := 0 } })) :=
  congrArg Outcome.next (if_pos ⟨hlive, htask, hidle, hout, List.isEmpty_iff.mpr htraps⟩)

/-- Settles O55: each clause is the row's own equation, and what the operations in it change. -/
theorem faultCollection : Obligations.FaultCollection := by
  unfold Obligations.FaultCollection
  refine ⟨?migrate, ?close, ?deliver, ?head, ?buffer, ?answer, ?switch, ?queue⟩
  case migrate =>
    rintro s d u rfl hdie htlb hplace hmode hnew hcount hdelivered hopen
    have hbegins := (s.reported u).collect_begins u.tenant u.va 64 none (Nat.ne_of_lt hdie) hdelivered
      (congrArg OpenBatch.entries hopen)
    refine ⟨_, (exec_migrateRequest_due htlb hplace hmode hnew hcount).trans (congrArg Outcome.next hbegins),
      rfl, rfl, rfl, _, State.entries_beginBatch _ _ _, rfl, rfl, rfl, rfl⟩
  case close =>
    rintro s d rfl hsome hfirst hdue
    refine ⟨_, exec_batchClose_closes hsome hfirst hdue, rfl, rfl, ?_, ?_, _, rfl, rfl, rfl, rfl, rfl⟩
    · rw [State.openBatch_closeBatch]; rfl
    · rw [State.openBatch_closeBatch]; rfl
  case deliver =>
    intro s b rest hclosed hroom
    exact ⟨_, exec_batchDeliver_delivers hclosed hroom, s.hubReg_deliverBatch b rest, rfl,
      s.deliverBatch_mem b rest, rfl, rfl, rfl⟩
  case head => exact fun s => ⟨_, exec_fcheadWrite s, s.roomMade_setHub _ _⟩
  case buffer => exact fun s => ⟨_, exec_fcbufWrite s, s.roomMade_setHub _ _⟩
  case answer =>
    intro s x r b v hbatch hrange hwaits hkinds hctl
    refine ⟨fun hretry => ?_, fun haccess f hf => ?_⟩
    · obtain ⟨y, hy⟩ := State.fcAnswer_ctl hbatch hrange hwaits hkinds hctl false
      refine ⟨_, (exec_fcansRetry_answers hretry).trans (congrArg Outcome.next hy), rfl,
        fun c hc => State.bank_updBank_ne _ _ hc, ?_⟩
      rw [State.bank_updBank_same]
      exact Bank.answerFault_retry_leaves _ r
    · obtain ⟨y, hy⟩ := State.fcAnswer_ctl hbatch hrange hwaits hkinds hctl true
      refine ⟨_, (exec_fcansAccess_answers haccess).trans (congrArg Outcome.next hy), rfl,
        fun c hc => State.bank_updBank_ne _ _ hc, ?_⟩
      rw [State.bank_updBank_same]
      exact Bank.answerFault_access_leaves hf
  case switch =>
    rintro s b rfl hlive ⟨f, hf, hage⟩
    refine ⟨_, exec_bankSwitchOut_switches hlive hf hage, OnlyBank.updBank _ _ _, ?_⟩
    rw [State.bank_updBank_same]
    exact ⟨rfl, rfl⟩
  case queue =>
    rintro s b rfl hlive htask hidle hout htraps
    refine ⟨_, exec_queueTrap_raises hlive htask hidle hout htraps, OnlyBank.updBank _ _ _, ?_⟩
    rw [State.bank_updBank_same]
    exact ⟨rfl, _, rfl, rfl, rfl, rfl, rfl⟩

end Sys2Proof.Machine
end

section
/-! References (chapters 10 and 14): `rbind`, `radd` and `runbind` (O11). -/

namespace Sys2Proof.Machine

open Sys2Proof Host

/-! ### Words that write a bound scalar (R171) -/

/-- Writing one scalar with a binding and passing is all that a word that binds does. -/
theorem wroteBound (s : State) (d : Nat) (x : Word) (k : Nat) :
    WroteBound s ((s.onRegs s.cur.bank (·.writeBound d x k)).updBank s.cur.bank (·.pass .c)) d x k := by
  rw [State.onRegs_updBank]
  refine ⟨OnlyBank.updBank _ _ _, ?rest, ?walk, ?apart, ?value, ?binding, ?others⟩
  case rest => simp only [State.bank_updBank_same, Bank.pass_eq]; rfl
  case walk => exact Advanced.passTo _ _ _ _ (fun B => B.onRegs _) (fun e => by cases e <;> rfl) rfl
  all_goals simp only [State.bank_updBank_same, Bank.pass_r, Bank.onRegs_r]
  case apart => exact Regs.writeBound_apart _ _ _ _
  case value =>
    rw [Regs.readS_writeBound]
    by_cases h : d = 0
    · simp [h, Regs.readS]
    · simp [h]
  case binding =>
    rw [Regs.binding_writeBound]
    by_cases h : d = 0
    · simp [h, Regs.binding]
    · simp [h]
  case others =>
    intro n hn
    simp [Regs.readS_writeBound, Regs.binding_writeBound, hn]

section
variable {s : State} {rs : List Nat} {i : Instr} {body : Nat → State → Res}

/-- A ready word whose body writes one scalar with a binding. -/
theorem goes_wroteBound {d k : Nat} {x : Word} (h : CtlReady s rs) (hl : i.legal = true)
    (hx : exec i s = ctlWord i rs body s)
    (hb : body s.cur.bank s = .done (s.onRegs s.cur.bank (·.writeBound d x k))) :
    Goes i s (fun t => WroteBound s t d x k) :=
  ⟨_, by rw [hx, ctlWord_ready h hl, hb]; rfl, wroteBound s d x k⟩

/-- A ready word whose body writes one scalar unbound, where the value may rest on more than the registers. -/
theorem givesScalar_of_body {d : BitVec 6} {x : Word} (h : CtlReady s rs) (hl : i.legal = true)
    (hx : exec i s = ctlWord i rs body s)
    (hb : body s.cur.bank s = .done (s.onRegs s.cur.bank (·.writeS d.toNat x))) : GivesScalar i s d x :=
  ⟨_, by rw [hx, ctlWord_ready h hl, hb]; rfl, wroteScalar s d x⟩

/-- A control word with a field that its rule does not allow traps with ILLEGAL (R247). -/
theorem traps_illegal (h : s.cur.strand = .c) (hl : i.legal = false) (hx : exec i s = ctlWord i rs body s) :
    Traps i s .c 0x01 (wordVal i) :=
  hx.trans (ctlWord_illegal h hl)

end

/-! ### The three words (R286) -/

section
variable {s : State} {d a c k : BitVec 6}

theorem rbind_binds (h : CtlReady s [d.toNat, c.toNat]) (hk : k.toNat < 8) :
    Goes (.rbind d k c) s (fun t => WroteBound s t d.toNat (s.reg c) (k.toNat + 1)) :=
  goes_wroteBound h (decide_eq_true hk) rfl rfl

theorem rbind_noParcelRegister (h : CtlReady s [d.toNat, c.toNat]) (hk : 8 ≤ k.toNat) :
    Traps (.rbind d k c) s .c 0x01 (wordVal (.rbind d k c)) :=
  traps_illegal h.strand (decide_eq_false (Nat.not_lt.mpr hk)) rfl

theorem radd_keepsBinding (h : CtlReady s [d.toNat, a.toNat, c.toNat]) (hbind : s.here.r.binding a.toNat ≠ 0) :
    Goes (.radd d a c) s (fun t => WroteBound s t d.toNat (s.reg a + s.reg c) (s.here.r.binding a.toNat)) :=
  goes_wroteBound h rfl rfl (if_neg hbind)

theorem radd_unbound (h : CtlReady s [d.toNat, a.toNat, c.toNat]) (hbind : s.here.r.binding a.toNat = 0) :
    Traps (.radd d a c) s .c 0x0A (s.reg a) :=
  traps_of h rfl rfl (if_pos hbind)

theorem runbind_unbound (h : CtlReady s [d.toNat, a.toNat]) (hbind : s.here.r.binding a.toNat = 0) :
    Traps (.runbind d a) s .c 0x0A (s.reg a) :=
  traps_of h rfl rfl (if_pos hbind)

theorem runbind_notOpen (h : CtlReady s [d.toNat, a.toNat]) (hbind : s.here.r.binding a.toNat ≠ 0)
    (hopen : s.openEntry s.cur.bank (s.here.r.binding a.toNat - 1) = none) :
    Traps (.runbind d a) s .c 0x0B (s.reg a) := by
  refine traps_of h rfl rfl ((if_neg hbind).trans ?_)
  unfold State.here at hopen
  rw [hopen]; rfl

theorem runbind_open {q : Parcel} (h : CtlReady s [d.toNat, a.toNat]) (hbind : s.here.r.binding a.toNat ≠ 0)
    (hopen : s.openEntry s.cur.bank (s.here.r.binding a.toNat - 1) = some q) :
    GivesScalar (.runbind d a) s d (BitVec.ofNat 64 q.base + s.reg a) := by
  refine givesScalar_of_body h rfl rfl ((if_neg hbind).trans ?_)
  unfold State.here at hopen
  rw [hopen]; rfl

end

/-- Settles O11: each clause is one branch of its word, once the checks at issue are past; only the ILLEGAL clause of
`rbind` is one of those checks. -/
theorem references : Obligations.References := by
  unfold Obligations.References
  exact ⟨fun _ _ _ _ h => ⟨rbind_binds h, rbind_noParcelRegister h⟩,
    fun _ _ _ _ h => ⟨radd_keepsBinding h, radd_unbound h⟩,
    fun _ _ _ h => ⟨runbind_unbound h, runbind_notOpen h, fun _ => runbind_open h⟩⟩

end Sys2Proof.Machine
end
